-- ==== Sys2Proof/Word.lean ====
section
/-!
DEFINITION. Word: the word types of the manual (00 R12, 01 R25).
-/

namespace Sys2Proof

/-- A byte of memory. -/
abbrev Byte := BitVec 8

/-- A 32-bit word: a w register, a PC, a special register. -/
abbrev Word := BitVec 32

/-- A 64-bit word: an x pair, an extension register, a counter. -/
abbrev DWord := BitVec 64

/-- One bit for each of the 128 signals of a domain (R176). -/
abbrev SigSet := BitVec 128

/-- Memory as plain data: addresses with the byte each holds (see Machine/State.lean for its canonical form). -/
abbrev Mem := List Host.Cell

/-- Units by number: the ones that differ from their value at reset, in any order. -/
abbrev Table (α : Type) := List (Nat × α)

end Sys2Proof
end

