-- ==== Sys2Proof/Config.lean ====
section
/-!
DEFINITION. Config: what the part fixes (00 Tables 0.1 and 0.3, R3, R5) and the values the manual leaves open. A free value is an
opaque constant: no proof can see what it is, so a claim about it holds for every value (log entries 1 to 4).
-/

namespace Sys2Proof.Config

/-- Compute dies of the module (R1). -/
def dies : Nat := 40
/-- Cores of a die, and of the module (R3). -/
def coresPerDie : Nat := 16384
def cores : Nat := 655360
/-- Rods of the module, rods of a die (R3). -/
def rods : Nat := 81920
def rodsPerDie : Nat := 2048
/-- DRAM channels, one barista beside each (R1, R235). -/
def channels : Nat := 512
/-- Compute cores and baristas; barista of channel i is unit 655,360 + i, as its CORE register reads (R331). -/
def allCores : Nat := 655872
/-- Tokens of a DRAM line (R358). -/
def tokens : Nat := 64
/-- Watch entries of a die (R170), records of a record area (R198), fault-queue entries (R346). -/
def watchEntries : Nat := 4096
def records : Nat := 16384
def faultEntries : Nat := 1024

/-- Identification of each PCI Express function (R380): Vendor and Device ID, which the Subsystem IDs repeat, Revision ID, class code; and the
ID register, FEAT0 (Table 22.3). -/
def vendorId : Nat := 0x1F2C
def deviceId : Nat := 0x4016
def revisionId : Nat := 0x01
def classCode : Nat := 0x120000
def idRegister : Nat := 0x00014016

/-- DESIGN CHOICE (log 2): cycles above a stated minimum; the manual bounds a latency only from below (R236, R370). -/
opaque slack : Nat → Nat
/-- DESIGN CHOICE (log 3): the byte some destination receives where the manual calls a value undefined (R15, R23, R167, R300). -/
opaque freeByte : Nat → Byte
/-- DESIGN CHOICE (log 4): which of the two FP32 neighbours the function unit returns, one fixed answer for each function and
argument (R59). -/
opaque upperNeighbour : Nat → Nat → Bool
/-- DESIGN CHOICE (log 6): whether a peer module accepts a write sent to it; the peer is outside this module (R297, R316). -/
opaque peerAccepts : Nat → Bool
/-- DESIGN CHOICE (log 6): the byte a read of a peer window returns (R382). -/
opaque peerByte : Nat → Byte
/-- DESIGN CHOICE (log 7): whether a firmware image's RSASSA-PSS and SLH-DSA-SHA2-192s signatures verify (R399). -/
opaque signaturesVerify : Nat → Bool
/-- DESIGN CHOICE (log 7): the fused minimum firmware version (R399). -/
opaque minVersion : Nat
/-- DESIGN CHOICE (log 7): measurement 0 once boot has extended it with the digest of the ROM and a fuse state, by the life-cycle state that
the fuses hold (R401); 1 or 2 once boot has extended it with the SHA-384 digest of an image, as a number; 3 is
one that boot has not extended (R400). -/
opaque digest : Nat → Nat → Nat
/-- DESIGN CHOICE (log 7): the value of a telemetry item, the k-th time it is read (R398). -/
opaque telemetry : Nat → Nat → Nat
/-- DESIGN CHOICE (log 7): the signature of the measurements, by life-cycle state (R400, R401). -/
opaque attest : Nat → Nat → Nat
/-- DESIGN CHOICE (log 7): the k-th estimate of the module's power, in watts (R404). -/
opaque power : Nat → Nat
/-- DESIGN CHOICE (log 2): which of the outcomes the manual permits the device takes, where it permits several. -/
opaque pick : Nat → Nat

end Sys2Proof.Config
end

