-- ==== Sys2Proof/Syntax.lean ====
section
/-!
DEFINITION. Syntax: one constructor for each row of spec/opcode_table.json. An instruction row carries the raw fields of its
encoding (03 Tables 3.2 to 3.13) as natural numbers under the names of the table; an event row has no field: the unit it concerns
stands in State (Args). The rows that have fields come first, in the order of the table.
-/

namespace Sys2Proof

/-- The steps of the part: its instructions and its events (spec/opcode_table.json, spec/95). -/
inductive Instr where
  /-- ADD (R91). -/
  | add (t b a d : Nat)
  /-- SUB (R91). -/
  | sub (t b a d : Nat)
  /-- MUL (R91). -/
  | mul (t b a d : Nat)
  /-- MULH (R91). -/
  | mulh (t b a d : Nat)
  /-- MULHN (R91). -/
  | mulhn (t b a d : Nat)
  /-- DIV (R91). -/
  | div (t b a d : Nat)
  /-- DIVN (R91). -/
  | divn (t b a d : Nat)
  /-- REM (R91). -/
  | rem (t b a d : Nat)
  /-- REMN (R91). -/
  | remn (t b a d : Nat)
  /-- AND (R91). -/
  | and (t b a d : Nat)
  /-- OR (R91). -/
  | or (t b a d : Nat)
  /-- XOR (R91). -/
  | xor (t b a d : Nat)
  /-- ANDN (R91). -/
  | andn (t b a d : Nat)
  /-- ORN (R91). -/
  | orn (t b a d : Nat)
  /-- SHL (R91). -/
  | shl (t b a d : Nat)
  /-- SHR (R91). -/
  | shr (t b a d : Nat)
  /-- SRA (R91). -/
  | sra (t b a d : Nat)
  /-- ROTL (R91). -/
  | rotl (t b a d : Nat)
  /-- MIN (R91). -/
  | min (t b a d : Nat)
  /-- MAX (R91). -/
  | max (t b a d : Nat)
  /-- MINN (R91). -/
  | minn (t b a d : Nat)
  /-- MAXN (R91). -/
  | maxn (t b a d : Nat)
  /-- SLT (R91). -/
  | slt (t b a d : Nat)
  /-- SLTN (R91). -/
  | sltn (t b a d : Nat)
  /-- SEL (R92). -/
  | sel (c t b a d : Nat)
  /-- CLZ (R91). -/
  | clz (t a d : Nat)
  /-- CTZ (R91). -/
  | ctz (t a d : Nat)
  /-- POPC (R91). -/
  | popc (t a d : Nat)
  /-- BSWAP (R91). -/
  | bswap (t a d : Nat)
  /-- ADD_16 (R94). -/
  | add16 (a d : Nat)
  /-- SUB_16 (R94). -/
  | sub16 (a d : Nat)
  /-- AND_16 (R94). -/
  | and16 (a d : Nat)
  /-- OR_16 (R94). -/
  | or16 (a d : Nat)
  /-- XOR_16 (R94). -/
  | xor16 (a d : Nat)
  /-- SHL_16 (R94). -/
  | shl16 (a d : Nat)
  /-- SHR_16 (R94). -/
  | shr16 (a d : Nat)
  /-- SRA_16 (R94). -/
  | sra16 (a d : Nat)
  /-- MOV_16 (R94). -/
  | mov16 (a d : Nat)
  /-- MIN_16 (R94). -/
  | min16 (a d : Nat)
  /-- MAX_16 (R94). -/
  | max16 (a d : Nat)
  /-- MINN_16 (R94). -/
  | minn16 (a d : Nat)
  /-- MAXN_16 (R94). -/
  | maxn16 (a d : Nat)
  /-- MUL_16 (R94). -/
  | mul16 (a d : Nat)
  /-- SLT_16 (R94). -/
  | slt16 (a d : Nat)
  /-- SLTN_16 (R94). -/
  | sltn16 (a d : Nat)
  /-- ADD_IMMEDIATE (R95). -/
  | addImmediate (ix a d : Nat)
  /-- ADD_IMMEDIATE_16 (R95). -/
  | addImmediate16 (ix d : Nat)
  /-- LIH (R96). -/
  | lih (ix d : Nat)
  /-- ADD_K (R97). -/
  | addK (t k a d : Nat)
  /-- SUB_K (R97). -/
  | subK (t k a d : Nat)
  /-- MUL_K (R97). -/
  | mulK (t k a d : Nat)
  /-- MULH_K (R97). -/
  | mulhK (t k a d : Nat)
  /-- MULHN_K (R97). -/
  | mulhnK (t k a d : Nat)
  /-- DIV_K (R97). -/
  | divK (t k a d : Nat)
  /-- DIVN_K (R97). -/
  | divnK (t k a d : Nat)
  /-- REM_K (R97). -/
  | remK (t k a d : Nat)
  /-- REMN_K (R97). -/
  | remnK (t k a d : Nat)
  /-- AND_K (R97). -/
  | andK (t k a d : Nat)
  /-- OR_K (R97). -/
  | orK (t k a d : Nat)
  /-- XOR_K (R97). -/
  | xorK (t k a d : Nat)
  /-- ANDN_K (R97). -/
  | andnK (t k a d : Nat)
  /-- ORN_K (R97). -/
  | ornK (t k a d : Nat)
  /-- SHL_K (R97). -/
  | shlK (t k a d : Nat)
  /-- SHR_K (R97). -/
  | shrK (t k a d : Nat)
  /-- SRA_K (R97). -/
  | sraK (t k a d : Nat)
  /-- ROTL_K (R97). -/
  | rotlK (t k a d : Nat)
  /-- MIN_K (R97). -/
  | minK (t k a d : Nat)
  /-- MAX_K (R97). -/
  | maxK (t k a d : Nat)
  /-- MINN_K (R97). -/
  | minnK (t k a d : Nat)
  /-- MAXN_K (R97). -/
  | maxnK (t k a d : Nat)
  /-- SLT_K (R97). -/
  | sltK (t k a d : Nat)
  /-- SLTN_K (R97). -/
  | sltnK (t k a d : Nat)
  /-- LDK (R97). -/
  | ldk (t k d : Nat)
  /-- LDK_16 (R97). -/
  | ldk16 (k d : Nat)
  /-- BEXT (R98). -/
  | bext (w p a d : Nat)
  /-- BINS (R98). -/
  | bins (w p a d : Nat)
  /-- LD (R100). -/
  | ld (o sx z a d : Nat)
  /-- ST (R100). -/
  | st (o sx z a d : Nat)
  /-- LD_32_16 (R102). -/
  | ld3216 (o a d : Nat)
  /-- ST_32_16 (R102). -/
  | st3216 (o a d : Nat)
  /-- PUSH (R32). -/
  | push (t a : Nat)
  /-- POP (R32). -/
  | pop (t d : Nat)
  /-- BEQ (R105). -/
  | beq (o b a : Nat)
  /-- BNE (R105). -/
  | bne (o b a : Nat)
  /-- BLT (R105). -/
  | blt (o b a : Nat)
  /-- BGE (R105). -/
  | bge (o b a : Nat)
  /-- BLTN (R105). -/
  | bltn (o b a : Nat)
  /-- BGEN (R105). -/
  | bgen (o b a : Nat)
  /-- BZ (R105). -/
  | bz (o a : Nat)
  /-- BNZ (R105). -/
  | bnz (o a : Nat)
  /-- BZ_16 (R106). -/
  | bz16 (o a : Nat)
  /-- BNZ_16 (R106). -/
  | bnz16 (o a : Nat)
  /-- B (R106). -/
  | b (o : Nat)
  /-- B_16 (R106). -/
  | b16 (o : Nat)
  /-- CALL (R106). -/
  | call (o : Nat)
  /-- LOOP (R107). -/
  | loop (o a : Nat)
  /-- JR (R107). -/
  | jr (a : Nat)
  /-- JALR (R107). -/
  | jalr (a : Nat)
  /-- CTL_GET (R110). -/
  | ctlGet (w n d : Nat)
  /-- CTL_SET (R110). -/
  | ctlSet (w n a : Nat)
  /-- EXT_SET (R113). -/
  | extSet (a d : Nat)
  /-- EXT_GET (R113). -/
  | extGet (a d : Nat)
  /-- BRK (R114). -/
  | brk (n : Nat)
  /-- VECTOR_PREFIX (R75). -/
  | vectorPrefix (c r z m : Nat)
  /-- VADD (R120). -/
  | vadd (v t b a d : Nat)
  /-- VSUB (R120). -/
  | vsub (v t b a d : Nat)
  /-- VMUL (R120). -/
  | vmul (t b a d : Nat)
  /-- VFMA (R120). -/
  | vfma (t b a d : Nat)
  /-- VFMS (R120). -/
  | vfms (t b a d : Nat)
  /-- VFNMA (R120). -/
  | vfnma (t b a d : Nat)
  /-- VMIN (R120). -/
  | vmin (t b a d : Nat)
  /-- VMAX (R120). -/
  | vmax (t b a d : Nat)
  /-- VABS (R120). -/
  | vabs (v t a d : Nat)
  /-- VNEG (R120). -/
  | vneg (v t a d : Nat)
  /-- VAND (R121). -/
  | vand (t b a d : Nat)
  /-- VOR (R121). -/
  | vor (t b a d : Nat)
  /-- VXOR (R121). -/
  | vxor (t b a d : Nat)
  /-- VANDN (R121). -/
  | vandn (t b a d : Nat)
  /-- VSHL (R121). -/
  | vshl (v t b a d : Nat)
  /-- VSHR (R121). -/
  | vshr (v t b a d : Nat)
  /-- VSRA (R121). -/
  | vsra (v t b a d : Nat)
  /-- VCMP (R122). -/
  | vcmp (c t b a d : Nat)
  /-- VSEL (R123). -/
  | vsel (m t b a d : Nat)
  /-- VCVT (R124). -/
  | vcvt (p sx t b a d : Nat)
  /-- VMOV (R126). -/
  | vmov (t a d : Nat)
  /-- VSPLAT (R126). -/
  | vsplat (t a d : Nat)
  /-- VBCAST (R126). -/
  | vbcast (h t j a d : Nat)
  /-- VPERM (R126). -/
  | vperm (t b a d : Nat)
  /-- VROT (R126). -/
  | vrot (h t j a d : Nat)
  /-- VZIP (R126). -/
  | vzip (v t b a d : Nat)
  /-- VUNZIP (R126). -/
  | vunzip (v t b a d : Nat)
  /-- VRED (R127). -/
  | vred (v t a d : Nat)
  /-- VDOT (R128). -/
  | vdot (t b a d : Nat)
  /-- VLD (R129). -/
  | vld (h t o a d : Nat)
  /-- VST (R129). -/
  | vst (h t o a d : Nat)
  /-- VLDP (R130). -/
  | vldp (t a d : Nat)
  /-- VSTP (R130). -/
  | vstp (t a d : Nat)
  /-- VGATH (R131). -/
  | vgath (t b a d : Nat)
  /-- VSCAT (R131). -/
  | vscat (t b a d : Nat)
  /-- VFN_EXP2 (R132). -/
  | vfnExp2 (t a d : Nat)
  /-- VFN_EXP (R132). -/
  | vfnExp (t a d : Nat)
  /-- VFN_LOG2 (R132). -/
  | vfnLog2 (t a d : Nat)
  /-- VFN_LOG (R132). -/
  | vfnLog (t a d : Nat)
  /-- VFN_RCP (R132). -/
  | vfnRcp (t a d : Nat)
  /-- VFN_RSQRT (R132). -/
  | vfnRsqrt (t a d : Nat)
  /-- VFN_SQRT (R132). -/
  | vfnSqrt (t a d : Nat)
  /-- VFN_SIN (R132). -/
  | vfnSin (t a d : Nat)
  /-- VFN_COS (R132). -/
  | vfnCos (t a d : Nat)
  /-- VFN_TANH (R132). -/
  | vfnTanh (t a d : Nat)
  /-- VFN_SIGMOID (R132). -/
  | vfnSigmoid (t a d : Nat)
  /-- VFN_ERF (R132). -/
  | vfnErf (t a d : Nat)
  /-- VEXPR (R133). -/
  | vexpr (e t b a d : Nat)
  /-- SOP_ADD (R137). -/
  | sopAdd (v t b a d : Nat)
  /-- SOP_SUB (R137). -/
  | sopSub (v t b a d : Nat)
  /-- SOP_MUL (R137). -/
  | sopMul (t b a d : Nat)
  /-- SOP_FMA (R138). -/
  | sopFma (w t b a d : Nat)
  /-- SOP_MIN (R137). -/
  | sopMin (t b a d : Nat)
  /-- SOP_MAX (R137). -/
  | sopMax (t b a d : Nat)
  /-- SOP_CVT (R138). -/
  | sopCvt (sx t b a d : Nat)
  /-- MAND (R139). -/
  | mand (b a d : Nat)
  /-- MOR (R139). -/
  | mor (b a d : Nat)
  /-- MXOR (R139). -/
  | mxor (b a d : Nat)
  /-- MNOT (R139). -/
  | mnot (a d : Nat)
  /-- MPOP (R139). -/
  | mpop (t a d : Nat)
  /-- MFIRST (R139). -/
  | mfirst (t a d : Nat)
  /-- MSET (R139). -/
  | mset (a d : Nat)
  /-- CK_MK (R148). -/
  | ckMk (m t a d : Nat)
  /-- CK_AX (R149). -/
  | ckAx (t ix a d : Nat)
  /-- CK_ADD (R150). -/
  | ckAdd (m t b a d : Nat)
  /-- CK_SUB (R150). -/
  | ckSub (m t b a d : Nat)
  /-- CK_CMP (R151). -/
  | ckCmp (t b a d : Nat)
  /-- CK_DOM (R151). -/
  | ckDom (t b a d : Nat)
  /-- CK_INBOX (R151). -/
  | ckInbox (t b a d : Nat)
  /-- CK_NEXT (R152). -/
  | ckNext (m t b a d : Nat)
  /-- CK_PREV (R152). -/
  | ckPrev (m t b a d : Nat)
  /-- CK_CLIP (R153). -/
  | ckClip (m t b a d : Nat)
  /-- CK_CHK (R154). -/
  | ckChk (t a d : Nat)
  /-- CK_SPLIT (R155). -/
  | ckSplit (m t b a d : Nat)
  /-- VCK_ADD (R157). -/
  | vckAdd (m t b a d : Nat)
  /-- SPAWN (R197). -/
  | spawn (a d : Nat)
  /-- SPAWN_BOX (R199). -/
  | spawnBox (f c b a d : Nat)
  /-- PARK (R200). -/
  | park (a d : Nat)
  /-- PAUSE_W (R203). -/
  | pauseW (a d : Nat)
  /-- GANG_FORM (R210). -/
  | gangForm (n d : Nat)
  /-- EMIT (R206). -/
  | emit (n : Nat)
  /-- EMIT_16 (R72). -/
  | emit16 (n : Nat)
  /-- EMIT_V (R206). -/
  | emitV (n a : Nat)
  /-- TEST (R208). -/
  | test (n d : Nat)
  /-- TVAL (R208). -/
  | tval (n d : Nat)
  /-- CANT (R207). -/
  | cant (n : Nat)
  /-- RG_ABORT (R209). -/
  | rgAbort (n a : Nat)
  /-- RG_ABORTS (R209). -/
  | rgAborts (n a : Nat)
  /-- RG_SUSP (R209). -/
  | rgSusp (n : Nat)
  /-- BAR_INIT (R213). -/
  | barInit (sx ix a : Nat)
  /-- BAR_ARR (R215). -/
  | barArr (sx ix d : Nat)
  /-- BAR_WAIT (R214). -/
  | barWait (sx ix a : Nat)
  /-- BAR_ARRW (R215). -/
  | barArrw (sx ix d : Nat)
  /-- CTR_WAIT (R216). -/
  | ctrWait (a d : Nat)
  /-- Q_PUT (R217). -/
  | qPut (q a d : Nat)
  /-- Q_POLL (R217). -/
  | qPoll (q d : Nat)
  /-- Q_POLL_NB (R217). -/
  | qPollNb (q a d : Nat)
  /-- GLD (R250). -/
  | gld (o sx z a d : Nat)
  /-- GST (R250). -/
  | gst (o sx z a d : Nat)
  /-- GLD_HOME (R252). -/
  | gldHome (h k a d : Nat)
  /-- GST_HOME (R252). -/
  | gstHome (h k a d : Nat)
  /-- SLD (R258). -/
  | sld (w b a d : Nat)
  /-- SST (R258). -/
  | sst (w b a d : Nat)
  /-- AMO_ADD (R260). -/
  | amoAdd (m sx w b a d : Nat)
  /-- AMO_AND (R260). -/
  | amoAnd (m sx w b a d : Nat)
  /-- AMO_OR (R260). -/
  | amoOr (m sx w b a d : Nat)
  /-- AMO_XOR (R260). -/
  | amoXor (m sx w b a d : Nat)
  /-- AMO_MIN (R260). -/
  | amoMin (m sx w b a d : Nat)
  /-- AMO_MAX (R260). -/
  | amoMax (m sx w b a d : Nat)
  /-- AMO_MINN (R260). -/
  | amoMinn (m sx w b a d : Nat)
  /-- AMO_MAXN (R260). -/
  | amoMaxn (m sx w b a d : Nat)
  /-- AMO_SWAP (R260). -/
  | amoSwap (m sx w b a d : Nat)
  /-- AMO_CAS (R260). -/
  | amoCas (m sx w b a d : Nat)
  /-- WAIT (R261). -/
  | wait (c w b a d : Nat)
  /-- FENCE (R262). -/
  | fence (sx k : Nat)
  /-- PREF (R264). -/
  | pref (l a : Nat)
  /-- CLN (R264). -/
  | cln (a : Nat)
  /-- INV (R264). -/
  | inv (a : Nat)
  /-- CP_SEND (R312). -/
  | cpSend (r p f e a d : Nat)
  /-- CP_PUT (R312). -/
  | cpPut (r p f e a d : Nat)
  /-- CP_RL (R314). -/
  | cpRl (r p f e a d : Nat)
  /-- CP_HALO (R316). -/
  | cpHalo (r p f e a d : Nat)
  /-- MX_CFG (R317). -/
  | mxCfg (e : Nat)
  /-- MX_MM (R318). -/
  | mxMm (f e a d : Nat)
  /-- MC_POST (R323). -/
  | mcPost (n f e a d : Nat)
  /-- JOB_FENCE (R324). -/
  | jobFence (q : Nat)
  /-- MCL_TAKE (R326). -/
  | mclTake (a d : Nat)
  /-- MCL_READ (R327). -/
  | mclRead (sx a d : Nat)
  /-- MCL_PUSH (R328). -/
  | mclPush (r e a : Nat)
  /-- WS_SW_OUT (R341). -/
  | wsSwOut (a d : Nat)
  /-- WS_SW_IN (R341). -/
  | wsSwIn (a d : Nat)
  /-- ERET (R342). -/
  | eret (a : Nat)
  /-- ERET_KILL (R342). -/
  | eretKill (a : Nat)
  /-- SYSC (R340). -/
  | sysc (n : Nat)
  /-- TRAP (R340). -/
  | trap (n a : Nat)
  /-- TLB_INV (R343). -/
  | tlbInv (m a d : Nat)
  /-- FQ_TAKE (R348). -/
  | fqTake (a d : Nat)
  /-- FQ_TAKE_NB (R348). -/
  | fqTakeNb (a d : Nat)
  /-- FQ_DONE (R349). -/
  | fqDone (n a : Nat)
  /-- WIPE_SEC (R344). -/
  | wipeSec (a d : Nat)
  /-- RET (R107). -/
  | ret
  /-- NOP (R114). -/
  | nop
  /-- NOP_16 (R114). -/
  | nop16
  /-- HALT (R202). -/
  | halt
  /-- HALT_16 (R72). -/
  | halt16
  /-- PAUSE (R202). -/
  | pause
  /-- PAUSE_16 (R72). -/
  | pause16
  /-- YIELD (R204). -/
  | yield
  /-- YIELD_16 (R72). -/
  | yield16
  /-- GANG_END (R211). -/
  | gangEnd
  /-- CANT_ALL (R205). -/
  | cantAll
  /-- RG_END (R209). -/
  | rgEnd
  /-- INV_ALL (R264). -/
  | invAll
  /-- MCL_DONE (R329). -/
  | mclDone
  /-- IDLE (R340). -/
  | idle
  /-- PENDING_TRAP (R338). -/
  | pendingTrap
  /-- WRITE_BUFFER_RETIRE (R38). -/
  | writeBufferRetire
  /-- ROUND_SAMPLE (R181). -/
  | roundSample
  /-- ROUND_RESULT (R181). -/
  | roundResult
  /-- INSTANT_BOUNDARY (R184). -/
  | instantBoundary
  /-- INSTANT_OPEN (R184). -/
  | instantOpen
  /-- INSTANT_LIMIT_EXPIRY (R192). -/
  | instantLimitExpiry
  /-- UNCORRECTABLE_ERROR (R353). -/
  | uncorrectableError
  /-- RECORD_HELD (R198). -/
  | recordHeld
  /-- DISTRIBUTOR_SELECT (R171). -/
  | distributorSelect
  /-- RECORD_BIND (R167). -/
  | recordBind
  /-- CO_LAUNCH_PLACEMENT (R174). -/
  | coLaunchPlacement
  /-- WATCH_ENTRY_RESUME (R170). -/
  | watchEntryResume
  /-- GANG_FORMED (R210). -/
  | gangFormed
  /-- BARRIER_APPLY (R213). -/
  | barrierApply
  /-- BARRIER_RELEASE (R215). -/
  | barrierRelease
  /-- QUEUE_WORD_LAND (R218). -/
  | queueWordLand
  /-- Q_PUT_RETRY (R218). -/
  | qPutRetry
  /-- CTR_READ_RETURN (R216). -/
  | ctrReadReturn
  /-- CTR_WAIT_WAKE (R216). -/
  | ctrWaitWake
  /-- SLOT_FREE_AFTER_DRAIN (R202). -/
  | slotFreeAfterDrain
  /-- IDLE_WAKE (R340). -/
  | idleWake
  /-- DEPOSIT_APPLY (R225). -/
  | depositApply
  /-- GLOBAL_LOAD_ARRIVAL (R251). -/
  | globalLoadArrival
  /-- L1_FILL (R231). -/
  | l1Fill
  /-- PREF_FILL (R264). -/
  | prefFill
  /-- STORE_ACK (R254). -/
  | storeAck
  /-- TAG_ROOM_RESUME (R255). -/
  | tagRoomResume
  /-- LOAD_AFTER_STORE_ACK (R256). -/
  | loadAfterStoreAck
  /-- SO_ACCESS_START (R257). -/
  | soAccessStart
  /-- FENCE_RELEASE_DONE (R262). -/
  | fenceReleaseDone
  /-- WAIT_WAKE_ON_WRITE (R261). -/
  | waitWakeOnWrite
  /-- WAIT_TIMEOUT (R261). -/
  | waitTimeout
  /-- MSHR_REISSUE (R265). -/
  | mshrReissue
  /-- WALK_START (R245). -/
  | walkStart
  /-- TLB_WALK_FILL (R245). -/
  | tlbWalkFill
  /-- MIG_REWALK (R242). -/
  | migRewalk
  /-- DIRTY_REREAD (R241). -/
  | dirtyReread
  /-- TLB_INV_DONE (R246). -/
  | tlbInvDone
  /-- WS_SW_DONE (R341). -/
  | wsSwDone
  /-- JOB_ENTRY_TAKE (R284). -/
  | jobEntryTake
  /-- COPY_SECTOR_TURN (R298). -/
  | copySectorTurn
  /-- COPY_DEPOSIT_LAND (R298). -/
  | copyDepositLand
  /-- COPY_FAULT_POST (R355). -/
  | copyFaultPost
  /-- JOB_COMPLETION (R287). -/
  | jobCompletion
  /-- GATHER_REQUEST_ARRIVE (R296). -/
  | gatherRequestArrive
  /-- GATHER_READ_DONE (R296). -/
  | gatherReadDone
  /-- PIN_GRANTED (R234). -/
  | pinGranted
  /-- TILE_FETCH (R301). -/
  | tileFetch
  /-- TILE_START (R302). -/
  | tileStart
  /-- TILE_DONE (R299). -/
  | tileDone
  /-- BARISTA_RING_ENTER (R304). -/
  | baristaRingEnter
  /-- MCL_READ_DONE (R327). -/
  | mclReadDone
  /-- BARISTA_PUSH_ARRIVE (R328). -/
  | baristaPushArrive
  /-- BARISTA_REQUEST_TIMEOUT (R329). -/
  | baristaRequestTimeout
  /-- BARISTA_START (R331). -/
  | baristaStart
  /-- FAULT_POST (R345). -/
  | faultPost
  /-- FAULT_ENTRY_RESUME (R347). -/
  | faultEntryResume
  /-- FAULT_REQUESTER_RELEASE (R349). -/
  | faultRequesterRelease
  /-- COPY_REPLAY (R289). -/
  | copyReplay
  /-- TOKEN_REQUEST_RECEIVE (R360). -/
  | tokenRequestReceive
  /-- TOKEN_MESSAGE_RECEIVE (R359). -/
  | tokenMessageReceive
  /-- REQUEST_REISSUE (R362). -/
  | requestReissue
  /-- MODULE_ROUND_SAMPLE (R363). -/
  | moduleRoundSample
  /-- MODULE_ROUND_RESULT (R363). -/
  | moduleRoundResult
  /-- ATOMIC_REQUEST_RECEIVE (R369). -/
  | atomicRequestReceive
  /-- NACK_RECEIVE (R373). -/
  | nackReceive
  /-- MOVE (R372). -/
  | move
  /-- RELEASE_MOVED_MARKS (R373). -/
  | releaseMovedMarks
  /-- MOVE_LINE_STEP (R372). -/
  | moveLineStep
  /-- LAUNCH_QUEUE_TAIL (R387). -/
  | launchQueueTail
  /-- LAUNCH_QUEUE_TAKE (R388). -/
  | launchQueueTake
  /-- LAUNCH (R390). -/
  | launch
  /-- RELEASE (R392). -/
  | release
  /-- EVICT (R392). -/
  | evict
  /-- EVICT_SAVE (R351). -/
  | evictSave
  /-- RESTORE (R390). -/
  | restore
  /-- INJECT (R393). -/
  | inject
  /-- DIE_WIPE_COMPLETE (R391). -/
  | dieWipeComplete
  /-- HOST_TLB_INVALIDATE (R386). -/
  | hostTlbInvalidate
  /-- HOST_TLB_INV_DONE (R386). -/
  | hostTlbInvDone
  /-- HOST_DRAM_WRITE (R383). -/
  | hostDramWrite
  /-- HOST_DRAM_READ (R368). -/
  | hostDramRead
  /-- HOST_POOL_WRITE (R384). -/
  | hostPoolWrite
  /-- HOST_POOL_READ (R384). -/
  | hostPoolRead
  /-- HOST_BARISTA_WRITE (R383). -/
  | hostBaristaWrite
  /-- REGISTER_WRITE (R13). -/
  | registerWrite
  /-- PEER_LAUNCH_WRITE (R396). -/
  | peerLaunchWrite
  /-- HALO_WRITE (R396). -/
  | haloWrite
  /-- QP_DOORBELL (R397). -/
  | qpDoorbell
  /-- CQ_DOORBELL (R397). -/
  | cqDoorbell
  /-- SET_MODULE_NUMBER (R394). -/
  | setModuleNumber
  /-- WRITE_ACCESS_CONTROL (R395). -/
  | writeAccessControl
  /-- SET_POWER_LIMIT (R404). -/
  | setPowerLimit
  /-- SET_CLOCK (R405). -/
  | setClock
  /-- CLOCK_CHANGE_DONE (R375). -/
  | clockChangeDone
  /-- READ_TELEMETRY (R398). -/
  | readTelemetry
  /-- GET_MEASUREMENTS (R400). -/
  | getMeasurements
  /-- FIRMWARE_UPDATE (R399). -/
  | firmwareUpdate
  /-- LIFECYCLE_TRANSITION (R401). -/
  | lifecycleTransition
  /-- COLD_RESET (R402). -/
  | coldReset
  /-- WARM_RESET (R402). -/
  | warmReset
  /-- WIPE_COMPLETE (R402). -/
  | wipeComplete
  /-- POWER_ESTIMATE (R404). -/
  | powerEstimate
  /-- UNALLOCATED_OPCODE (R77). -/
  | unallocatedOpcode
  /-- EMUL_MAJOR (R81). -/
  | emulMajor
  /-- FETCH_BEYOND_CODE_IMAGE (R90). -/
  | fetchBeyondCodeImage
  /-- LINK_TRAINING (R381). -/
  | linkTraining
  /-- LINK_UP (R397). -/
  | linkUp
deriving DecidableEq, Repr

end Sys2Proof
end

