-- ==== Sys2Proof/WellFormed.lean ====
section
/-!
DEFINITION. WellFormed: a term of Instr is well formed when every field fits the bits its encoding gives it (03 Tables 3.2 to 3.17,
spec/opcode_table.json). An event has no field and is always well formed.
-/

namespace Sys2Proof

/-- Every field fits its encoding (R67, Tables 3.2 to 3.17). -/
def wellFormed : Instr → Bool
  | .add t b a d => decide (t < 8) && decide (b < 16) && decide (a < 16) && decide (d < 16)
  | .sub t b a d => decide (t < 8) && decide (b < 16) && decide (a < 16) && decide (d < 16)
  | .mul t b a d => decide (t < 8) && decide (b < 16) && decide (a < 16) && decide (d < 16)
  | .mulh t b a d => decide (t < 8) && decide (b < 16) && decide (a < 16) && decide (d < 16)
  | .mulhn t b a d => decide (t < 8) && decide (b < 16) && decide (a < 16) && decide (d < 16)
  | .div t b a d => decide (t < 8) && decide (b < 16) && decide (a < 16) && decide (d < 16)
  | .divn t b a d => decide (t < 8) && decide (b < 16) && decide (a < 16) && decide (d < 16)
  | .rem t b a d => decide (t < 8) && decide (b < 16) && decide (a < 16) && decide (d < 16)
  | .remn t b a d => decide (t < 8) && decide (b < 16) && decide (a < 16) && decide (d < 16)
  | .and t b a d => decide (t < 8) && decide (b < 16) && decide (a < 16) && decide (d < 16)
  | .or t b a d => decide (t < 8) && decide (b < 16) && decide (a < 16) && decide (d < 16)
  | .xor t b a d => decide (t < 8) && decide (b < 16) && decide (a < 16) && decide (d < 16)
  | .andn t b a d => decide (t < 8) && decide (b < 16) && decide (a < 16) && decide (d < 16)
  | .orn t b a d => decide (t < 8) && decide (b < 16) && decide (a < 16) && decide (d < 16)
  | .shl t b a d => decide (t < 8) && decide (b < 16) && decide (a < 16) && decide (d < 16)
  | .shr t b a d => decide (t < 8) && decide (b < 16) && decide (a < 16) && decide (d < 16)
  | .sra t b a d => decide (t < 8) && decide (b < 16) && decide (a < 16) && decide (d < 16)
  | .rotl t b a d => decide (t < 8) && decide (b < 16) && decide (a < 16) && decide (d < 16)
  | .min t b a d => decide (t < 8) && decide (b < 16) && decide (a < 16) && decide (d < 16)
  | .max t b a d => decide (t < 8) && decide (b < 16) && decide (a < 16) && decide (d < 16)
  | .minn t b a d => decide (t < 8) && decide (b < 16) && decide (a < 16) && decide (d < 16)
  | .maxn t b a d => decide (t < 8) && decide (b < 16) && decide (a < 16) && decide (d < 16)
  | .slt t b a d => decide (t < 8) && decide (b < 16) && decide (a < 16) && decide (d < 16)
  | .sltn t b a d => decide (t < 8) && decide (b < 16) && decide (a < 16) && decide (d < 16)
  | .sel c t b a d => decide (c < 16) && decide (t < 8) && decide (b < 16) && decide (a < 16) && decide (d < 16)
  | .clz t a d => decide (t < 8) && decide (a < 16) && decide (d < 16)
  | .ctz t a d => decide (t < 8) && decide (a < 16) && decide (d < 16)
  | .popc t a d => decide (t < 8) && decide (a < 16) && decide (d < 16)
  | .bswap t a d => decide (t < 8) && decide (a < 16) && decide (d < 16)
  | .add16 a d => decide (a < 16) && decide (d < 16) && !(a == 0 && d == 0)
  | .sub16 a d => decide (a < 16) && decide (d < 16)
  | .and16 a d => decide (a < 16) && decide (d < 16)
  | .or16 a d => decide (a < 16) && decide (d < 16)
  | .xor16 a d => decide (a < 16) && decide (d < 16)
  | .shl16 a d => decide (a < 16) && decide (d < 16)
  | .shr16 a d => decide (a < 16) && decide (d < 16)
  | .sra16 a d => decide (a < 16) && decide (d < 16)
  | .mov16 a d => decide (a < 16) && decide (d < 16)
  | .min16 a d => decide (a < 16) && decide (d < 16)
  | .max16 a d => decide (a < 16) && decide (d < 16)
  | .minn16 a d => decide (a < 16) && decide (d < 16)
  | .maxn16 a d => decide (a < 16) && decide (d < 16)
  | .mul16 a d => decide (a < 16) && decide (d < 16)
  | .slt16 a d => decide (a < 16) && decide (d < 16)
  | .sltn16 a d => decide (a < 16) && decide (d < 16)
  | .addImmediate ix a d => decide (ix < 131072) && decide (a < 16) && decide (d < 16)
  | .addImmediate16 ix d => decide (ix < 256) && decide (d < 16)
  | .lih ix d => decide (ix < 131072) && decide (d < 16)
  | .addK t k a d => decide (t < 8) && decide (k < 256) && decide (a < 16) && decide (d < 16)
  | .subK t k a d => decide (t < 8) && decide (k < 256) && decide (a < 16) && decide (d < 16)
  | .mulK t k a d => decide (t < 8) && decide (k < 256) && decide (a < 16) && decide (d < 16)
  | .mulhK t k a d => decide (t < 8) && decide (k < 256) && decide (a < 16) && decide (d < 16)
  | .mulhnK t k a d => decide (t < 8) && decide (k < 256) && decide (a < 16) && decide (d < 16)
  | .divK t k a d => decide (t < 8) && decide (k < 256) && decide (a < 16) && decide (d < 16)
  | .divnK t k a d => decide (t < 8) && decide (k < 256) && decide (a < 16) && decide (d < 16)
  | .remK t k a d => decide (t < 8) && decide (k < 256) && decide (a < 16) && decide (d < 16)
  | .remnK t k a d => decide (t < 8) && decide (k < 256) && decide (a < 16) && decide (d < 16)
  | .andK t k a d => decide (t < 8) && decide (k < 256) && decide (a < 16) && decide (d < 16)
  | .orK t k a d => decide (t < 8) && decide (k < 256) && decide (a < 16) && decide (d < 16)
  | .xorK t k a d => decide (t < 8) && decide (k < 256) && decide (a < 16) && decide (d < 16)
  | .andnK t k a d => decide (t < 8) && decide (k < 256) && decide (a < 16) && decide (d < 16)
  | .ornK t k a d => decide (t < 8) && decide (k < 256) && decide (a < 16) && decide (d < 16)
  | .shlK t k a d => decide (t < 8) && decide (k < 256) && decide (a < 16) && decide (d < 16)
  | .shrK t k a d => decide (t < 8) && decide (k < 256) && decide (a < 16) && decide (d < 16)
  | .sraK t k a d => decide (t < 8) && decide (k < 256) && decide (a < 16) && decide (d < 16)
  | .rotlK t k a d => decide (t < 8) && decide (k < 256) && decide (a < 16) && decide (d < 16)
  | .minK t k a d => decide (t < 8) && decide (k < 256) && decide (a < 16) && decide (d < 16)
  | .maxK t k a d => decide (t < 8) && decide (k < 256) && decide (a < 16) && decide (d < 16)
  | .minnK t k a d => decide (t < 8) && decide (k < 256) && decide (a < 16) && decide (d < 16)
  | .maxnK t k a d => decide (t < 8) && decide (k < 256) && decide (a < 16) && decide (d < 16)
  | .sltK t k a d => decide (t < 8) && decide (k < 256) && decide (a < 16) && decide (d < 16)
  | .sltnK t k a d => decide (t < 8) && decide (k < 256) && decide (a < 16) && decide (d < 16)
  | .ldk t k d => decide (t < 8) && decide (k < 256) && decide (d < 16)
  | .ldk16 k d => decide (k < 256) && decide (d < 16)
  | .bext w p a d => decide (w < 32) && decide (p < 32) && decide (a < 16) && decide (d < 16)
  | .bins w p a d => decide (w < 32) && decide (p < 32) && decide (a < 16) && decide (d < 16)
  | .ld o sx z a d => decide (o < 16384) && decide (sx < 2) && decide (z < 4) && decide (a < 16) && decide (d < 16)
  | .st o sx z a d => decide (o < 16384) && decide (sx < 2) && decide (z < 4) && decide (a < 16) && decide (d < 16)
  | .ld3216 o a d => decide (o < 8) && decide (a < 16) && decide (d < 16)
  | .st3216 o a d => decide (o < 8) && decide (a < 16) && decide (d < 16)
  | .push t a => decide (t < 8) && decide (a < 16)
  | .pop t d => decide (t < 8) && decide (d < 16)
  | .beq o b a => decide (o < 16384) && decide (b < 16) && decide (a < 16)
  | .bne o b a => decide (o < 16384) && decide (b < 16) && decide (a < 16)
  | .blt o b a => decide (o < 16384) && decide (b < 16) && decide (a < 16)
  | .bge o b a => decide (o < 16384) && decide (b < 16) && decide (a < 16)
  | .bltn o b a => decide (o < 16384) && decide (b < 16) && decide (a < 16)
  | .bgen o b a => decide (o < 16384) && decide (b < 16) && decide (a < 16)
  | .bz o a => decide (o < 16384) && decide (a < 16)
  | .bnz o a => decide (o < 16384) && decide (a < 16)
  | .bz16 o a => decide (o < 128) && decide (a < 16)
  | .bnz16 o a => decide (o < 128) && decide (a < 16)
  | .b o => decide (o < 33554432)
  | .b16 o => decide (o < 4096)
  | .call o => decide (o < 33554432)
  | .loop o a => decide (o < 16384) && decide (a < 16)
  | .jr a => decide (a < 16)
  | .jalr a => decide (a < 16)
  | .ctlGet w n d => decide (w < 2) && decide (n < 256) && decide (d < 16)
  | .ctlSet w n a => decide (w < 2) && decide (n < 256) && decide (a < 16)
  | .extSet a d => decide (a < 16) && decide (d < 16)
  | .extGet a d => decide (a < 16) && decide (d < 16)
  | .brk n => decide (n < 256)
  | .vectorPrefix c r z m => decide (c < 16) && decide (r < 8) && decide (z < 2) && decide (m < 8)
  | .vadd v t b a d => decide (v < 8) && decide (t < 16) && decide (b < 16) && decide (a < 16) && decide (d < 16)
  | .vsub v t b a d => decide (v < 8) && decide (t < 16) && decide (b < 16) && decide (a < 16) && decide (d < 16)
  | .vmul t b a d => decide (t < 16) && decide (b < 16) && decide (a < 16) && decide (d < 16)
  | .vfma t b a d => decide (t < 16) && decide (b < 16) && decide (a < 16) && decide (d < 16)
  | .vfms t b a d => decide (t < 16) && decide (b < 16) && decide (a < 16) && decide (d < 16)
  | .vfnma t b a d => decide (t < 16) && decide (b < 16) && decide (a < 16) && decide (d < 16)
  | .vmin t b a d => decide (t < 16) && decide (b < 16) && decide (a < 16) && decide (d < 16)
  | .vmax t b a d => decide (t < 16) && decide (b < 16) && decide (a < 16) && decide (d < 16)
  | .vabs v t a d => decide (v < 8) && decide (t < 16) && decide (a < 16) && decide (d < 16)
  | .vneg v t a d => decide (v < 8) && decide (t < 16) && decide (a < 16) && decide (d < 16)
  | .vand t b a d => decide (t < 16) && decide (b < 16) && decide (a < 16) && decide (d < 16)
  | .vor t b a d => decide (t < 16) && decide (b < 16) && decide (a < 16) && decide (d < 16)
  | .vxor t b a d => decide (t < 16) && decide (b < 16) && decide (a < 16) && decide (d < 16)
  | .vandn t b a d => decide (t < 16) && decide (b < 16) && decide (a < 16) && decide (d < 16)
  | .vshl v t b a d => decide (v < 8) && decide (t < 16) && decide (b < 16) && decide (a < 16) && decide (d < 16)
  | .vshr v t b a d => decide (v < 8) && decide (t < 16) && decide (b < 16) && decide (a < 16) && decide (d < 16)
  | .vsra v t b a d => decide (v < 8) && decide (t < 16) && decide (b < 16) && decide (a < 16) && decide (d < 16)
  | .vcmp c t b a d => decide (c < 8) && decide (t < 16) && decide (b < 16) && decide (a < 16) && decide (d < 8)
  | .vsel m t b a d => decide (m < 8) && decide (t < 16) && decide (b < 16) && decide (a < 16) && decide (d < 16)
  | .vcvt p sx t b a d => decide (p < 4) && decide (sx < 2) && decide (t < 16) && decide (b < 16) && decide (a < 16) && decide (d < 16)
  | .vmov t a d => decide (t < 16) && decide (a < 16) && decide (d < 16)
  | .vsplat t a d => decide (t < 16) && decide (a < 16) && decide (d < 16)
  | .vbcast h t j a d => decide (h < 2) && decide (t < 16) && decide (j < 16) && decide (a < 16) && decide (d < 16)
  | .vperm t b a d => decide (t < 16) && decide (b < 16) && decide (a < 16) && decide (d < 16)
  | .vrot h t j a d => decide (h < 2) && decide (t < 16) && decide (j < 16) && decide (a < 16) && decide (d < 16)
  | .vzip v t b a d => decide (v < 8) && decide (t < 16) && decide (b < 16) && decide (a < 16) && decide (d < 16)
  | .vunzip v t b a d => decide (v < 8) && decide (t < 16) && decide (b < 16) && decide (a < 16) && decide (d < 16)
  | .vred v t a d => decide (v < 8) && decide (t < 16) && decide (a < 16) && decide (d < 16)
  | .vdot t b a d => decide (t < 16) && decide (b < 16) && decide (a < 16) && decide (d < 16)
  | .vld h t o a d => decide (h < 8) && decide (t < 16) && decide (o < 16) && decide (a < 16) && decide (d < 16)
  | .vst h t o a d => decide (h < 8) && decide (t < 16) && decide (o < 16) && decide (a < 16) && decide (d < 16)
  | .vldp t a d => decide (t < 16) && decide (a < 16) && decide (d < 16)
  | .vstp t a d => decide (t < 16) && decide (a < 16) && decide (d < 16)
  | .vgath t b a d => decide (t < 16) && decide (b < 16) && decide (a < 16) && decide (d < 16)
  | .vscat t b a d => decide (t < 16) && decide (b < 16) && decide (a < 16) && decide (d < 16)
  | .vfnExp2 t a d => decide (t < 16) && decide (a < 16) && decide (d < 16)
  | .vfnExp t a d => decide (t < 16) && decide (a < 16) && decide (d < 16)
  | .vfnLog2 t a d => decide (t < 16) && decide (a < 16) && decide (d < 16)
  | .vfnLog t a d => decide (t < 16) && decide (a < 16) && decide (d < 16)
  | .vfnRcp t a d => decide (t < 16) && decide (a < 16) && decide (d < 16)
  | .vfnRsqrt t a d => decide (t < 16) && decide (a < 16) && decide (d < 16)
  | .vfnSqrt t a d => decide (t < 16) && decide (a < 16) && decide (d < 16)
  | .vfnSin t a d => decide (t < 16) && decide (a < 16) && decide (d < 16)
  | .vfnCos t a d => decide (t < 16) && decide (a < 16) && decide (d < 16)
  | .vfnTanh t a d => decide (t < 16) && decide (a < 16) && decide (d < 16)
  | .vfnSigmoid t a d => decide (t < 16) && decide (a < 16) && decide (d < 16)
  | .vfnErf t a d => decide (t < 16) && decide (a < 16) && decide (d < 16)
  | .vexpr e t b a d => decide (e < 8) && decide (t < 16) && decide (b < 16) && decide (a < 16) && decide (d < 16)
  | .sopAdd v t b a d => decide (v < 8) && decide (t < 16) && decide (b < 4) && decide (a < 4) && decide (d < 4)
  | .sopSub v t b a d => decide (v < 8) && decide (t < 16) && decide (b < 4) && decide (a < 4) && decide (d < 4)
  | .sopMul t b a d => decide (t < 16) && decide (b < 4) && decide (a < 4) && decide (d < 4)
  | .sopFma w t b a d => decide (w < 8) && decide (t < 16) && decide (b < 4) && decide (a < 4) && decide (d < 4)
  | .sopMin t b a d => decide (t < 16) && decide (b < 4) && decide (a < 4) && decide (d < 4)
  | .sopMax t b a d => decide (t < 16) && decide (b < 4) && decide (a < 4) && decide (d < 4)
  | .sopCvt sx t b a d => decide (sx < 2) && decide (t < 16) && decide (b < 16) && decide (a < 4) && decide (d < 4)
  | .mand b a d => decide (b < 8) && decide (a < 8) && decide (d < 8)
  | .mor b a d => decide (b < 8) && decide (a < 8) && decide (d < 8)
  | .mxor b a d => decide (b < 8) && decide (a < 8) && decide (d < 8)
  | .mnot a d => decide (a < 8) && decide (d < 8)
  | .mpop t a d => decide (t < 16) && decide (a < 8) && decide (d < 16)
  | .mfirst t a d => decide (t < 16) && decide (a < 8) && decide (d < 16)
  | .mset a d => decide (a < 16) && decide (d < 8)
  | .ckMk m t a d => decide (m < 16) && decide (t < 8) && decide (a < 16) && decide (d < 8)
  | .ckAx t ix a d => decide (t < 8) && decide (ix < 16) && decide (a < 8) && decide (d < 16)
  | .ckAdd m t b a d => decide (m < 16) && decide (t < 8) && decide (b < 8) && decide (a < 8) && decide (d < 8)
  | .ckSub m t b a d => decide (m < 16) && decide (t < 8) && decide (b < 8) && decide (a < 8) && decide (d < 8)
  | .ckCmp t b a d => decide (t < 8) && decide (b < 8) && decide (a < 8) && decide (d < 16)
  | .ckDom t b a d => decide (t < 8) && decide (b < 8) && decide (a < 8) && decide (d < 16)
  | .ckInbox t b a d => decide (t < 8) && decide (b < 8) && decide (a < 8) && decide (d < 16)
  | .ckNext m t b a d => decide (m < 16) && decide (t < 8) && decide (b < 8) && decide (a < 8) && decide (d < 8)
  | .ckPrev m t b a d => decide (m < 16) && decide (t < 8) && decide (b < 8) && decide (a < 8) && decide (d < 8)
  | .ckClip m t b a d => decide (m < 16) && decide (t < 8) && decide (b < 8) && decide (a < 8) && decide (d < 8)
  | .ckChk t a d => decide (t < 8) && decide (a < 8) && decide (d < 16)
  | .ckSplit m t b a d => decide (m < 16) && decide (t < 8) && decide (b < 8) && decide (a < 8) && decide (d < 16)
  | .vckAdd m t b a d => decide (m < 8) && decide (t < 8) && decide (b < 16) && decide (a < 16) && decide (d < 16)
  | .spawn a d => decide (a < 16) && decide (d < 16)
  | .spawnBox f c b a d => decide (f < 8) && decide (c < 2) && decide (b < 8) && decide (a < 16) && decide (d < 16)
  | .park a d => decide (a < 16) && decide (d < 16)
  | .pauseW a d => decide (a < 16) && decide (d < 8)
  | .gangForm n d => decide (n < 256) && decide (d < 16)
  | .emit n => decide (n < 256)
  | .emit16 n => decide (n < 256)
  | .emitV n a => decide (n < 256) && decide (a < 16)
  | .test n d => decide (n < 256) && decide (d < 16)
  | .tval n d => decide (n < 256) && decide (d < 16)
  | .cant n => decide (n < 256)
  | .rgAbort n a => decide (n < 256) && decide (a < 16)
  | .rgAborts n a => decide (n < 256) && decide (a < 16)
  | .rgSusp n => decide (n < 256)
  | .barInit sx ix a => decide (sx < 2) && decide (ix < 16) && decide (a < 16)
  | .barArr sx ix d => decide (sx < 2) && decide (ix < 16) && decide (d < 16)
  | .barWait sx ix a => decide (sx < 2) && decide (ix < 16) && decide (a < 16)
  | .barArrw sx ix d => decide (sx < 2) && decide (ix < 16) && decide (d < 16)
  | .ctrWait a d => decide (a < 16) && decide (d < 8)
  | .qPut q a d => decide (q < 4) && decide (a < 16) && decide (d < 16)
  | .qPoll q d => decide (q < 4) && decide (d < 16)
  | .qPollNb q a d => decide (q < 4) && decide (a < 16) && decide (d < 16)
  | .gld o sx z a d => decide (o < 16384) && decide (sx < 2) && decide (z < 4) && decide (a < 8) && decide (d < 16)
  | .gst o sx z a d => decide (o < 16384) && decide (sx < 2) && decide (z < 4) && decide (a < 8) && decide (d < 16)
  | .gldHome h k a d => decide (h < 64) && decide (k < 7) && decide (a < 8) && decide (d < 16)
  | .gstHome h k a d => decide (h < 64) && decide (k < 7) && decide (a < 8) && decide (d < 16)
  | .sld w b a d => decide (w < 2) && decide (b < 16) && decide (a < 16) && decide (d < 16)
  | .sst w b a d => decide (w < 2) && decide (b < 16) && decide (a < 16) && decide (d < 16)
  | .amoAdd m sx w b a d => decide (m < 16) && decide (sx < 2) && decide (w < 2) && decide (b < 16) && decide (a < 16) && decide (d < 16)
  | .amoAnd m sx w b a d => decide (m < 16) && decide (sx < 2) && decide (w < 2) && decide (b < 16) && decide (a < 16) && decide (d < 16)
  | .amoOr m sx w b a d => decide (m < 16) && decide (sx < 2) && decide (w < 2) && decide (b < 16) && decide (a < 16) && decide (d < 16)
  | .amoXor m sx w b a d => decide (m < 16) && decide (sx < 2) && decide (w < 2) && decide (b < 16) && decide (a < 16) && decide (d < 16)
  | .amoMin m sx w b a d => decide (m < 16) && decide (sx < 2) && decide (w < 2) && decide (b < 16) && decide (a < 16) && decide (d < 16)
  | .amoMax m sx w b a d => decide (m < 16) && decide (sx < 2) && decide (w < 2) && decide (b < 16) && decide (a < 16) && decide (d < 16)
  | .amoMinn m sx w b a d => decide (m < 16) && decide (sx < 2) && decide (w < 2) && decide (b < 16) && decide (a < 16) && decide (d < 16)
  | .amoMaxn m sx w b a d => decide (m < 16) && decide (sx < 2) && decide (w < 2) && decide (b < 16) && decide (a < 16) && decide (d < 16)
  | .amoSwap m sx w b a d => decide (m < 16) && decide (sx < 2) && decide (w < 2) && decide (b < 16) && decide (a < 16) && decide (d < 16)
  | .amoCas m sx w b a d => decide (m < 16) && decide (sx < 2) && decide (w < 2) && decide (b < 16) && decide (a < 16) && decide (d < 16)
  | .wait c w b a d => decide (c < 16) && decide (w < 2) && decide (b < 16) && decide (a < 8) && decide (d < 16)
  | .fence sx k => decide (sx < 8) && decide (k < 4)
  | .pref l a => decide (l < 2) && decide (a < 8)
  | .cln a => decide (a < 8)
  | .inv a => decide (a < 8)
  | .cpSend r p f e a d => decide (r < 2) && decide (p < 2) && decide (f < 2) && decide (e < 8) && decide (a < 16) && decide (d < 16)
  | .cpPut r p f e a d => decide (r < 2) && decide (p < 2) && decide (f < 2) && decide (e < 8) && decide (a < 16) && decide (d < 16)
  | .cpRl r p f e a d => decide (r < 2) && decide (p < 2) && decide (f < 2) && decide (e < 8) && decide (a < 16) && decide (d < 16)
  | .cpHalo r p f e a d => decide (r < 2) && decide (p < 2) && decide (f < 2) && decide (e < 8) && decide (a < 16) && decide (d < 16)
  | .mxCfg e => decide (e < 8)
  | .mxMm f e a d => decide (f < 2) && decide (e < 8) && decide (a < 16) && decide (d < 16)
  | .mcPost n f e a d => decide (n < 8) && decide (f < 2) && decide (e < 8) && decide (a < 16) && decide (d < 16)
  | .jobFence q => decide (q < 8)
  | .mclTake a d => decide (a < 16) && decide (d < 16)
  | .mclRead sx a d => decide (sx < 4) && decide (a < 8) && decide (d < 16)
  | .mclPush r e a => decide (r < 128) && decide (e < 8) && decide (a < 16)
  | .wsSwOut a d => decide (a < 16) && decide (d < 8)
  | .wsSwIn a d => decide (a < 16) && decide (d < 8)
  | .eret a => decide (a < 16)
  | .eretKill a => decide (a < 16)
  | .sysc n => decide (n < 256)
  | .trap n a => decide (n < 256) && decide (a < 16)
  | .tlbInv m a d => decide (m < 4) && decide (a < 8) && decide (d < 8)
  | .fqTake a d => decide (a < 16) && decide (d < 16)
  | .fqTakeNb a d => decide (a < 16) && decide (d < 16)
  | .fqDone n a => decide (n < 256) && decide (a < 16)
  | .wipeSec a d => decide (a < 16) && decide (d < 16)
  | .ret => true
  | .nop => true
  | .nop16 => true
  | .halt => true
  | .halt16 => true
  | .pause => true
  | .pause16 => true
  | .yield => true
  | .yield16 => true
  | .gangEnd => true
  | .cantAll => true
  | .rgEnd => true
  | .invAll => true
  | .mclDone => true
  | .idle => true
  | .pendingTrap => true
  | .writeBufferRetire => true
  | .roundSample => true
  | .roundResult => true
  | .instantBoundary => true
  | .instantOpen => true
  | .instantLimitExpiry => true
  | .uncorrectableError => true
  | .recordHeld => true
  | .distributorSelect => true
  | .recordBind => true
  | .coLaunchPlacement => true
  | .watchEntryResume => true
  | .gangFormed => true
  | .barrierApply => true
  | .barrierRelease => true
  | .queueWordLand => true
  | .qPutRetry => true
  | .ctrReadReturn => true
  | .ctrWaitWake => true
  | .slotFreeAfterDrain => true
  | .idleWake => true
  | .depositApply => true
  | .globalLoadArrival => true
  | .l1Fill => true
  | .prefFill => true
  | .storeAck => true
  | .tagRoomResume => true
  | .loadAfterStoreAck => true
  | .soAccessStart => true
  | .fenceReleaseDone => true
  | .waitWakeOnWrite => true
  | .waitTimeout => true
  | .mshrReissue => true
  | .walkStart => true
  | .tlbWalkFill => true
  | .migRewalk => true
  | .dirtyReread => true
  | .tlbInvDone => true
  | .wsSwDone => true
  | .jobEntryTake => true
  | .copySectorTurn => true
  | .copyDepositLand => true
  | .copyFaultPost => true
  | .jobCompletion => true
  | .gatherRequestArrive => true
  | .gatherReadDone => true
  | .pinGranted => true
  | .tileFetch => true
  | .tileStart => true
  | .tileDone => true
  | .baristaRingEnter => true
  | .mclReadDone => true
  | .baristaPushArrive => true
  | .baristaRequestTimeout => true
  | .baristaStart => true
  | .faultPost => true
  | .faultEntryResume => true
  | .faultRequesterRelease => true
  | .copyReplay => true
  | .tokenRequestReceive => true
  | .tokenMessageReceive => true
  | .requestReissue => true
  | .moduleRoundSample => true
  | .moduleRoundResult => true
  | .atomicRequestReceive => true
  | .nackReceive => true
  | .move => true
  | .releaseMovedMarks => true
  | .moveLineStep => true
  | .launchQueueTail => true
  | .launchQueueTake => true
  | .launch => true
  | .release => true
  | .evict => true
  | .evictSave => true
  | .restore => true
  | .inject => true
  | .dieWipeComplete => true
  | .hostTlbInvalidate => true
  | .hostTlbInvDone => true
  | .hostDramWrite => true
  | .hostDramRead => true
  | .hostPoolWrite => true
  | .hostPoolRead => true
  | .hostBaristaWrite => true
  | .registerWrite => true
  | .peerLaunchWrite => true
  | .haloWrite => true
  | .qpDoorbell => true
  | .cqDoorbell => true
  | .setModuleNumber => true
  | .writeAccessControl => true
  | .setPowerLimit => true
  | .setClock => true
  | .clockChangeDone => true
  | .readTelemetry => true
  | .getMeasurements => true
  | .firmwareUpdate => true
  | .lifecycleTransition => true
  | .coldReset => true
  | .warmReset => true
  | .wipeComplete => true
  | .powerEstimate => true
  | .unallocatedOpcode => true
  | .emulMajor => true
  | .fetchBeyondCodeImage => true
  | .linkTraining => true
  | .linkUp => true

end Sys2Proof
end

