-- ==== Sys2Proof/Decode.lean ====
section
/-!
DEFINITION. Decode: the decoder, total on any bytes (03 R65 to R81), and after it the encoder, both written from the encodings of
03 Tables 3.2 to 3.17 as spec/opcode_table.json lists them. A word that names no instruction decodes to the row UNALLOCATED_OPCODE
or EMUL_MAJOR; a word of an instruction whose unused field is not zero is rejected by that instruction's name.
-/

namespace Sys2Proof

/-- Bits [lo + n - 1 : lo] of a word (R12). -/
def fld (w lo n : Nat) : Nat := w / 2 ^ lo % 2 ^ n

/-- Why bytes give no instruction: checks 3 and 5 of Table 3.1 that the words themselves decide, or too few bytes. -/
inductive DecodeError where
  /-- An unused field of the named row is not zero: the device takes ILLEG subcode 2 (R67). -/
  | reservedField (mnemonic : String)
  /-- A used field of the named row holds a value its entry refuses: ILLEG subcode 4 (R67). -/
  | badOperand (mnemonic : String)
  /-- Fewer bytes than the instruction has: the device fetches no further (R90). -/
  | tooShort
deriving DecidableEq, Repr

/-- One row of the opcode table: the fields that name it, the fields that must hold one value, the unused fields, the operands. -/
structure Row where
  name : String
  /-- (lowest bit, width, value): the function code fields. -/
  op : List (Nat × Nat × Nat)
  /-- (lowest bit, width, value): any other value is a bad operand combination. -/
  must : List (Nat × Nat × Nat)
  /-- (lowest bit, width): unused, reserved as zero. -/
  res : List (Nat × Nat)
  build : Nat → Instr

/-- Every listed field of the word holds its value. -/
def holds (fs : List (Nat × Nat × Nat)) (w : Nat) : Bool := fs.all fun f => fld w f.1 f.2.1 == f.2.2

/-- The 16-bit forms of op3 0. -/
def rows16_00 : List Row :=
  [ ⟨"ADD_16", [(12, 4, 0)], [], [], fun w => .add16 (fld w 8 4) (fld w 4 4)⟩,
    ⟨"SUB_16", [(12, 4, 1)], [], [], fun w => .sub16 (fld w 8 4) (fld w 4 4)⟩,
    ⟨"AND_16", [(12, 4, 2)], [], [], fun w => .and16 (fld w 8 4) (fld w 4 4)⟩,
    ⟨"OR_16", [(12, 4, 3)], [], [], fun w => .or16 (fld w 8 4) (fld w 4 4)⟩,
    ⟨"XOR_16", [(12, 4, 4)], [], [], fun w => .xor16 (fld w 8 4) (fld w 4 4)⟩,
    ⟨"SHL_16", [(12, 4, 5)], [], [], fun w => .shl16 (fld w 8 4) (fld w 4 4)⟩,
    ⟨"SHR_16", [(12, 4, 6)], [], [], fun w => .shr16 (fld w 8 4) (fld w 4 4)⟩,
    ⟨"SRA_16", [(12, 4, 7)], [], [], fun w => .sra16 (fld w 8 4) (fld w 4 4)⟩,
    ⟨"MOV_16", [(12, 4, 8)], [], [], fun w => .mov16 (fld w 8 4) (fld w 4 4)⟩,
    ⟨"MIN_16", [(12, 4, 9)], [], [], fun w => .min16 (fld w 8 4) (fld w 4 4)⟩,
    ⟨"MAX_16", [(12, 4, 10)], [], [], fun w => .max16 (fld w 8 4) (fld w 4 4)⟩,
    ⟨"MINN_16", [(12, 4, 11)], [], [], fun w => .minn16 (fld w 8 4) (fld w 4 4)⟩,
    ⟨"MAXN_16", [(12, 4, 12)], [], [], fun w => .maxn16 (fld w 8 4) (fld w 4 4)⟩,
    ⟨"MUL_16", [(12, 4, 13)], [], [], fun w => .mul16 (fld w 8 4) (fld w 4 4)⟩,
    ⟨"SLT_16", [(12, 4, 14)], [], [], fun w => .slt16 (fld w 8 4) (fld w 4 4)⟩,
    ⟨"SLTN_16", [(12, 4, 15)], [], [], fun w => .sltn16 (fld w 8 4) (fld w 4 4)⟩ ]

/-- The 16-bit forms of op3 1. -/
def rows16_01 : List Row :=
  [ ⟨"LDK_16", [], [], [], fun w => .ldk16 (fld w 8 8) (fld w 4 4)⟩ ]

/-- The 16-bit forms of op3 2. -/
def rows16_02 : List Row :=
  [ ⟨"ADD_IMMEDIATE_16", [], [], [], fun w => .addImmediate16 (fld w 8 8) (fld w 4 4)⟩ ]

/-- The 16-bit forms of op3 3. -/
def rows16_03 : List Row :=
  [ ⟨"BZ_16", [(8, 1, 0)], [], [], fun w => .bz16 (fld w 9 7) (fld w 4 4)⟩,
    ⟨"BNZ_16", [(8, 1, 1)], [], [], fun w => .bnz16 (fld w 9 7) (fld w 4 4)⟩ ]

/-- The 16-bit forms of op3 4. -/
def rows16_04 : List Row :=
  [ ⟨"B_16", [], [], [], fun w => .b16 (fld w 4 12)⟩ ]

/-- The 16-bit forms of op3 5. -/
def rows16_05 : List Row :=
  [ ⟨"LD_32_16", [(12, 1, 0)], [], [], fun w => .ld3216 (fld w 13 3) (fld w 8 4) (fld w 4 4)⟩,
    ⟨"ST_32_16", [(12, 1, 1)], [], [], fun w => .st3216 (fld w 13 3) (fld w 8 4) (fld w 4 4)⟩ ]

/-- The 16-bit forms of op3 6. -/
def rows16_06 : List Row :=
  [ ⟨"EMIT_16", [(4, 4, 4)], [], [], fun w => .emit16 (fld w 8 8)⟩,
    ⟨"NOP_16", [(4, 4, 0)], [], [(8, 8)], fun _ => .nop16⟩,
    ⟨"HALT_16", [(4, 4, 2)], [], [(8, 8)], fun _ => .halt16⟩,
    ⟨"PAUSE_16", [(4, 4, 1)], [], [(8, 8)], fun _ => .pause16⟩,
    ⟨"YIELD_16", [(4, 4, 3)], [], [(8, 8)], fun _ => .yield16⟩ ]

/-- Major 0x01. -/
def rows32_01 : List Row :=
  [ ⟨"ADD", [(19, 6, 0)], [], [(28, 4)], fun w => .add (fld w 25 3) (fld w 15 4) (fld w 11 4) (fld w 7 4)⟩,
    ⟨"SUB", [(19, 6, 1)], [], [(28, 4)], fun w => .sub (fld w 25 3) (fld w 15 4) (fld w 11 4) (fld w 7 4)⟩,
    ⟨"MUL", [(19, 6, 2)], [], [(28, 4)], fun w => .mul (fld w 25 3) (fld w 15 4) (fld w 11 4) (fld w 7 4)⟩,
    ⟨"MULH", [(19, 6, 3)], [], [(28, 4)], fun w => .mulh (fld w 25 3) (fld w 15 4) (fld w 11 4) (fld w 7 4)⟩,
    ⟨"MULHN", [(19, 6, 4)], [], [(28, 4)], fun w => .mulhn (fld w 25 3) (fld w 15 4) (fld w 11 4) (fld w 7 4)⟩,
    ⟨"DIV", [(19, 6, 5)], [], [(28, 4)], fun w => .div (fld w 25 3) (fld w 15 4) (fld w 11 4) (fld w 7 4)⟩,
    ⟨"DIVN", [(19, 6, 6)], [], [(28, 4)], fun w => .divn (fld w 25 3) (fld w 15 4) (fld w 11 4) (fld w 7 4)⟩,
    ⟨"REM", [(19, 6, 7)], [], [(28, 4)], fun w => .rem (fld w 25 3) (fld w 15 4) (fld w 11 4) (fld w 7 4)⟩,
    ⟨"REMN", [(19, 6, 8)], [], [(28, 4)], fun w => .remn (fld w 25 3) (fld w 15 4) (fld w 11 4) (fld w 7 4)⟩,
    ⟨"AND", [(19, 6, 9)], [], [(28, 4)], fun w => .and (fld w 25 3) (fld w 15 4) (fld w 11 4) (fld w 7 4)⟩,
    ⟨"OR", [(19, 6, 10)], [], [(28, 4)], fun w => .or (fld w 25 3) (fld w 15 4) (fld w 11 4) (fld w 7 4)⟩,
    ⟨"XOR", [(19, 6, 11)], [], [(28, 4)], fun w => .xor (fld w 25 3) (fld w 15 4) (fld w 11 4) (fld w 7 4)⟩,
    ⟨"ANDN", [(19, 6, 12)], [], [(28, 4)], fun w => .andn (fld w 25 3) (fld w 15 4) (fld w 11 4) (fld w 7 4)⟩,
    ⟨"ORN", [(19, 6, 13)], [], [(28, 4)], fun w => .orn (fld w 25 3) (fld w 15 4) (fld w 11 4) (fld w 7 4)⟩,
    ⟨"SHL", [(19, 6, 14)], [], [(28, 4)], fun w => .shl (fld w 25 3) (fld w 15 4) (fld w 11 4) (fld w 7 4)⟩,
    ⟨"SHR", [(19, 6, 15)], [], [(28, 4)], fun w => .shr (fld w 25 3) (fld w 15 4) (fld w 11 4) (fld w 7 4)⟩,
    ⟨"SRA", [(19, 6, 16)], [], [(28, 4)], fun w => .sra (fld w 25 3) (fld w 15 4) (fld w 11 4) (fld w 7 4)⟩,
    ⟨"ROTL", [(19, 6, 17)], [], [(28, 4)], fun w => .rotl (fld w 25 3) (fld w 15 4) (fld w 11 4) (fld w 7 4)⟩,
    ⟨"MIN", [(19, 6, 18)], [], [(28, 4)], fun w => .min (fld w 25 3) (fld w 15 4) (fld w 11 4) (fld w 7 4)⟩,
    ⟨"MAX", [(19, 6, 19)], [], [(28, 4)], fun w => .max (fld w 25 3) (fld w 15 4) (fld w 11 4) (fld w 7 4)⟩,
    ⟨"MINN", [(19, 6, 20)], [], [(28, 4)], fun w => .minn (fld w 25 3) (fld w 15 4) (fld w 11 4) (fld w 7 4)⟩,
    ⟨"MAXN", [(19, 6, 21)], [], [(28, 4)], fun w => .maxn (fld w 25 3) (fld w 15 4) (fld w 11 4) (fld w 7 4)⟩,
    ⟨"SLT", [(19, 6, 22)], [], [(28, 4)], fun w => .slt (fld w 25 3) (fld w 15 4) (fld w 11 4) (fld w 7 4)⟩,
    ⟨"SLTN", [(19, 6, 23)], [], [(28, 4)], fun w => .sltn (fld w 25 3) (fld w 15 4) (fld w 11 4) (fld w 7 4)⟩,
    ⟨"SEL", [(19, 6, 24)], [], [], fun w => .sel (fld w 28 4) (fld w 25 3) (fld w 15 4) (fld w 11 4) (fld w 7 4)⟩,
    ⟨"CLZ", [(19, 6, 25)], [], [(15, 4), (28, 4)], fun w => .clz (fld w 25 3) (fld w 11 4) (fld w 7 4)⟩,
    ⟨"CTZ", [(19, 6, 26)], [], [(15, 4), (28, 4)], fun w => .ctz (fld w 25 3) (fld w 11 4) (fld w 7 4)⟩,
    ⟨"POPC", [(19, 6, 27)], [], [(15, 4), (28, 4)], fun w => .popc (fld w 25 3) (fld w 11 4) (fld w 7 4)⟩,
    ⟨"BSWAP", [(19, 6, 28)], [], [(15, 4), (28, 4)], fun w => .bswap (fld w 25 3) (fld w 11 4) (fld w 7 4)⟩ ]

/-- Major 0x02. -/
def rows32_02 : List Row :=
  [ ⟨"ADD_IMMEDIATE", [], [], [], fun w => .addImmediate (fld w 15 17) (fld w 11 4) (fld w 7 4)⟩ ]

/-- Major 0x03. -/
def rows32_03 : List Row :=
  [ ⟨"LIH", [], [], [(11, 4)], fun w => .lih (fld w 15 17) (fld w 7 4)⟩ ]

/-- Major 0x04. -/
def rows32_04 : List Row :=
  [ ⟨"ADD_K", [(23, 6, 0)], [], [], fun w => .addK (fld w 29 3) (fld w 15 8) (fld w 11 4) (fld w 7 4)⟩,
    ⟨"SUB_K", [(23, 6, 1)], [], [], fun w => .subK (fld w 29 3) (fld w 15 8) (fld w 11 4) (fld w 7 4)⟩,
    ⟨"MUL_K", [(23, 6, 2)], [], [], fun w => .mulK (fld w 29 3) (fld w 15 8) (fld w 11 4) (fld w 7 4)⟩,
    ⟨"MULH_K", [(23, 6, 3)], [], [], fun w => .mulhK (fld w 29 3) (fld w 15 8) (fld w 11 4) (fld w 7 4)⟩,
    ⟨"MULHN_K", [(23, 6, 4)], [], [], fun w => .mulhnK (fld w 29 3) (fld w 15 8) (fld w 11 4) (fld w 7 4)⟩,
    ⟨"DIV_K", [(23, 6, 5)], [], [], fun w => .divK (fld w 29 3) (fld w 15 8) (fld w 11 4) (fld w 7 4)⟩,
    ⟨"DIVN_K", [(23, 6, 6)], [], [], fun w => .divnK (fld w 29 3) (fld w 15 8) (fld w 11 4) (fld w 7 4)⟩,
    ⟨"REM_K", [(23, 6, 7)], [], [], fun w => .remK (fld w 29 3) (fld w 15 8) (fld w 11 4) (fld w 7 4)⟩,
    ⟨"REMN_K", [(23, 6, 8)], [], [], fun w => .remnK (fld w 29 3) (fld w 15 8) (fld w 11 4) (fld w 7 4)⟩,
    ⟨"AND_K", [(23, 6, 9)], [], [], fun w => .andK (fld w 29 3) (fld w 15 8) (fld w 11 4) (fld w 7 4)⟩,
    ⟨"OR_K", [(23, 6, 10)], [], [], fun w => .orK (fld w 29 3) (fld w 15 8) (fld w 11 4) (fld w 7 4)⟩,
    ⟨"XOR_K", [(23, 6, 11)], [], [], fun w => .xorK (fld w 29 3) (fld w 15 8) (fld w 11 4) (fld w 7 4)⟩,
    ⟨"ANDN_K", [(23, 6, 12)], [], [], fun w => .andnK (fld w 29 3) (fld w 15 8) (fld w 11 4) (fld w 7 4)⟩,
    ⟨"ORN_K", [(23, 6, 13)], [], [], fun w => .ornK (fld w 29 3) (fld w 15 8) (fld w 11 4) (fld w 7 4)⟩,
    ⟨"SHL_K", [(23, 6, 14)], [], [], fun w => .shlK (fld w 29 3) (fld w 15 8) (fld w 11 4) (fld w 7 4)⟩,
    ⟨"SHR_K", [(23, 6, 15)], [], [], fun w => .shrK (fld w 29 3) (fld w 15 8) (fld w 11 4) (fld w 7 4)⟩,
    ⟨"SRA_K", [(23, 6, 16)], [], [], fun w => .sraK (fld w 29 3) (fld w 15 8) (fld w 11 4) (fld w 7 4)⟩,
    ⟨"ROTL_K", [(23, 6, 17)], [], [], fun w => .rotlK (fld w 29 3) (fld w 15 8) (fld w 11 4) (fld w 7 4)⟩,
    ⟨"MIN_K", [(23, 6, 18)], [], [], fun w => .minK (fld w 29 3) (fld w 15 8) (fld w 11 4) (fld w 7 4)⟩,
    ⟨"MAX_K", [(23, 6, 19)], [], [], fun w => .maxK (fld w 29 3) (fld w 15 8) (fld w 11 4) (fld w 7 4)⟩,
    ⟨"MINN_K", [(23, 6, 20)], [], [], fun w => .minnK (fld w 29 3) (fld w 15 8) (fld w 11 4) (fld w 7 4)⟩,
    ⟨"MAXN_K", [(23, 6, 21)], [], [], fun w => .maxnK (fld w 29 3) (fld w 15 8) (fld w 11 4) (fld w 7 4)⟩,
    ⟨"SLT_K", [(23, 6, 22)], [], [], fun w => .sltK (fld w 29 3) (fld w 15 8) (fld w 11 4) (fld w 7 4)⟩,
    ⟨"SLTN_K", [(23, 6, 23)], [], [], fun w => .sltnK (fld w 29 3) (fld w 15 8) (fld w 11 4) (fld w 7 4)⟩,
    ⟨"LDK", [(23, 6, 63)], [], [(11, 4)], fun w => .ldk (fld w 29 3) (fld w 15 8) (fld w 7 4)⟩ ]

/-- Major 0x05. -/
def rows32_05 : List Row :=
  [ ⟨"BEXT", [(31, 1, 0)], [], [(25, 6)], fun w => .bext (fld w 20 5) (fld w 15 5) (fld w 11 4) (fld w 7 4)⟩,
    ⟨"BINS", [(31, 1, 1)], [], [(25, 6)], fun w => .bins (fld w 20 5) (fld w 15 5) (fld w 11 4) (fld w 7 4)⟩ ]

/-- Major 0x08. -/
def rows32_08 : List Row :=
  [ ⟨"LD", [], [], [], fun w => .ld (fld w 18 14) (fld w 17 1) (fld w 15 2) (fld w 11 4) (fld w 7 4)⟩ ]

/-- Major 0x09. -/
def rows32_09 : List Row :=
  [ ⟨"ST", [], [], [], fun w => .st (fld w 18 14) (fld w 17 1) (fld w 15 2) (fld w 11 4) (fld w 7 4)⟩ ]

/-- Major 0x0A. -/
def rows32_0A : List Row :=
  [ ⟨"PUSH", [(19, 6, 0)], [], [(7, 4), (15, 4), (28, 4)], fun w => .push (fld w 25 3) (fld w 11 4)⟩,
    ⟨"POP", [(19, 6, 1)], [], [(11, 8), (28, 4)], fun w => .pop (fld w 25 3) (fld w 7 4)⟩ ]

/-- Major 0x0C. -/
def rows32_0C : List Row :=
  [ ⟨"BEQ", [(15, 3, 0)], [], [], fun w => .beq (fld w 18 14) (fld w 11 4) (fld w 7 4)⟩,
    ⟨"BNE", [(15, 3, 1)], [], [], fun w => .bne (fld w 18 14) (fld w 11 4) (fld w 7 4)⟩,
    ⟨"BLT", [(15, 3, 2)], [], [], fun w => .blt (fld w 18 14) (fld w 11 4) (fld w 7 4)⟩,
    ⟨"BGE", [(15, 3, 3)], [], [], fun w => .bge (fld w 18 14) (fld w 11 4) (fld w 7 4)⟩,
    ⟨"BLTN", [(15, 3, 4)], [], [], fun w => .bltn (fld w 18 14) (fld w 11 4) (fld w 7 4)⟩,
    ⟨"BGEN", [(15, 3, 5)], [], [], fun w => .bgen (fld w 18 14) (fld w 11 4) (fld w 7 4)⟩,
    ⟨"BZ", [(15, 3, 6)], [], [(11, 4)], fun w => .bz (fld w 18 14) (fld w 7 4)⟩,
    ⟨"BNZ", [(15, 3, 7)], [], [(11, 4)], fun w => .bnz (fld w 18 14) (fld w 7 4)⟩ ]

/-- Major 0x0D. -/
def rows32_0D : List Row :=
  [ ⟨"B", [], [], [], fun w => .b (fld w 7 25)⟩ ]

/-- Major 0x0E. -/
def rows32_0E : List Row :=
  [ ⟨"CALL", [], [], [], fun w => .call (fld w 7 25)⟩ ]

/-- Major 0x0F. -/
def rows32_0F : List Row :=
  [ ⟨"LOOP", [(15, 3, 0)], [], [(11, 4)], fun w => .loop (fld w 18 14) (fld w 7 4)⟩,
    ⟨"JR", [(15, 3, 1)], [], [(11, 4), (18, 14)], fun w => .jr (fld w 7 4)⟩,
    ⟨"JALR", [(15, 3, 2)], [], [(11, 4), (18, 14)], fun w => .jalr (fld w 7 4)⟩,
    ⟨"RET", [(15, 3, 3)], [], [(7, 8), (18, 14)], fun _ => .ret⟩ ]

/-- Major 0x10. -/
def rows32_10 : List Row :=
  [ ⟨"CTL_GET", [(23, 6, 0)], [], [(11, 4), (30, 2)], fun w => .ctlGet (fld w 29 1) (fld w 15 8) (fld w 7 4)⟩,
    ⟨"CTL_SET", [(23, 6, 1)], [], [(7, 4), (30, 2)], fun w => .ctlSet (fld w 29 1) (fld w 15 8) (fld w 11 4)⟩,
    ⟨"EXT_SET", [(23, 6, 2)], [], [(15, 8), (29, 3)], fun w => .extSet (fld w 11 4) (fld w 7 4)⟩,
    ⟨"EXT_GET", [(23, 6, 3)], [], [(15, 8), (29, 3)], fun w => .extGet (fld w 11 4) (fld w 7 4)⟩,
    ⟨"BRK", [(23, 6, 63)], [], [(7, 8), (29, 3)], fun w => .brk (fld w 15 8)⟩,
    ⟨"NOP", [(23, 6, 62)], [], [(7, 16), (29, 3)], fun _ => .nop⟩ ]

/-- Major 0x11. -/
def rows32_11 : List Row :=
  [ ⟨"SPAWN", [(23, 6, 0)], [], [(15, 8), (29, 3)], fun w => .spawn (fld w 11 4) (fld w 7 4)⟩,
    ⟨"SPAWN_BOX", [(23, 6, 1)], [], [(19, 4)], fun w => .spawnBox (fld w 29 3) (fld w 18 1) (fld w 15 3) (fld w 11 4) (fld w 7 4)⟩,
    ⟨"PARK", [(23, 6, 2)], [], [(15, 8), (29, 3)], fun w => .park (fld w 11 4) (fld w 7 4)⟩,
    ⟨"PAUSE_W", [(23, 6, 5)], [], [(10, 1), (15, 8), (29, 3)], fun w => .pauseW (fld w 11 4) (fld w 7 3)⟩,
    ⟨"GANG_FORM", [(23, 6, 7)], [], [(11, 4), (29, 3)], fun w => .gangForm (fld w 15 8) (fld w 7 4)⟩,
    ⟨"HALT", [(23, 6, 3)], [], [(7, 16), (29, 3)], fun _ => .halt⟩,
    ⟨"PAUSE", [(23, 6, 4)], [], [(7, 16), (29, 3)], fun _ => .pause⟩,
    ⟨"YIELD", [(23, 6, 6)], [], [(7, 16), (29, 3)], fun _ => .yield⟩,
    ⟨"GANG_END", [(23, 6, 8)], [], [(7, 16), (29, 3)], fun _ => .gangEnd⟩ ]

/-- Major 0x12. -/
def rows32_12 : List Row :=
  [ ⟨"EMIT", [(23, 6, 0)], [], [(7, 8), (29, 3)], fun w => .emit (fld w 15 8)⟩,
    ⟨"EMIT_V", [(23, 6, 1)], [], [(7, 4), (29, 3)], fun w => .emitV (fld w 15 8) (fld w 11 4)⟩,
    ⟨"TEST", [(23, 6, 2)], [], [(11, 4), (29, 3)], fun w => .test (fld w 15 8) (fld w 7 4)⟩,
    ⟨"TVAL", [(23, 6, 3)], [], [(11, 4), (29, 3)], fun w => .tval (fld w 15 8) (fld w 7 4)⟩,
    ⟨"CANT", [(29, 1, 0), (23, 6, 4)], [], [(7, 8), (30, 2)], fun w => .cant (fld w 15 8)⟩,
    ⟨"CANT_ALL", [(29, 1, 1), (23, 6, 4)], [], [(7, 16), (30, 2)], fun _ => .cantAll⟩ ]

/-- Major 0x13. -/
def rows32_13 : List Row :=
  [ ⟨"RG_ABORT", [(23, 6, 0)], [], [(7, 4), (29, 3)], fun w => .rgAbort (fld w 15 8) (fld w 11 4)⟩,
    ⟨"RG_ABORTS", [(23, 6, 1)], [], [(7, 4), (29, 3)], fun w => .rgAborts (fld w 15 8) (fld w 11 4)⟩,
    ⟨"RG_SUSP", [(23, 6, 2)], [], [(7, 8), (29, 3)], fun w => .rgSusp (fld w 15 8)⟩,
    ⟨"RG_END", [(23, 6, 3)], [], [(7, 16), (29, 3)], fun _ => .rgEnd⟩ ]

/-- Major 0x14. -/
def rows32_14 : List Row :=
  [ ⟨"BAR_INIT", [(23, 6, 0)], [], [(7, 4), (19, 3), (29, 3)], fun w => .barInit (fld w 22 1) (fld w 15 4) (fld w 11 4)⟩,
    ⟨"BAR_ARR", [(23, 6, 1)], [], [(11, 4), (19, 3), (29, 3)], fun w => .barArr (fld w 22 1) (fld w 15 4) (fld w 7 4)⟩,
    ⟨"BAR_WAIT", [(23, 6, 2)], [], [(7, 4), (19, 3), (29, 3)], fun w => .barWait (fld w 22 1) (fld w 15 4) (fld w 11 4)⟩,
    ⟨"BAR_ARRW", [(23, 6, 3)], [], [(11, 4), (19, 3), (29, 3)], fun w => .barArrw (fld w 22 1) (fld w 15 4) (fld w 7 4)⟩ ]

/-- Major 0x15. -/
def rows32_15 : List Row :=
  [ ⟨"CTR_WAIT", [(23, 6, 0)], [], [(10, 1), (15, 8), (29, 3)], fun w => .ctrWait (fld w 11 4) (fld w 7 3)⟩,
    ⟨"Q_PUT", [(23, 6, 1)], [], [(17, 6), (29, 3)], fun w => .qPut (fld w 15 2) (fld w 11 4) (fld w 7 4)⟩,
    ⟨"Q_POLL", [(29, 1, 0), (23, 6, 2)], [], [(11, 4), (17, 6), (30, 2)], fun w => .qPoll (fld w 15 2) (fld w 7 4)⟩,
    ⟨"Q_POLL_NB", [(29, 1, 1), (23, 6, 2)], [], [(17, 6), (30, 2)], fun w => .qPollNb (fld w 15 2) (fld w 11 4) (fld w 7 4)⟩ ]

/-- Major 0x16. -/
def rows32_16 : List Row :=
  [ ⟨"VADD", [(19, 6, 0)], [], [], fun w => .vadd (fld w 29 3) (fld w 25 4) (fld w 15 4) (fld w 11 4) (fld w 7 4)⟩,
    ⟨"VSUB", [(19, 6, 1)], [], [], fun w => .vsub (fld w 29 3) (fld w 25 4) (fld w 15 4) (fld w 11 4) (fld w 7 4)⟩,
    ⟨"VMUL", [(19, 6, 2)], [], [(29, 3)], fun w => .vmul (fld w 25 4) (fld w 15 4) (fld w 11 4) (fld w 7 4)⟩,
    ⟨"VFMA", [(19, 6, 3)], [], [(29, 3)], fun w => .vfma (fld w 25 4) (fld w 15 4) (fld w 11 4) (fld w 7 4)⟩,
    ⟨"VFMS", [(19, 6, 4)], [], [(29, 3)], fun w => .vfms (fld w 25 4) (fld w 15 4) (fld w 11 4) (fld w 7 4)⟩,
    ⟨"VFNMA", [(19, 6, 5)], [], [(29, 3)], fun w => .vfnma (fld w 25 4) (fld w 15 4) (fld w 11 4) (fld w 7 4)⟩,
    ⟨"VMIN", [(19, 6, 6)], [], [(29, 3)], fun w => .vmin (fld w 25 4) (fld w 15 4) (fld w 11 4) (fld w 7 4)⟩,
    ⟨"VMAX", [(19, 6, 7)], [], [(29, 3)], fun w => .vmax (fld w 25 4) (fld w 15 4) (fld w 11 4) (fld w 7 4)⟩,
    ⟨"VABS", [(19, 6, 8)], [], [(15, 4)], fun w => .vabs (fld w 29 3) (fld w 25 4) (fld w 11 4) (fld w 7 4)⟩,
    ⟨"VNEG", [(19, 6, 9)], [], [(15, 4)], fun w => .vneg (fld w 29 3) (fld w 25 4) (fld w 11 4) (fld w 7 4)⟩ ]

/-- Major 0x17. -/
def rows32_17 : List Row :=
  [ ⟨"VAND", [(19, 6, 0)], [], [(29, 3)], fun w => .vand (fld w 25 4) (fld w 15 4) (fld w 11 4) (fld w 7 4)⟩,
    ⟨"VOR", [(19, 6, 1)], [], [(29, 3)], fun w => .vor (fld w 25 4) (fld w 15 4) (fld w 11 4) (fld w 7 4)⟩,
    ⟨"VXOR", [(19, 6, 2)], [], [(29, 3)], fun w => .vxor (fld w 25 4) (fld w 15 4) (fld w 11 4) (fld w 7 4)⟩,
    ⟨"VANDN", [(19, 6, 3)], [], [(29, 3)], fun w => .vandn (fld w 25 4) (fld w 15 4) (fld w 11 4) (fld w 7 4)⟩,
    ⟨"VSHL", [(19, 6, 4)], [], [], fun w => .vshl (fld w 29 3) (fld w 25 4) (fld w 15 4) (fld w 11 4) (fld w 7 4)⟩,
    ⟨"VSHR", [(19, 6, 5)], [], [], fun w => .vshr (fld w 29 3) (fld w 25 4) (fld w 15 4) (fld w 11 4) (fld w 7 4)⟩,
    ⟨"VSRA", [(19, 6, 6)], [], [], fun w => .vsra (fld w 29 3) (fld w 25 4) (fld w 15 4) (fld w 11 4) (fld w 7 4)⟩ ]

/-- Major 0x18. -/
def rows32_18 : List Row :=
  [ ⟨"VCMP", [(19, 6, 0)], [], [(10, 1)], fun w => .vcmp (fld w 29 3) (fld w 25 4) (fld w 15 4) (fld w 11 4) (fld w 7 3)⟩,
    ⟨"VSEL", [(19, 6, 1)], [], [], fun w => .vsel (fld w 29 3) (fld w 25 4) (fld w 15 4) (fld w 11 4) (fld w 7 4)⟩ ]

/-- Major 0x19. -/
def rows32_19 : List Row :=
  [ ⟨"VCVT", [(19, 6, 0)], [], [], fun w => .vcvt (fld w 30 2) (fld w 29 1) (fld w 25 4) (fld w 15 4) (fld w 11 4) (fld w 7 4)⟩ ]

/-- Major 0x1A. -/
def rows32_1A : List Row :=
  [ ⟨"VMOV", [(19, 6, 0)], [], [(15, 4), (29, 3)], fun w => .vmov (fld w 25 4) (fld w 11 4) (fld w 7 4)⟩,
    ⟨"VSPLAT", [(19, 6, 1)], [], [(15, 4), (29, 3)], fun w => .vsplat (fld w 25 4) (fld w 11 4) (fld w 7 4)⟩,
    ⟨"VBCAST", [(19, 6, 2)], [], [(30, 2)], fun w => .vbcast (fld w 29 1) (fld w 25 4) (fld w 15 4) (fld w 11 4) (fld w 7 4)⟩,
    ⟨"VPERM", [(19, 6, 3)], [], [(29, 3)], fun w => .vperm (fld w 25 4) (fld w 15 4) (fld w 11 4) (fld w 7 4)⟩,
    ⟨"VROT", [(19, 6, 4)], [], [(30, 2)], fun w => .vrot (fld w 29 1) (fld w 25 4) (fld w 15 4) (fld w 11 4) (fld w 7 4)⟩,
    ⟨"VZIP", [(19, 6, 5)], [], [], fun w => .vzip (fld w 29 3) (fld w 25 4) (fld w 15 4) (fld w 11 4) (fld w 7 4)⟩,
    ⟨"VUNZIP", [(19, 6, 6)], [], [], fun w => .vunzip (fld w 29 3) (fld w 25 4) (fld w 15 4) (fld w 11 4) (fld w 7 4)⟩,
    ⟨"VRED", [(19, 6, 7)], [], [(15, 4)], fun w => .vred (fld w 29 3) (fld w 25 4) (fld w 11 4) (fld w 7 4)⟩,
    ⟨"VDOT", [(19, 6, 8)], [], [(29, 3)], fun w => .vdot (fld w 25 4) (fld w 15 4) (fld w 11 4) (fld w 7 4)⟩ ]

/-- Major 0x1B. -/
def rows32_1B : List Row :=
  [ ⟨"VLD", [(19, 6, 0)], [], [], fun w => .vld (fld w 29 3) (fld w 25 4) (fld w 15 4) (fld w 11 4) (fld w 7 4)⟩,
    ⟨"VST", [(19, 6, 1)], [], [], fun w => .vst (fld w 29 3) (fld w 25 4) (fld w 15 4) (fld w 11 4) (fld w 7 4)⟩,
    ⟨"VLDP", [(19, 6, 2)], [], [(15, 4), (29, 3)], fun w => .vldp (fld w 25 4) (fld w 11 4) (fld w 7 4)⟩,
    ⟨"VSTP", [(19, 6, 3)], [], [(15, 4), (29, 3)], fun w => .vstp (fld w 25 4) (fld w 11 4) (fld w 7 4)⟩,
    ⟨"VGATH", [(19, 6, 4)], [], [(29, 3)], fun w => .vgath (fld w 25 4) (fld w 15 4) (fld w 11 4) (fld w 7 4)⟩,
    ⟨"VSCAT", [(19, 6, 5)], [], [(29, 3)], fun w => .vscat (fld w 25 4) (fld w 15 4) (fld w 11 4) (fld w 7 4)⟩ ]

/-- Major 0x1C. -/
def rows32_1C : List Row :=
  [ ⟨"VFN_EXP2", [(19, 6, 0)], [], [(15, 4), (29, 3)], fun w => .vfnExp2 (fld w 25 4) (fld w 11 4) (fld w 7 4)⟩,
    ⟨"VFN_EXP", [(19, 6, 1)], [], [(15, 4), (29, 3)], fun w => .vfnExp (fld w 25 4) (fld w 11 4) (fld w 7 4)⟩,
    ⟨"VFN_LOG2", [(19, 6, 2)], [], [(15, 4), (29, 3)], fun w => .vfnLog2 (fld w 25 4) (fld w 11 4) (fld w 7 4)⟩,
    ⟨"VFN_LOG", [(19, 6, 3)], [], [(15, 4), (29, 3)], fun w => .vfnLog (fld w 25 4) (fld w 11 4) (fld w 7 4)⟩,
    ⟨"VFN_RCP", [(19, 6, 4)], [], [(15, 4), (29, 3)], fun w => .vfnRcp (fld w 25 4) (fld w 11 4) (fld w 7 4)⟩,
    ⟨"VFN_RSQRT", [(19, 6, 5)], [], [(15, 4), (29, 3)], fun w => .vfnRsqrt (fld w 25 4) (fld w 11 4) (fld w 7 4)⟩,
    ⟨"VFN_SQRT", [(19, 6, 6)], [], [(15, 4), (29, 3)], fun w => .vfnSqrt (fld w 25 4) (fld w 11 4) (fld w 7 4)⟩,
    ⟨"VFN_SIN", [(19, 6, 7)], [], [(15, 4), (29, 3)], fun w => .vfnSin (fld w 25 4) (fld w 11 4) (fld w 7 4)⟩,
    ⟨"VFN_COS", [(19, 6, 8)], [], [(15, 4), (29, 3)], fun w => .vfnCos (fld w 25 4) (fld w 11 4) (fld w 7 4)⟩,
    ⟨"VFN_TANH", [(19, 6, 9)], [], [(15, 4), (29, 3)], fun w => .vfnTanh (fld w 25 4) (fld w 11 4) (fld w 7 4)⟩,
    ⟨"VFN_SIGMOID", [(19, 6, 10)], [], [(15, 4), (29, 3)], fun w => .vfnSigmoid (fld w 25 4) (fld w 11 4) (fld w 7 4)⟩,
    ⟨"VFN_ERF", [(19, 6, 11)], [], [(15, 4), (29, 3)], fun w => .vfnErf (fld w 25 4) (fld w 11 4) (fld w 7 4)⟩,
    ⟨"VEXPR", [(19, 6, 16)], [], [], fun w => .vexpr (fld w 29 3) (fld w 25 4) (fld w 15 4) (fld w 11 4) (fld w 7 4)⟩ ]

/-- Major 0x1D. -/
def rows32_1D : List Row :=
  [ ⟨"SOP_ADD", [(19, 6, 0)], [], [(9, 2), (13, 2), (17, 2)], fun w => .sopAdd (fld w 29 3) (fld w 25 4) (fld w 15 2) (fld w 11 2) (fld w 7 2)⟩,
    ⟨"SOP_SUB", [(19, 6, 1)], [], [(9, 2), (13, 2), (17, 2)], fun w => .sopSub (fld w 29 3) (fld w 25 4) (fld w 15 2) (fld w 11 2) (fld w 7 2)⟩,
    ⟨"SOP_MUL", [(19, 6, 2)], [], [(9, 2), (13, 2), (17, 2), (29, 3)], fun w => .sopMul (fld w 25 4) (fld w 15 2) (fld w 11 2) (fld w 7 2)⟩,
    ⟨"SOP_FMA", [(19, 6, 3)], [], [(9, 2), (13, 2), (17, 2)], fun w => .sopFma (fld w 29 3) (fld w 25 4) (fld w 15 2) (fld w 11 2) (fld w 7 2)⟩,
    ⟨"SOP_MIN", [(19, 6, 4)], [], [(9, 2), (13, 2), (17, 2), (29, 3)], fun w => .sopMin (fld w 25 4) (fld w 15 2) (fld w 11 2) (fld w 7 2)⟩,
    ⟨"SOP_MAX", [(19, 6, 5)], [], [(9, 2), (13, 2), (17, 2), (29, 3)], fun w => .sopMax (fld w 25 4) (fld w 15 2) (fld w 11 2) (fld w 7 2)⟩,
    ⟨"SOP_CVT", [(19, 6, 6)], [], [(9, 2), (13, 2), (30, 2)], fun w => .sopCvt (fld w 29 1) (fld w 25 4) (fld w 15 4) (fld w 11 2) (fld w 7 2)⟩,
    ⟨"MAND", [(19, 6, 16)], [], [(10, 1), (14, 1), (18, 1), (25, 7)], fun w => .mand (fld w 15 3) (fld w 11 3) (fld w 7 3)⟩,
    ⟨"MOR", [(19, 6, 17)], [], [(10, 1), (14, 1), (18, 1), (25, 7)], fun w => .mor (fld w 15 3) (fld w 11 3) (fld w 7 3)⟩,
    ⟨"MXOR", [(19, 6, 18)], [], [(10, 1), (14, 1), (18, 1), (25, 7)], fun w => .mxor (fld w 15 3) (fld w 11 3) (fld w 7 3)⟩,
    ⟨"MNOT", [(19, 6, 19)], [], [(10, 1), (14, 5), (25, 7)], fun w => .mnot (fld w 11 3) (fld w 7 3)⟩,
    ⟨"MPOP", [(19, 6, 20)], [], [(14, 5), (29, 3)], fun w => .mpop (fld w 25 4) (fld w 11 3) (fld w 7 4)⟩,
    ⟨"MFIRST", [(19, 6, 21)], [], [(14, 5), (29, 3)], fun w => .mfirst (fld w 25 4) (fld w 11 3) (fld w 7 4)⟩,
    ⟨"MSET", [(19, 6, 22)], [], [(10, 1), (15, 4), (25, 7)], fun w => .mset (fld w 11 4) (fld w 7 3)⟩ ]

/-- Major 0x1E. -/
def rows32_1E : List Row :=
  [ ⟨"VECTOR_PREFIX", [], [], [(18, 14)], fun w => .vectorPrefix (fld w 14 4) (fld w 11 3) (fld w 10 1) (fld w 7 3)⟩ ]

/-- Major 0x20. -/
def rows32_20 : List Row :=
  [ ⟨"CK_MK", [(19, 6, 0)], [], [(10, 1), (15, 4)], fun w => .ckMk (fld w 28 4) (fld w 25 3) (fld w 11 4) (fld w 7 3)⟩,
    ⟨"CK_AX", [(19, 6, 1)], [], [(14, 1), (28, 4)], fun w => .ckAx (fld w 25 3) (fld w 15 4) (fld w 11 3) (fld w 7 4)⟩,
    ⟨"CK_ADD", [(19, 6, 2)], [], [(10, 1), (14, 1), (18, 1)], fun w => .ckAdd (fld w 28 4) (fld w 25 3) (fld w 15 3) (fld w 11 3) (fld w 7 3)⟩,
    ⟨"CK_SUB", [(19, 6, 3)], [], [(10, 1), (14, 1), (18, 1)], fun w => .ckSub (fld w 28 4) (fld w 25 3) (fld w 15 3) (fld w 11 3) (fld w 7 3)⟩,
    ⟨"CK_CMP", [(19, 6, 4)], [], [(14, 1), (18, 1), (28, 4)], fun w => .ckCmp (fld w 25 3) (fld w 15 3) (fld w 11 3) (fld w 7 4)⟩,
    ⟨"CK_DOM", [(19, 6, 5)], [], [(14, 1), (18, 1), (28, 4)], fun w => .ckDom (fld w 25 3) (fld w 15 3) (fld w 11 3) (fld w 7 4)⟩,
    ⟨"CK_INBOX", [(19, 6, 6)], [], [(14, 1), (18, 1), (28, 4)], fun w => .ckInbox (fld w 25 3) (fld w 15 3) (fld w 11 3) (fld w 7 4)⟩,
    ⟨"CK_NEXT", [(19, 6, 7)], [], [(10, 1), (14, 1), (18, 1)], fun w => .ckNext (fld w 28 4) (fld w 25 3) (fld w 15 3) (fld w 11 3) (fld w 7 3)⟩,
    ⟨"CK_PREV", [(19, 6, 8)], [], [(10, 1), (14, 1), (18, 1)], fun w => .ckPrev (fld w 28 4) (fld w 25 3) (fld w 15 3) (fld w 11 3) (fld w 7 3)⟩,
    ⟨"CK_CLIP", [(19, 6, 9)], [], [(10, 1), (14, 1), (18, 1)], fun w => .ckClip (fld w 28 4) (fld w 25 3) (fld w 15 3) (fld w 11 3) (fld w 7 3)⟩,
    ⟨"CK_CHK", [(19, 6, 10)], [], [(14, 5), (28, 4)], fun w => .ckChk (fld w 25 3) (fld w 11 3) (fld w 7 4)⟩ ]

/-- Major 0x21. -/
def rows32_21 : List Row :=
  [ ⟨"CK_SPLIT", [(19, 6, 0)], [], [(14, 1), (18, 1)], fun w => .ckSplit (fld w 28 4) (fld w 25 3) (fld w 15 3) (fld w 11 3) (fld w 7 4)⟩,
    ⟨"VCK_ADD", [(19, 6, 1)], [], [(31, 1)], fun w => .vckAdd (fld w 28 3) (fld w 25 3) (fld w 15 4) (fld w 11 4) (fld w 7 4)⟩ ]

/-- Major 0x22. -/
def rows32_22 : List Row :=
  [ ⟨"GLD", [], [], [(14, 1)], fun w => .gld (fld w 18 14) (fld w 17 1) (fld w 15 2) (fld w 11 3) (fld w 7 4)⟩ ]

/-- Major 0x23. -/
def rows32_23 : List Row :=
  [ ⟨"GST", [], [], [(14, 1)], fun w => .gst (fld w 18 14) (fld w 17 1) (fld w 15 2) (fld w 11 3) (fld w 7 4)⟩ ]

/-- Major 0x24. -/
def rows32_24 : List Row :=
  [ ⟨"SLD", [(19, 6, 0), (25, 1, 1), (26, 1, 0), (10, 1, 1)], [], [(10, 1)], fun w => .sld (fld w 25 1) (fld w 15 4) (fld w 11 4) (fld w 7 4)⟩,
    ⟨"SST", [(19, 6, 1), (25, 1, 1), (26, 1, 0), (10, 1, 1)], [], [(10, 1)], fun w => .sst (fld w 25 1) (fld w 15 4) (fld w 11 4) (fld w 7 4)⟩,
    ⟨"WAIT", [(19, 6, 24), (25, 1, 1), (26, 1, 1), (10, 1, 1)], [], [(10, 1)], fun w => .wait (fld w 28 4) (fld w 25 1) (fld w 15 4) (fld w 11 3) (fld w 7 4)⟩,
    ⟨"WAIT", [(19, 6, 24), (25, 1, 1), (26, 1, 1), (18, 1, 1)], [], [(18, 1)], fun w => .wait (fld w 28 4) (fld w 25 1) (fld w 15 4) (fld w 11 3) (fld w 7 4)⟩,
    ⟨"SLD", [(19, 6, 0)], [(26, 1, 1)], [(27, 5)], fun w => .sld (fld w 25 1) (fld w 15 4) (fld w 11 4) (fld w 7 4)⟩,
    ⟨"SST", [(19, 6, 1)], [(26, 1, 1)], [(27, 5)], fun w => .sst (fld w 25 1) (fld w 15 4) (fld w 11 4) (fld w 7 4)⟩,
    ⟨"AMO_ADD", [(19, 6, 8)], [], [(27, 1)], fun w => .amoAdd (fld w 28 4) (fld w 26 1) (fld w 25 1) (fld w 15 4) (fld w 11 4) (fld w 7 4)⟩,
    ⟨"AMO_AND", [(19, 6, 9)], [], [(27, 1)], fun w => .amoAnd (fld w 28 4) (fld w 26 1) (fld w 25 1) (fld w 15 4) (fld w 11 4) (fld w 7 4)⟩,
    ⟨"AMO_OR", [(19, 6, 10)], [], [(27, 1)], fun w => .amoOr (fld w 28 4) (fld w 26 1) (fld w 25 1) (fld w 15 4) (fld w 11 4) (fld w 7 4)⟩,
    ⟨"AMO_XOR", [(19, 6, 11)], [], [(27, 1)], fun w => .amoXor (fld w 28 4) (fld w 26 1) (fld w 25 1) (fld w 15 4) (fld w 11 4) (fld w 7 4)⟩,
    ⟨"AMO_MIN", [(19, 6, 12)], [], [(27, 1)], fun w => .amoMin (fld w 28 4) (fld w 26 1) (fld w 25 1) (fld w 15 4) (fld w 11 4) (fld w 7 4)⟩,
    ⟨"AMO_MAX", [(19, 6, 13)], [], [(27, 1)], fun w => .amoMax (fld w 28 4) (fld w 26 1) (fld w 25 1) (fld w 15 4) (fld w 11 4) (fld w 7 4)⟩,
    ⟨"AMO_MINN", [(19, 6, 14)], [], [(27, 1)], fun w => .amoMinn (fld w 28 4) (fld w 26 1) (fld w 25 1) (fld w 15 4) (fld w 11 4) (fld w 7 4)⟩,
    ⟨"AMO_MAXN", [(19, 6, 15)], [], [(27, 1)], fun w => .amoMaxn (fld w 28 4) (fld w 26 1) (fld w 25 1) (fld w 15 4) (fld w 11 4) (fld w 7 4)⟩,
    ⟨"AMO_SWAP", [(19, 6, 16)], [], [(27, 1)], fun w => .amoSwap (fld w 28 4) (fld w 26 1) (fld w 25 1) (fld w 15 4) (fld w 11 4) (fld w 7 4)⟩,
    ⟨"AMO_CAS", [(19, 6, 17)], [], [(27, 1)], fun w => .amoCas (fld w 28 4) (fld w 26 1) (fld w 25 1) (fld w 15 4) (fld w 11 4) (fld w 7 4)⟩,
    ⟨"WAIT", [(19, 6, 24)], [(26, 1, 0)], [(14, 1), (27, 1)], fun w => .wait (fld w 28 4) (fld w 25 1) (fld w 15 4) (fld w 11 3) (fld w 7 4)⟩ ]

/-- Major 0x25. -/
def rows32_25 : List Row :=
  [ ⟨"GLD_HOME", [(18, 7, 32)], [], [(14, 4), (31, 1)], fun w => .gldHome (fld w 25 6) 0 (fld w 11 3) (fld w 7 4)⟩,
    ⟨"GLD_HOME", [(18, 7, 33)], [], [(14, 4), (31, 1)], fun w => .gldHome (fld w 25 6) 1 (fld w 11 3) (fld w 7 4)⟩,
    ⟨"GLD_HOME", [(18, 7, 34)], [], [(14, 4), (31, 1)], fun w => .gldHome (fld w 25 6) 2 (fld w 11 3) (fld w 7 4)⟩,
    ⟨"GLD_HOME", [(18, 7, 35)], [], [(14, 4), (31, 1)], fun w => .gldHome (fld w 25 6) 3 (fld w 11 3) (fld w 7 4)⟩,
    ⟨"GLD_HOME", [(18, 7, 36)], [], [(14, 4), (31, 1)], fun w => .gldHome (fld w 25 6) 4 (fld w 11 3) (fld w 7 4)⟩,
    ⟨"GLD_HOME", [(18, 7, 37)], [], [(14, 4), (31, 1)], fun w => .gldHome (fld w 25 6) 5 (fld w 11 3) (fld w 7 4)⟩,
    ⟨"GLD_HOME", [(18, 7, 38)], [], [(14, 4), (31, 1)], fun w => .gldHome (fld w 25 6) 6 (fld w 11 3) (fld w 7 4)⟩,
    ⟨"GST_HOME", [(18, 7, 40)], [], [(14, 4), (31, 1)], fun w => .gstHome (fld w 25 6) 0 (fld w 11 3) (fld w 7 4)⟩,
    ⟨"GST_HOME", [(18, 7, 41)], [], [(14, 4), (31, 1)], fun w => .gstHome (fld w 25 6) 1 (fld w 11 3) (fld w 7 4)⟩,
    ⟨"GST_HOME", [(18, 7, 42)], [], [(14, 4), (31, 1)], fun w => .gstHome (fld w 25 6) 2 (fld w 11 3) (fld w 7 4)⟩,
    ⟨"GST_HOME", [(18, 7, 43)], [], [(14, 4), (31, 1)], fun w => .gstHome (fld w 25 6) 3 (fld w 11 3) (fld w 7 4)⟩,
    ⟨"GST_HOME", [(18, 7, 44)], [], [(14, 4), (31, 1)], fun w => .gstHome (fld w 25 6) 4 (fld w 11 3) (fld w 7 4)⟩,
    ⟨"GST_HOME", [(18, 7, 45)], [], [(14, 4), (31, 1)], fun w => .gstHome (fld w 25 6) 5 (fld w 11 3) (fld w 7 4)⟩,
    ⟨"GST_HOME", [(18, 7, 46)], [], [(14, 4), (31, 1)], fun w => .gstHome (fld w 25 6) 6 (fld w 11 3) (fld w 7 4)⟩,
    ⟨"FENCE", [(18, 7, 0)], [], [(7, 11), (30, 2)], fun w => .fence (fld w 27 3) (fld w 25 2)⟩,
    ⟨"PREF", [(18, 7, 1)], [], [(7, 4), (14, 4), (26, 6)], fun w => .pref (fld w 25 1) (fld w 11 3)⟩,
    ⟨"CLN", [(18, 7, 2)], [], [(7, 4), (14, 4), (25, 7)], fun w => .cln (fld w 11 3)⟩,
    ⟨"INV", [(25, 1, 0), (18, 7, 3)], [], [(7, 4), (14, 4), (26, 6)], fun w => .inv (fld w 11 3)⟩,
    ⟨"INV_ALL", [(25, 1, 1), (18, 7, 3)], [], [(7, 11), (26, 6)], fun _ => .invAll⟩ ]

/-- Major 0x26. -/
def rows32_26 : List Row :=
  [ ⟨"CP_SEND", [(18, 7, 0)], [], [(28, 4)], fun w => .cpSend (fld w 27 1) (fld w 26 1) (fld w 25 1) (fld w 15 3) (fld w 11 4) (fld w 7 4)⟩,
    ⟨"CP_PUT", [(18, 7, 1)], [], [(28, 4)], fun w => .cpPut (fld w 27 1) (fld w 26 1) (fld w 25 1) (fld w 15 3) (fld w 11 4) (fld w 7 4)⟩,
    ⟨"CP_RL", [(18, 7, 2)], [], [(28, 4)], fun w => .cpRl (fld w 27 1) (fld w 26 1) (fld w 25 1) (fld w 15 3) (fld w 11 4) (fld w 7 4)⟩,
    ⟨"CP_HALO", [(18, 7, 3)], [], [(28, 4)], fun w => .cpHalo (fld w 27 1) (fld w 26 1) (fld w 25 1) (fld w 15 3) (fld w 11 4) (fld w 7 4)⟩ ]

/-- Major 0x27. -/
def rows32_27 : List Row :=
  [ ⟨"MX_CFG", [(18, 7, 0)], [], [(7, 8), (25, 7)], fun w => .mxCfg (fld w 15 3)⟩,
    ⟨"MX_MM", [(18, 7, 1)], [], [(26, 6)], fun w => .mxMm (fld w 25 1) (fld w 15 3) (fld w 11 4) (fld w 7 4)⟩,
    ⟨"MC_POST", [(18, 7, 2)], [], [(29, 3)], fun w => .mcPost (fld w 26 3) (fld w 25 1) (fld w 15 3) (fld w 11 4) (fld w 7 4)⟩ ]

/-- Major 0x28. -/
def rows32_28 : List Row :=
  [ ⟨"JOB_FENCE", [(23, 6, 0)], [], [(7, 8), (18, 5), (29, 3)], fun w => .jobFence (fld w 15 3)⟩ ]

/-- Major 0x29. -/
def rows32_29 : List Row :=
  [ ⟨"MCL_TAKE", [(18, 7, 0)], [], [(15, 3), (25, 7)], fun w => .mclTake (fld w 11 4) (fld w 7 4)⟩,
    ⟨"MCL_READ", [(18, 7, 1)], [], [(14, 4), (27, 5)], fun w => .mclRead (fld w 25 2) (fld w 11 3) (fld w 7 4)⟩,
    ⟨"MCL_PUSH", [(18, 7, 2)], [], [(7, 4)], fun w => .mclPush (fld w 25 7) (fld w 15 3) (fld w 11 4)⟩,
    ⟨"MCL_DONE", [(18, 7, 3)], [], [(7, 11), (25, 7)], fun _ => .mclDone⟩ ]

/-- Major 0x2A. -/
def rows32_2A : List Row :=
  [ ⟨"WS_SW_OUT", [(29, 1, 0), (23, 6, 0)], [], [(10, 1), (15, 8), (30, 2)], fun w => .wsSwOut (fld w 11 4) (fld w 7 3)⟩,
    ⟨"WS_SW_IN", [(29, 1, 1), (23, 6, 0)], [], [(10, 1), (15, 8), (30, 2)], fun w => .wsSwIn (fld w 11 4) (fld w 7 3)⟩,
    ⟨"ERET", [(15, 1, 0), (23, 6, 1)], [], [(7, 4), (16, 7), (29, 3)], fun w => .eret (fld w 11 4)⟩,
    ⟨"ERET_KILL", [(15, 1, 1), (23, 6, 1)], [], [(7, 4), (16, 7), (29, 3)], fun w => .eretKill (fld w 11 4)⟩,
    ⟨"SYSC", [(23, 6, 2)], [], [(7, 8), (29, 3)], fun w => .sysc (fld w 15 8)⟩,
    ⟨"TRAP", [(23, 6, 3)], [], [(7, 4), (29, 3)], fun w => .trap (fld w 15 8) (fld w 11 4)⟩,
    ⟨"TLB_INV", [(23, 6, 4)], [], [(10, 1), (14, 1), (17, 6), (29, 3)], fun w => .tlbInv (fld w 15 2) (fld w 11 3) (fld w 7 3)⟩,
    ⟨"FQ_TAKE", [(29, 1, 0), (23, 6, 5)], [], [(15, 8), (30, 2)], fun w => .fqTake (fld w 11 4) (fld w 7 4)⟩,
    ⟨"FQ_TAKE_NB", [(29, 1, 1), (23, 6, 5)], [], [(15, 8), (30, 2)], fun w => .fqTakeNb (fld w 11 4) (fld w 7 4)⟩,
    ⟨"FQ_DONE", [(23, 6, 6)], [], [(7, 4), (29, 3)], fun w => .fqDone (fld w 15 8) (fld w 11 4)⟩,
    ⟨"WIPE_SEC", [(23, 6, 8)], [], [(15, 8), (29, 3)], fun w => .wipeSec (fld w 11 4) (fld w 7 4)⟩,
    ⟨"IDLE", [(23, 6, 7)], [], [(7, 16), (29, 3)], fun _ => .idle⟩ ]

/-- The 16-bit rows by op3 (03 Table 3.12). -/
def rows16 : Nat → List Row
  | 0 => rows16_00
  | 1 => rows16_01
  | 2 => rows16_02
  | 3 => rows16_03
  | 4 => rows16_04
  | 5 => rows16_05
  | 6 => rows16_06
  | _ => []

/-- The 32-bit rows by major opcode (03 Table 3.15). -/
def rows32 : Nat → List Row
  | 1 => rows32_01
  | 2 => rows32_02
  | 3 => rows32_03
  | 4 => rows32_04
  | 5 => rows32_05
  | 8 => rows32_08
  | 9 => rows32_09
  | 10 => rows32_0A
  | 12 => rows32_0C
  | 13 => rows32_0D
  | 14 => rows32_0E
  | 15 => rows32_0F
  | 16 => rows32_10
  | 17 => rows32_11
  | 18 => rows32_12
  | 19 => rows32_13
  | 20 => rows32_14
  | 21 => rows32_15
  | 22 => rows32_16
  | 23 => rows32_17
  | 24 => rows32_18
  | 25 => rows32_19
  | 26 => rows32_1A
  | 27 => rows32_1B
  | 28 => rows32_1C
  | 29 => rows32_1D
  | 30 => rows32_1E
  | 32 => rows32_20
  | 33 => rows32_21
  | 34 => rows32_22
  | 35 => rows32_23
  | 36 => rows32_24
  | 37 => rows32_25
  | 38 => rows32_26
  | 39 => rows32_27
  | 40 => rows32_28
  | 41 => rows32_29
  | 42 => rows32_2A
  | _ => []

/-- The instruction a row reads from a word, after checks 3 and 5 (R67, Table 3.1). -/
def Row.read (r : Row) (w : Nat) : Except DecodeError Instr :=
  if r.res.any (fun f => fld w f.1 f.2 != 0) then .error (.reservedField r.name)
  else if !holds r.must w then .error (.badOperand r.name)
  else .ok (r.build w)

/-- A 16-bit word (R71, R72); a code with no row is UNALLOCATED_OPCODE. -/
def decode16 (w : Nat) : Except DecodeError Instr :=
  match (rows16 (fld w 1 3)).find? (fun r => holds r.op w) with
  | some r => r.read w
  | none => .ok .unallocatedOpcode

/-- A 32-bit word; majors 0x38 to 0x3E are the extension space (R81), a code with no row is UNALLOCATED_OPCODE (R77). -/
def decode32 (w : Nat) : Except DecodeError Instr :=
  match (rows32 (fld w 1 6)).find? (fun r => holds r.op w) with
  | some r => r.read w
  | none => if 0x38 ≤ fld w 1 6 && fld w 1 6 ≤ 0x3E then .ok .emulMajor else .ok .unallocatedOpcode

/-- The halfwords that are illegal whatever follows (R66). -/
def illegalHalfword (h : Nat) : Bool := h == 0x0000 || h == 0xFFFF

/-- Length in bytes of the instruction that begins with halfword h: bit 0 tells (R65); R66 decides on one halfword alone. -/
def instrLen (h : Nat) : Nat := if illegalHalfword h then 2 else if h % 2 == 1 then 4 else 2

/-- A halfword or word as the fetch delivers it: its length in bits and its value. -/
def decodeWord (nbits w : Nat) : Except DecodeError Instr :=
  if illegalHalfword (w % 2 ^ 16) then .ok .unallocatedOpcode
  else if w % 2 == 0 then decode16 (w % 2 ^ 16)
  else if nbits < 32 then .error .tooShort
  else decode32 (w % 2 ^ 32)

/-- Little-endian value of bytes (R12). -/
def leNat : List Byte → Nat
  | [] => 0
  | b :: bs => b.toNat + 256 * leNat bs

/-- The n bytes of a value, lowest first (R12). -/
def leBytes : Nat → Nat → List Byte
  | 0, _ => []
  | n + 1, v => BitVec.ofNat 8 v :: leBytes n (v / 256)

/-- The decoder on bytes, lowest address first: the instruction and the bytes after it (R65). -/
def decode (bs : List Byte) : Except DecodeError (Instr × List Byte) :=
  if bs.length < 2 then .error .tooShort
  else
    let n := instrLen (leNat (bs.take 2))
    if bs.length < n then .error .tooShort
    else
      match decodeWord (8 * n) (leNat (bs.take n)) with
      | .ok i => .ok (i, bs.drop n)
      | .error e => .error e

/-- The instruction the decoder reads from a word numbered as spec/opcode_table.json numbers it: the word is laid out as the
device stores it, little-endian (R65), with zeros above nbits up to the longest instruction. -/
def decodeTableWord (nbits w : Nat) : Option Instr :=
  match decode (leBytes 4 (w % 2 ^ nbits)) with
  | .ok (i, _) => some i
  | .error _ => none

/-- A word from its fixed bits and the fields (value, lowest bit) added at their places. -/
def place (m : Nat) : List (Nat × Nat) → Nat
  | [] => m
  | f :: fs => f.1 * 2 ^ f.2 + place m fs

/-- The word of an instruction, with its length in bits, from the encoding of its row; an event has none. -/
def encode : Instr → Option (Nat × Nat)
  | .add t b a d => some (32, place 0x3 [(t, 25), (b, 15), (a, 11), (d, 7)])
  | .sub t b a d => some (32, place 0x80003 [(t, 25), (b, 15), (a, 11), (d, 7)])
  | .mul t b a d => some (32, place 0x100003 [(t, 25), (b, 15), (a, 11), (d, 7)])
  | .mulh t b a d => some (32, place 0x180003 [(t, 25), (b, 15), (a, 11), (d, 7)])
  | .mulhn t b a d => some (32, place 0x200003 [(t, 25), (b, 15), (a, 11), (d, 7)])
  | .div t b a d => some (32, place 0x280003 [(t, 25), (b, 15), (a, 11), (d, 7)])
  | .divn t b a d => some (32, place 0x300003 [(t, 25), (b, 15), (a, 11), (d, 7)])
  | .rem t b a d => some (32, place 0x380003 [(t, 25), (b, 15), (a, 11), (d, 7)])
  | .remn t b a d => some (32, place 0x400003 [(t, 25), (b, 15), (a, 11), (d, 7)])
  | .and t b a d => some (32, place 0x480003 [(t, 25), (b, 15), (a, 11), (d, 7)])
  | .or t b a d => some (32, place 0x500003 [(t, 25), (b, 15), (a, 11), (d, 7)])
  | .xor t b a d => some (32, place 0x580003 [(t, 25), (b, 15), (a, 11), (d, 7)])
  | .andn t b a d => some (32, place 0x600003 [(t, 25), (b, 15), (a, 11), (d, 7)])
  | .orn t b a d => some (32, place 0x680003 [(t, 25), (b, 15), (a, 11), (d, 7)])
  | .shl t b a d => some (32, place 0x700003 [(t, 25), (b, 15), (a, 11), (d, 7)])
  | .shr t b a d => some (32, place 0x780003 [(t, 25), (b, 15), (a, 11), (d, 7)])
  | .sra t b a d => some (32, place 0x800003 [(t, 25), (b, 15), (a, 11), (d, 7)])
  | .rotl t b a d => some (32, place 0x880003 [(t, 25), (b, 15), (a, 11), (d, 7)])
  | .min t b a d => some (32, place 0x900003 [(t, 25), (b, 15), (a, 11), (d, 7)])
  | .max t b a d => some (32, place 0x980003 [(t, 25), (b, 15), (a, 11), (d, 7)])
  | .minn t b a d => some (32, place 0xA00003 [(t, 25), (b, 15), (a, 11), (d, 7)])
  | .maxn t b a d => some (32, place 0xA80003 [(t, 25), (b, 15), (a, 11), (d, 7)])
  | .slt t b a d => some (32, place 0xB00003 [(t, 25), (b, 15), (a, 11), (d, 7)])
  | .sltn t b a d => some (32, place 0xB80003 [(t, 25), (b, 15), (a, 11), (d, 7)])
  | .sel c t b a d => some (32, place 0xC00003 [(c, 28), (t, 25), (b, 15), (a, 11), (d, 7)])
  | .clz t a d => some (32, place 0xC80003 [(t, 25), (a, 11), (d, 7)])
  | .ctz t a d => some (32, place 0xD00003 [(t, 25), (a, 11), (d, 7)])
  | .popc t a d => some (32, place 0xD80003 [(t, 25), (a, 11), (d, 7)])
  | .bswap t a d => some (32, place 0xE00003 [(t, 25), (a, 11), (d, 7)])
  | .add16 a d => some (16, place 0x0 [(a, 8), (d, 4)])
  | .sub16 a d => some (16, place 0x1000 [(a, 8), (d, 4)])
  | .and16 a d => some (16, place 0x2000 [(a, 8), (d, 4)])
  | .or16 a d => some (16, place 0x3000 [(a, 8), (d, 4)])
  | .xor16 a d => some (16, place 0x4000 [(a, 8), (d, 4)])
  | .shl16 a d => some (16, place 0x5000 [(a, 8), (d, 4)])
  | .shr16 a d => some (16, place 0x6000 [(a, 8), (d, 4)])
  | .sra16 a d => some (16, place 0x7000 [(a, 8), (d, 4)])
  | .mov16 a d => some (16, place 0x8000 [(a, 8), (d, 4)])
  | .min16 a d => some (16, place 0x9000 [(a, 8), (d, 4)])
  | .max16 a d => some (16, place 0xA000 [(a, 8), (d, 4)])
  | .minn16 a d => some (16, place 0xB000 [(a, 8), (d, 4)])
  | .maxn16 a d => some (16, place 0xC000 [(a, 8), (d, 4)])
  | .mul16 a d => some (16, place 0xD000 [(a, 8), (d, 4)])
  | .slt16 a d => some (16, place 0xE000 [(a, 8), (d, 4)])
  | .sltn16 a d => some (16, place 0xF000 [(a, 8), (d, 4)])
  | .addImmediate ix a d => some (32, place 0x5 [(ix, 15), (a, 11), (d, 7)])
  | .addImmediate16 ix d => some (16, place 0x4 [(ix, 8), (d, 4)])
  | .lih ix d => some (32, place 0x7 [(ix, 15), (d, 7)])
  | .addK t k a d => some (32, place 0x9 [(t, 29), (k, 15), (a, 11), (d, 7)])
  | .subK t k a d => some (32, place 0x800009 [(t, 29), (k, 15), (a, 11), (d, 7)])
  | .mulK t k a d => some (32, place 0x1000009 [(t, 29), (k, 15), (a, 11), (d, 7)])
  | .mulhK t k a d => some (32, place 0x1800009 [(t, 29), (k, 15), (a, 11), (d, 7)])
  | .mulhnK t k a d => some (32, place 0x2000009 [(t, 29), (k, 15), (a, 11), (d, 7)])
  | .divK t k a d => some (32, place 0x2800009 [(t, 29), (k, 15), (a, 11), (d, 7)])
  | .divnK t k a d => some (32, place 0x3000009 [(t, 29), (k, 15), (a, 11), (d, 7)])
  | .remK t k a d => some (32, place 0x3800009 [(t, 29), (k, 15), (a, 11), (d, 7)])
  | .remnK t k a d => some (32, place 0x4000009 [(t, 29), (k, 15), (a, 11), (d, 7)])
  | .andK t k a d => some (32, place 0x4800009 [(t, 29), (k, 15), (a, 11), (d, 7)])
  | .orK t k a d => some (32, place 0x5000009 [(t, 29), (k, 15), (a, 11), (d, 7)])
  | .xorK t k a d => some (32, place 0x5800009 [(t, 29), (k, 15), (a, 11), (d, 7)])
  | .andnK t k a d => some (32, place 0x6000009 [(t, 29), (k, 15), (a, 11), (d, 7)])
  | .ornK t k a d => some (32, place 0x6800009 [(t, 29), (k, 15), (a, 11), (d, 7)])
  | .shlK t k a d => some (32, place 0x7000009 [(t, 29), (k, 15), (a, 11), (d, 7)])
  | .shrK t k a d => some (32, place 0x7800009 [(t, 29), (k, 15), (a, 11), (d, 7)])
  | .sraK t k a d => some (32, place 0x8000009 [(t, 29), (k, 15), (a, 11), (d, 7)])
  | .rotlK t k a d => some (32, place 0x8800009 [(t, 29), (k, 15), (a, 11), (d, 7)])
  | .minK t k a d => some (32, place 0x9000009 [(t, 29), (k, 15), (a, 11), (d, 7)])
  | .maxK t k a d => some (32, place 0x9800009 [(t, 29), (k, 15), (a, 11), (d, 7)])
  | .minnK t k a d => some (32, place 0xA000009 [(t, 29), (k, 15), (a, 11), (d, 7)])
  | .maxnK t k a d => some (32, place 0xA800009 [(t, 29), (k, 15), (a, 11), (d, 7)])
  | .sltK t k a d => some (32, place 0xB000009 [(t, 29), (k, 15), (a, 11), (d, 7)])
  | .sltnK t k a d => some (32, place 0xB800009 [(t, 29), (k, 15), (a, 11), (d, 7)])
  | .ldk t k d => some (32, place 0x1F800009 [(t, 29), (k, 15), (d, 7)])
  | .ldk16 k d => some (16, place 0x2 [(k, 8), (d, 4)])
  | .bext w p a d => some (32, place 0xB [(w, 20), (p, 15), (a, 11), (d, 7)])
  | .bins w p a d => some (32, place 0x8000000B [(w, 20), (p, 15), (a, 11), (d, 7)])
  | .ld o sx z a d => some (32, place 0x11 [(o, 18), (sx, 17), (z, 15), (a, 11), (d, 7)])
  | .st o sx z a d => some (32, place 0x13 [(o, 18), (sx, 17), (z, 15), (a, 11), (d, 7)])
  | .ld3216 o a d => some (16, place 0xA [(o, 13), (a, 8), (d, 4)])
  | .st3216 o a d => some (16, place 0x100A [(o, 13), (a, 8), (d, 4)])
  | .push t a => some (32, place 0x15 [(t, 25), (a, 11)])
  | .pop t d => some (32, place 0x80015 [(t, 25), (d, 7)])
  | .beq o b a => some (32, place 0x19 [(o, 18), (b, 11), (a, 7)])
  | .bne o b a => some (32, place 0x8019 [(o, 18), (b, 11), (a, 7)])
  | .blt o b a => some (32, place 0x10019 [(o, 18), (b, 11), (a, 7)])
  | .bge o b a => some (32, place 0x18019 [(o, 18), (b, 11), (a, 7)])
  | .bltn o b a => some (32, place 0x20019 [(o, 18), (b, 11), (a, 7)])
  | .bgen o b a => some (32, place 0x28019 [(o, 18), (b, 11), (a, 7)])
  | .bz o a => some (32, place 0x30019 [(o, 18), (a, 7)])
  | .bnz o a => some (32, place 0x38019 [(o, 18), (a, 7)])
  | .bz16 o a => some (16, place 0x6 [(o, 9), (a, 4)])
  | .bnz16 o a => some (16, place 0x106 [(o, 9), (a, 4)])
  | .b o => some (32, place 0x1B [(o, 7)])
  | .b16 o => some (16, place 0x8 [(o, 4)])
  | .call o => some (32, place 0x1D [(o, 7)])
  | .loop o a => some (32, place 0x1F [(o, 18), (a, 7)])
  | .jr a => some (32, place 0x801F [(a, 7)])
  | .jalr a => some (32, place 0x1001F [(a, 7)])
  | .ctlGet w n d => some (32, place 0x21 [(w, 29), (n, 15), (d, 7)])
  | .ctlSet w n a => some (32, place 0x800021 [(w, 29), (n, 15), (a, 11)])
  | .extSet a d => some (32, place 0x1000021 [(a, 11), (d, 7)])
  | .extGet a d => some (32, place 0x1800021 [(a, 11), (d, 7)])
  | .brk n => some (32, place 0x1F800021 [(n, 15)])
  | .vectorPrefix c r z m => some (32, place 0x3D [(c, 14), (r, 11), (z, 10), (m, 7)])
  | .vadd v t b a d => some (32, place 0x2D [(v, 29), (t, 25), (b, 15), (a, 11), (d, 7)])
  | .vsub v t b a d => some (32, place 0x8002D [(v, 29), (t, 25), (b, 15), (a, 11), (d, 7)])
  | .vmul t b a d => some (32, place 0x10002D [(t, 25), (b, 15), (a, 11), (d, 7)])
  | .vfma t b a d => some (32, place 0x18002D [(t, 25), (b, 15), (a, 11), (d, 7)])
  | .vfms t b a d => some (32, place 0x20002D [(t, 25), (b, 15), (a, 11), (d, 7)])
  | .vfnma t b a d => some (32, place 0x28002D [(t, 25), (b, 15), (a, 11), (d, 7)])
  | .vmin t b a d => some (32, place 0x30002D [(t, 25), (b, 15), (a, 11), (d, 7)])
  | .vmax t b a d => some (32, place 0x38002D [(t, 25), (b, 15), (a, 11), (d, 7)])
  | .vabs v t a d => some (32, place 0x40002D [(v, 29), (t, 25), (a, 11), (d, 7)])
  | .vneg v t a d => some (32, place 0x48002D [(v, 29), (t, 25), (a, 11), (d, 7)])
  | .vand t b a d => some (32, place 0x2F [(t, 25), (b, 15), (a, 11), (d, 7)])
  | .vor t b a d => some (32, place 0x8002F [(t, 25), (b, 15), (a, 11), (d, 7)])
  | .vxor t b a d => some (32, place 0x10002F [(t, 25), (b, 15), (a, 11), (d, 7)])
  | .vandn t b a d => some (32, place 0x18002F [(t, 25), (b, 15), (a, 11), (d, 7)])
  | .vshl v t b a d => some (32, place 0x20002F [(v, 29), (t, 25), (b, 15), (a, 11), (d, 7)])
  | .vshr v t b a d => some (32, place 0x28002F [(v, 29), (t, 25), (b, 15), (a, 11), (d, 7)])
  | .vsra v t b a d => some (32, place 0x30002F [(v, 29), (t, 25), (b, 15), (a, 11), (d, 7)])
  | .vcmp c t b a d => some (32, place 0x31 [(c, 29), (t, 25), (b, 15), (a, 11), (d, 7)])
  | .vsel m t b a d => some (32, place 0x80031 [(m, 29), (t, 25), (b, 15), (a, 11), (d, 7)])
  | .vcvt p sx t b a d => some (32, place 0x33 [(p, 30), (sx, 29), (t, 25), (b, 15), (a, 11), (d, 7)])
  | .vmov t a d => some (32, place 0x35 [(t, 25), (a, 11), (d, 7)])
  | .vsplat t a d => some (32, place 0x80035 [(t, 25), (a, 11), (d, 7)])
  | .vbcast h t j a d => some (32, place 0x100035 [(h, 29), (t, 25), (j, 15), (a, 11), (d, 7)])
  | .vperm t b a d => some (32, place 0x180035 [(t, 25), (b, 15), (a, 11), (d, 7)])
  | .vrot h t j a d => some (32, place 0x200035 [(h, 29), (t, 25), (j, 15), (a, 11), (d, 7)])
  | .vzip v t b a d => some (32, place 0x280035 [(v, 29), (t, 25), (b, 15), (a, 11), (d, 7)])
  | .vunzip v t b a d => some (32, place 0x300035 [(v, 29), (t, 25), (b, 15), (a, 11), (d, 7)])
  | .vred v t a d => some (32, place 0x380035 [(v, 29), (t, 25), (a, 11), (d, 7)])
  | .vdot t b a d => some (32, place 0x400035 [(t, 25), (b, 15), (a, 11), (d, 7)])
  | .vld h t o a d => some (32, place 0x37 [(h, 29), (t, 25), (o, 15), (a, 11), (d, 7)])
  | .vst h t o a d => some (32, place 0x80037 [(h, 29), (t, 25), (o, 15), (a, 11), (d, 7)])
  | .vldp t a d => some (32, place 0x100037 [(t, 25), (a, 11), (d, 7)])
  | .vstp t a d => some (32, place 0x180037 [(t, 25), (a, 11), (d, 7)])
  | .vgath t b a d => some (32, place 0x200037 [(t, 25), (b, 15), (a, 11), (d, 7)])
  | .vscat t b a d => some (32, place 0x280037 [(t, 25), (b, 15), (a, 11), (d, 7)])
  | .vfnExp2 t a d => some (32, place 0x39 [(t, 25), (a, 11), (d, 7)])
  | .vfnExp t a d => some (32, place 0x80039 [(t, 25), (a, 11), (d, 7)])
  | .vfnLog2 t a d => some (32, place 0x100039 [(t, 25), (a, 11), (d, 7)])
  | .vfnLog t a d => some (32, place 0x180039 [(t, 25), (a, 11), (d, 7)])
  | .vfnRcp t a d => some (32, place 0x200039 [(t, 25), (a, 11), (d, 7)])
  | .vfnRsqrt t a d => some (32, place 0x280039 [(t, 25), (a, 11), (d, 7)])
  | .vfnSqrt t a d => some (32, place 0x300039 [(t, 25), (a, 11), (d, 7)])
  | .vfnSin t a d => some (32, place 0x380039 [(t, 25), (a, 11), (d, 7)])
  | .vfnCos t a d => some (32, place 0x400039 [(t, 25), (a, 11), (d, 7)])
  | .vfnTanh t a d => some (32, place 0x480039 [(t, 25), (a, 11), (d, 7)])
  | .vfnSigmoid t a d => some (32, place 0x500039 [(t, 25), (a, 11), (d, 7)])
  | .vfnErf t a d => some (32, place 0x580039 [(t, 25), (a, 11), (d, 7)])
  | .vexpr e t b a d => some (32, place 0x800039 [(e, 29), (t, 25), (b, 15), (a, 11), (d, 7)])
  | .sopAdd v t b a d => some (32, place 0x3B [(v, 29), (t, 25), (b, 15), (a, 11), (d, 7)])
  | .sopSub v t b a d => some (32, place 0x8003B [(v, 29), (t, 25), (b, 15), (a, 11), (d, 7)])
  | .sopMul t b a d => some (32, place 0x10003B [(t, 25), (b, 15), (a, 11), (d, 7)])
  | .sopFma w t b a d => some (32, place 0x18003B [(w, 29), (t, 25), (b, 15), (a, 11), (d, 7)])
  | .sopMin t b a d => some (32, place 0x20003B [(t, 25), (b, 15), (a, 11), (d, 7)])
  | .sopMax t b a d => some (32, place 0x28003B [(t, 25), (b, 15), (a, 11), (d, 7)])
  | .sopCvt sx t b a d => some (32, place 0x30003B [(sx, 29), (t, 25), (b, 15), (a, 11), (d, 7)])
  | .mand b a d => some (32, place 0x80003B [(b, 15), (a, 11), (d, 7)])
  | .mor b a d => some (32, place 0x88003B [(b, 15), (a, 11), (d, 7)])
  | .mxor b a d => some (32, place 0x90003B [(b, 15), (a, 11), (d, 7)])
  | .mnot a d => some (32, place 0x98003B [(a, 11), (d, 7)])
  | .mpop t a d => some (32, place 0xA0003B [(t, 25), (a, 11), (d, 7)])
  | .mfirst t a d => some (32, place 0xA8003B [(t, 25), (a, 11), (d, 7)])
  | .mset a d => some (32, place 0xB0003B [(a, 11), (d, 7)])
  | .ckMk m t a d => some (32, place 0x41 [(m, 28), (t, 25), (a, 11), (d, 7)])
  | .ckAx t ix a d => some (32, place 0x80041 [(t, 25), (ix, 15), (a, 11), (d, 7)])
  | .ckAdd m t b a d => some (32, place 0x100041 [(m, 28), (t, 25), (b, 15), (a, 11), (d, 7)])
  | .ckSub m t b a d => some (32, place 0x180041 [(m, 28), (t, 25), (b, 15), (a, 11), (d, 7)])
  | .ckCmp t b a d => some (32, place 0x200041 [(t, 25), (b, 15), (a, 11), (d, 7)])
  | .ckDom t b a d => some (32, place 0x280041 [(t, 25), (b, 15), (a, 11), (d, 7)])
  | .ckInbox t b a d => some (32, place 0x300041 [(t, 25), (b, 15), (a, 11), (d, 7)])
  | .ckNext m t b a d => some (32, place 0x380041 [(m, 28), (t, 25), (b, 15), (a, 11), (d, 7)])
  | .ckPrev m t b a d => some (32, place 0x400041 [(m, 28), (t, 25), (b, 15), (a, 11), (d, 7)])
  | .ckClip m t b a d => some (32, place 0x480041 [(m, 28), (t, 25), (b, 15), (a, 11), (d, 7)])
  | .ckChk t a d => some (32, place 0x500041 [(t, 25), (a, 11), (d, 7)])
  | .ckSplit m t b a d => some (32, place 0x43 [(m, 28), (t, 25), (b, 15), (a, 11), (d, 7)])
  | .vckAdd m t b a d => some (32, place 0x80043 [(m, 28), (t, 25), (b, 15), (a, 11), (d, 7)])
  | .spawn a d => some (32, place 0x23 [(a, 11), (d, 7)])
  | .spawnBox f c b a d => some (32, place 0x800023 [(f, 29), (c, 18), (b, 15), (a, 11), (d, 7)])
  | .park a d => some (32, place 0x1000023 [(a, 11), (d, 7)])
  | .pauseW a d => some (32, place 0x2800023 [(a, 11), (d, 7)])
  | .gangForm n d => some (32, place 0x3800023 [(n, 15), (d, 7)])
  | .emit n => some (32, place 0x25 [(n, 15)])
  | .emit16 n => some (16, place 0x4C [(n, 8)])
  | .emitV n a => some (32, place 0x800025 [(n, 15), (a, 11)])
  | .test n d => some (32, place 0x1000025 [(n, 15), (d, 7)])
  | .tval n d => some (32, place 0x1800025 [(n, 15), (d, 7)])
  | .cant n => some (32, place 0x2000025 [(n, 15)])
  | .rgAbort n a => some (32, place 0x27 [(n, 15), (a, 11)])
  | .rgAborts n a => some (32, place 0x800027 [(n, 15), (a, 11)])
  | .rgSusp n => some (32, place 0x1000027 [(n, 15)])
  | .barInit sx ix a => some (32, place 0x29 [(sx, 22), (ix, 15), (a, 11)])
  | .barArr sx ix d => some (32, place 0x800029 [(sx, 22), (ix, 15), (d, 7)])
  | .barWait sx ix a => some (32, place 0x1000029 [(sx, 22), (ix, 15), (a, 11)])
  | .barArrw sx ix d => some (32, place 0x1800029 [(sx, 22), (ix, 15), (d, 7)])
  | .ctrWait a d => some (32, place 0x2B [(a, 11), (d, 7)])
  | .qPut q a d => some (32, place 0x80002B [(q, 15), (a, 11), (d, 7)])
  | .qPoll q d => some (32, place 0x100002B [(q, 15), (d, 7)])
  | .qPollNb q a d => some (32, place 0x2100002B [(q, 15), (a, 11), (d, 7)])
  | .gld o sx z a d => some (32, place 0x45 [(o, 18), (sx, 17), (z, 15), (a, 11), (d, 7)])
  | .gst o sx z a d => some (32, place 0x47 [(o, 18), (sx, 17), (z, 15), (a, 11), (d, 7)])
  | .gldHome h k a d => some (32, place 0x80004B [(h, 25), (k, 18), (a, 11), (d, 7)])
  | .gstHome h k a d => some (32, place 0xA0004B [(h, 25), (k, 18), (a, 11), (d, 7)])
  | .sld w b a d => some (32, place 0x4000049 [(w, 25), (b, 15), (a, 11), (d, 7)])
  | .sst w b a d => some (32, place 0x4080049 [(w, 25), (b, 15), (a, 11), (d, 7)])
  | .amoAdd m sx w b a d => some (32, place 0x400049 [(m, 28), (sx, 26), (w, 25), (b, 15), (a, 11), (d, 7)])
  | .amoAnd m sx w b a d => some (32, place 0x480049 [(m, 28), (sx, 26), (w, 25), (b, 15), (a, 11), (d, 7)])
  | .amoOr m sx w b a d => some (32, place 0x500049 [(m, 28), (sx, 26), (w, 25), (b, 15), (a, 11), (d, 7)])
  | .amoXor m sx w b a d => some (32, place 0x580049 [(m, 28), (sx, 26), (w, 25), (b, 15), (a, 11), (d, 7)])
  | .amoMin m sx w b a d => some (32, place 0x600049 [(m, 28), (sx, 26), (w, 25), (b, 15), (a, 11), (d, 7)])
  | .amoMax m sx w b a d => some (32, place 0x680049 [(m, 28), (sx, 26), (w, 25), (b, 15), (a, 11), (d, 7)])
  | .amoMinn m sx w b a d => some (32, place 0x700049 [(m, 28), (sx, 26), (w, 25), (b, 15), (a, 11), (d, 7)])
  | .amoMaxn m sx w b a d => some (32, place 0x780049 [(m, 28), (sx, 26), (w, 25), (b, 15), (a, 11), (d, 7)])
  | .amoSwap m sx w b a d => some (32, place 0x800049 [(m, 28), (sx, 26), (w, 25), (b, 15), (a, 11), (d, 7)])
  | .amoCas m sx w b a d => some (32, place 0x880049 [(m, 28), (sx, 26), (w, 25), (b, 15), (a, 11), (d, 7)])
  | .wait c w b a d => some (32, place 0xC00049 [(c, 28), (w, 25), (b, 15), (a, 11), (d, 7)])
  | .fence sx k => some (32, place 0x4B [(sx, 27), (k, 25)])
  | .pref l a => some (32, place 0x4004B [(l, 25), (a, 11)])
  | .cln a => some (32, place 0x8004B [(a, 11)])
  | .inv a => some (32, place 0xC004B [(a, 11)])
  | .cpSend r p f e a d => some (32, place 0x4D [(r, 27), (p, 26), (f, 25), (e, 15), (a, 11), (d, 7)])
  | .cpPut r p f e a d => some (32, place 0x4004D [(r, 27), (p, 26), (f, 25), (e, 15), (a, 11), (d, 7)])
  | .cpRl r p f e a d => some (32, place 0x8004D [(r, 27), (p, 26), (f, 25), (e, 15), (a, 11), (d, 7)])
  | .cpHalo r p f e a d => some (32, place 0xC004D [(r, 27), (p, 26), (f, 25), (e, 15), (a, 11), (d, 7)])
  | .mxCfg e => some (32, place 0x4F [(e, 15)])
  | .mxMm f e a d => some (32, place 0x4004F [(f, 25), (e, 15), (a, 11), (d, 7)])
  | .mcPost n f e a d => some (32, place 0x8004F [(n, 26), (f, 25), (e, 15), (a, 11), (d, 7)])
  | .jobFence q => some (32, place 0x51 [(q, 15)])
  | .mclTake a d => some (32, place 0x53 [(a, 11), (d, 7)])
  | .mclRead sx a d => some (32, place 0x40053 [(sx, 25), (a, 11), (d, 7)])
  | .mclPush r e a => some (32, place 0x80053 [(r, 25), (e, 15), (a, 11)])
  | .wsSwOut a d => some (32, place 0x55 [(a, 11), (d, 7)])
  | .wsSwIn a d => some (32, place 0x20000055 [(a, 11), (d, 7)])
  | .eret a => some (32, place 0x800055 [(a, 11)])
  | .eretKill a => some (32, place 0x808055 [(a, 11)])
  | .sysc n => some (32, place 0x1000055 [(n, 15)])
  | .trap n a => some (32, place 0x1800055 [(n, 15), (a, 11)])
  | .tlbInv m a d => some (32, place 0x2000055 [(m, 15), (a, 11), (d, 7)])
  | .fqTake a d => some (32, place 0x2800055 [(a, 11), (d, 7)])
  | .fqTakeNb a d => some (32, place 0x22800055 [(a, 11), (d, 7)])
  | .fqDone n a => some (32, place 0x3000055 [(n, 15), (a, 11)])
  | .wipeSec a d => some (32, place 0x4000055 [(a, 11), (d, 7)])
  | .ret => some (32, place 0x1801F [])
  | .nop => some (32, place 0x1F000021 [])
  | .nop16 => some (16, place 0xC [])
  | .halt => some (32, place 0x1800023 [])
  | .halt16 => some (16, place 0x2C [])
  | .pause => some (32, place 0x2000023 [])
  | .pause16 => some (16, place 0x1C [])
  | .yield => some (32, place 0x3000023 [])
  | .yield16 => some (16, place 0x3C [])
  | .gangEnd => some (32, place 0x4000023 [])
  | .cantAll => some (32, place 0x22000025 [])
  | .rgEnd => some (32, place 0x1800027 [])
  | .invAll => some (32, place 0x20C004B [])
  | .mclDone => some (32, place 0xC0053 [])
  | .idle => some (32, place 0x3800055 [])
  | .pendingTrap => none
  | .writeBufferRetire => none
  | .roundSample => none
  | .roundResult => none
  | .instantBoundary => none
  | .instantOpen => none
  | .instantLimitExpiry => none
  | .uncorrectableError => none
  | .recordHeld => none
  | .distributorSelect => none
  | .recordBind => none
  | .coLaunchPlacement => none
  | .watchEntryResume => none
  | .gangFormed => none
  | .barrierApply => none
  | .barrierRelease => none
  | .queueWordLand => none
  | .qPutRetry => none
  | .ctrReadReturn => none
  | .ctrWaitWake => none
  | .slotFreeAfterDrain => none
  | .idleWake => none
  | .depositApply => none
  | .globalLoadArrival => none
  | .l1Fill => none
  | .prefFill => none
  | .storeAck => none
  | .tagRoomResume => none
  | .loadAfterStoreAck => none
  | .soAccessStart => none
  | .fenceReleaseDone => none
  | .waitWakeOnWrite => none
  | .waitTimeout => none
  | .mshrReissue => none
  | .walkStart => none
  | .tlbWalkFill => none
  | .migRewalk => none
  | .dirtyReread => none
  | .tlbInvDone => none
  | .wsSwDone => none
  | .jobEntryTake => none
  | .copySectorTurn => none
  | .copyDepositLand => none
  | .copyFaultPost => none
  | .jobCompletion => none
  | .gatherRequestArrive => none
  | .gatherReadDone => none
  | .pinGranted => none
  | .tileFetch => none
  | .tileStart => none
  | .tileDone => none
  | .baristaRingEnter => none
  | .mclReadDone => none
  | .baristaPushArrive => none
  | .baristaRequestTimeout => none
  | .baristaStart => none
  | .faultPost => none
  | .faultEntryResume => none
  | .faultRequesterRelease => none
  | .copyReplay => none
  | .tokenRequestReceive => none
  | .tokenMessageReceive => none
  | .requestReissue => none
  | .moduleRoundSample => none
  | .moduleRoundResult => none
  | .atomicRequestReceive => none
  | .nackReceive => none
  | .move => none
  | .releaseMovedMarks => none
  | .moveLineStep => none
  | .launchQueueTail => none
  | .launchQueueTake => none
  | .launch => none
  | .release => none
  | .evict => none
  | .evictSave => none
  | .restore => none
  | .inject => none
  | .dieWipeComplete => none
  | .hostTlbInvalidate => none
  | .hostTlbInvDone => none
  | .hostDramWrite => none
  | .hostDramRead => none
  | .hostPoolWrite => none
  | .hostPoolRead => none
  | .hostBaristaWrite => none
  | .registerWrite => none
  | .peerLaunchWrite => none
  | .haloWrite => none
  | .qpDoorbell => none
  | .cqDoorbell => none
  | .setModuleNumber => none
  | .writeAccessControl => none
  | .setPowerLimit => none
  | .setClock => none
  | .clockChangeDone => none
  | .readTelemetry => none
  | .getMeasurements => none
  | .firmwareUpdate => none
  | .lifecycleTransition => none
  | .coldReset => none
  | .warmReset => none
  | .wipeComplete => none
  | .powerEstimate => none
  | .unallocatedOpcode => none
  | .emulMajor => none
  | .fetchBeyondCodeImage => none
  | .linkTraining => none
  | .linkUp => none

end Sys2Proof
end

