-- ==== Sys2Proof/Machine/Bytes.lean ====
section
/-!
DEFINITION. Bytes: memory as a sorted list of cells, tables of units, fields of words (00 R12, 01 R17).
-/

namespace Sys2Proof.Machine

/-- The byte at an address; a byte that is not listed is zero (log 5). -/
def Memory.get : Mem → Nat → Byte
  | [], _ => 0
  | c :: m, a => if c.1 = a then c.2 else Memory.get m a

/-- The memory with a cell placed in the order of addresses. -/
def Memory.place : Mem → Nat → Byte → Mem
  | [], a, v => [(a, v)]
  | c :: m, a, v =>
    if a < c.1 then (a, v) :: c :: m
    else if a = c.1 then (a, v) :: m
    else c :: Memory.place m a v

/-- The memory with one byte written, in canonical form: a zero byte is not listed. -/
def Memory.put (m : Mem) (a : Nat) (v : Byte) : Mem :=
  if v = 0 then m.filter (fun c => decide (c.1 ≠ a)) else Memory.place m a v

/-- The n bytes from an address as a number, little-endian (R12). -/
def Memory.read (m : Mem) : Nat → Nat → Nat
  | _, 0 => 0
  | a, n + 1 => (Memory.get m a).toNat + 256 * Memory.read m (a + 1) n

/-- The low n bytes of a number written from an address, little-endian (R12). -/
def Memory.write : Mem → Nat → Nat → Nat → Mem
  | m, _, 0, _ => m
  | m, a, n + 1, v => Memory.write (Memory.put m a (BitVec.ofNat 8 v)) (a + 1) n (v / 256)

/-- Addresses strictly rise from lo and no byte listed is zero: the canonical form. -/
def Memory.wfFrom : Nat → Mem → Bool
  | _, [] => true
  | lo, c :: m => decide (lo ≤ c.1) && decide (c.2 ≠ 0) && Memory.wfFrom (c.1 + 1) m

/-- The canonical form of a memory. -/
def Memory.wf (m : Mem) : Bool := Memory.wfFrom 0 m

/-- The bytes of a list written from an address. -/
def Memory.writeBytes : Mem → Nat → List Byte → Mem
  | m, _, [] => m
  | m, a, b :: bs => Memory.writeBytes (Memory.put m a b) (a + 1) bs

/-- The n bytes from an address, lowest first. -/
def Memory.bytes (m : Mem) : Nat → Nat → List Byte
  | _, 0 => []
  | a, n + 1 => Memory.get m a :: Memory.bytes m (a + 1) n

/-- A memory without its cells in a range of addresses [lo, hi). -/
def Memory.clear (m : Mem) (lo hi : Nat) : Mem := m.filter fun c => decide (c.1 < lo) || decide (hi ≤ c.1)

/-- The cells of a memory in [lo, hi), moved down by lo. -/
def Memory.slice (m : Mem) (lo hi : Nat) : Mem :=
  (m.filter fun c => decide (lo ≤ c.1) && decide (c.1 < hi)).map fun c => (c.1 - lo, c.2)

/-- The cells of a memory written over another, moved up by an offset. -/
def Memory.overlay (m : Mem) (off : Nat) (src : Mem) : Mem :=
  src.foldl (fun m c => Memory.put m (off + c.1) c.2) m

/-- The unit of a number, or its value after reset. -/
def Table.get {α : Type} (d : α) : Table α → Nat → α
  | [], _ => d
  | c :: t, k => if c.1 = k then c.2 else Table.get d t k

/-- The unit of a number, if one is listed. -/
def Table.find {α : Type} : Table α → Nat → Option α
  | [], _ => none
  | c :: t, k => if c.1 = k then some c.2 else Table.find t k

/-- The table with one unit replaced or added, in increasing order. -/
def Table.set {α : Type} : Table α → Nat → α → Table α
  | [], k, v => [(k, v)]
  | c :: t, k, v =>
    if k < c.1 then (k, v) :: c :: t
    else if k = c.1 then (k, v) :: t
    else c :: Table.set t k v

/-- The table without one number. -/
def Table.erase {α : Type} (t : Table α) (k : Nat) : Table α := t.filter fun c => decide (c.1 ≠ k)

/-- The element of a list, or a default. -/
def nth {α : Type} (d : α) : List α → Nat → α
  | [], _ => d
  | a :: _, 0 => a
  | _ :: l, n + 1 => nth d l n

/-- The list with an element replaced, made long enough with the default. -/
def setNth {α : Type} (d : α) : List α → Nat → α → List α
  | [], 0, v => [v]
  | [], n + 1, v => d :: setNth d [] n v
  | _ :: l, 0, v => v :: l
  | a :: l, n + 1, v => a :: setNth d l n v

/-- Bit i of a number. -/
def bit (v i : Nat) : Bool := v / 2 ^ i % 2 == 1

/-- A number with the n bits from lo replaced (R12). -/
def setFld (v lo n x : Nat) : Nat := v - fld v lo n * 2 ^ lo + x % 2 ^ n * 2 ^ lo

/-- The signed value s(P) of an n-bit pattern (R89). -/
def sgn (n v : Nat) : Int := if v < 2 ^ (n - 1) then (v : Int) else (v : Int) - (2 : Int) ^ n

/-- The n-bit pattern congruent to an integer (R89). -/
def pat (n : Nat) (i : Int) : Nat := (i % (2 : Int) ^ n).toNat

/-- Sign extension of an n-bit pattern to m bits. -/
def sext (n m v : Nat) : Nat := if v % 2 ^ n < 2 ^ (n - 1) then v % 2 ^ n else v % 2 ^ n + (2 ^ m - 2 ^ n)

/-- The number of 1 for true, 0 for false. -/
def b2n (b : Bool) : Nat := if b then 1 else 0

/-- Numbers 0 to n - 1. -/
def upTo (n : Nat) : List Nat := List.range n

/-- The place of the highest set bit, plus one; 0 for zero. -/
def bitLen (v : Nat) : Nat := if v = 0 then 0 else Nat.log2 v + 1

/-- Count of set bits below n. -/
def popCount (n v : Nat) : Nat := (upTo n).foldl (fun k i => k + v / 2 ^ i % 2) 0

/-- The lowest set bit below n, or n. -/
def lowBit (n v : Nat) : Nat := ((upTo n).find? fun i => bit v i).getD n

/-- A number without repeats at the end of a list. -/
def addNew (l : List Nat) (n : Nat) : List Nat := if l.contains n then l else l ++ [n]

/-- The distinct numbers of a list, in order. -/
def distinct (l : List Nat) : List Nat := l.foldl addNew []

end Sys2Proof.Machine
end

