-- ==== Sys2Proof/Machine/State.lean ====
section
/-!
DEFINITION. State: the state the manual gives the module, as plain data, and the state after a cold reset (22 R402). Units that no
step has changed are not listed: a table that lacks a number stands for the unit's value after reset. A memory is a sorted list of
cells; a byte it does not list is zero, as the wipe of every reset leaves it (R402).
-/

namespace Sys2Proof.Machine

/-- Stops that are not behaviour of the device. -/
inductive Fault where
  /-- Raised by step when no event is left: nothing more can happen until the host acts. Safe: the device waits, the model stops. -/
  | idle
  /-- Raised by the meaning of an event that names something which does not exist, an access in flight for example. No such step is
  scheduled by the model itself. Safe: the model stops where the device has no step. -/
  | noSuchEvent
deriving DecidableEq, Repr

/-- Instructions without a meaning. -/
inductive Refusal where
  /-- Raised by an arm of exec whose instruction has no meaning yet. Safe: the model stops. -/
  | notModelled (mnemonic : String)
deriving DecidableEq, Repr

/-- The units or numbers an event concerns: MODEL'S OWN, since the rows of the events have no field. -/
structure Args where
  a : Nat := 0
  b : Nat := 0
  c : Nat := 0
  d : Nat := 0
deriving DecidableEq, Repr

/-- What an entry of the agenda does. -/
inductive Item where
  /-- An event, with the units it concerns. -/
  | ev (i : Instr) (x : Args)
  /-- A core or barista issues. -/
  | issue (core : Nat)
deriving DecidableEq, Repr

/-- A step that is due: MODEL'S OWN, for the times the manual gives. time is 4 times the cycle plus the phase: 0 the start of the
cycle, 1 issue, 2 the end of the cycle, 3 after it. tie orders entries of one time. -/
structure Entry where
  time : Nat
  tie : Nat
  item : Item
deriving DecidableEq, Repr

/-- A trap: cause and subcode of Table 18.1, INFO of Table 18.4; fetch marks a trap of the fetch (R90, R336), pfxOnly one that
belongs to the prefix alone (R336). -/
structure Trap where
  cause : Nat
  sub : Nat
  info : Nat := 0
  fetch : Bool := false
  pfxOnly : Bool := false
deriving DecidableEq, Repr

/-- What a slot of a core holds beside its bytes of local memory (R161 to R164, R177). -/
structure Slot where
  /-- A task is resident (R161); it stays true for a halted task until the slot is freed (R202). -/
  live : Bool := false
  /-- PC of the task (R65, R161). -/
  pc : Nat := 0
  /-- TASK and TILE (R163). -/
  task : Nat := 0
  tile : Nat := 0
  /-- MAYEMIT (R177). -/
  may : SigSet := 0
  /-- The instruction the task is blocked in (R194, R406); none in the check stage of a region (R189). -/
  blockedIn : Option Instr := none
  /-- Operands of that instruction read at issue: ticket, threshold, target tag, deadline (R193, R194). -/
  opA : Nat := 0
  opB : Nat := 0
  /-- Record that a spawn, spawn.box or park in progress writes, as read at issue (R193, R200), and the keys still to be written with the
  task number of each (R199). -/
  img : Mem := []
  keys : List (Nat × Nat) := []
  /-- Region entry the check stage examines (R189). -/
  check : Nat := 0
  /-- Operations outstanding into the workspace (R200, R202). -/
  outst : Nat := 0
  /-- First cycle in which the task may issue (R167, R194). -/
  readyAt : Nat := 0
  /-- Selected by the distributor for a record that is not bound yet (R173). -/
  reserved : Bool := false
  /-- Bound and not yet issued (R180). -/
  fresh : Bool := false
  /-- A wake-up in flight (R180). -/
  wake : Bool := false
  /-- Waits in pause.w on the counter opA for the threshold opB, holding a watch entry; the condition held at the boundary (R203). -/
  pauseW : Bool := false
  pauseMet : Bool := false
  /-- First core and size of the co-launched set the task was bound with; size 0 for none (R174, R224). -/
  setBase : Nat := 0
  setSize : Nat := 0
  /-- Trap pending delivery (R338), with its REPORT (R336). -/
  trap : Option Trap := none
  report : SigSet := 0
deriving DecidableEq, Repr

/-- One of the queue registers q0 to q3 of a core: words that landed, oldest first, the count of entries reserved for words in flight,
the owner slot (R217 to R220). -/
structure QueueReg where
  words : List Nat := []
  reserved : Nat := 0
  /-- Entry freed at the end of this cycle is free from the next (R218). -/
  freedAt : Option Nat := none
  owner : Option Nat := none
deriving DecidableEq, Repr

/-- A job in a queue of a core, or a barista request (R283 to R292, R304, R309). -/
structure Job where
  /-- Instruction: cp.send 0, cp.put 1, cp.rl 2, cp.halo 3, mx.mm 4, mc.post 5; identifier (R285); issuing core; its domain number. -/
  kind : Nat := 0
  id : Nat := 0
  core : Nat := 0
  dom : Nat := 0
  /-- Descriptors and increment as they stood at issue (R309); for mx.mm the configuration follows (R318). -/
  desc : List Nat := []
  inc : Nat := 0
  /-- Flags: free-running, progress counting, transposed (R310, R311); privilege of the issuing task. -/
  free : Bool := false
  prog : Bool := false
  tr : Bool := false
  priv : Bool := false
  /-- Jobs that must have completed before it starts, by queue (R290, R324). -/
  after : List (Nat × Nat) := []
  started : Bool := false
  /-- First cycle in which its unit may begin it (R298). -/
  since : Nat := 0
  /-- Sector or tile to start next, their count, those in flight; payload bytes acknowledged (R288, R293). -/
  next : Nat := 0
  total : Nat := 0
  inFlight : Nat := 0
  done_ : Nat := 0
  /-- Sector that met a recoverable fault and is not posted yet, with its address; pages posted (R289, R355); sectors held, and
  released sectors to replay. -/
  fault : Option (Nat × Nat) := none
  pages : List Nat := []
  held : List Nat := []
  replay : List Nat := []
  /-- Error code and address (Table 14.1); the completion is due. -/
  error : Nat := 0
  errVa : Nat := 0
  ending : Bool := false
  /-- Range list of cp.rl, or keys of a slab with their ranks (R296, R297). -/
  keys : List (Nat × Nat) := []
  /-- Source rows read, latest first: the row, the half-bytes of it that the stream has used, its bytes; a matrix job keeps whole rows of
  its operands (R294, R322, R356). -/
  rows : List (Nat × Nat × Nat) := []
deriving DecidableEq, Repr

/-- Bytes on their way: to local memory of a core (0), a die pool (1), global memory (2) or a peer (3); unit and address, bytes. -/
structure Wr where
  kind : Nat := 0
  unit : Nat := 0
  addr : Nat := 0
  data : List Byte := []
  /-- 1 or 2 where only the low or the high four bits of the one byte are written (R294). -/
  half : Nat := 0
deriving DecidableEq, Repr

/-- A sector, gather, push or tile result in flight (R295 to R299, R305): the job it belongs to and its writes, in order, each with the
cycle it lands in, the frames of its pages, each with its HOME; a progress add is one of its own (R286). -/
structure Flight where
  core : Nat := 0
  queue : Nat := 0
  jobId : Nat := 0
  sector : Nat := 0
  bytes : Nat := 0
  /-- It is the progress add of a sector, whose bytes are acknowledged (R286). -/
  prog : Bool := false
  writes : List (Nat × Wr) := []
  /-- Pieces of a gather: virtual address, destination, bytes (R296). -/
  gather : List (Nat × Nat × Nat) := []
  /-- Its pages are being translated (R240); the accesses of it that have not ended: translations, reads or writes. -/
  trans : Bool := false
  wait : List Nat := []
  frames : List (Nat × Nat × Nat) := []
deriving DecidableEq, Repr

/-- A tile that is being fetched, waits to start or runs (R299 to R302): its lane and job, its index, the lines still to pin by set, the
lines pinned, the frames of the pages of its operands, the first cycle in which its rows are held; how far its fetch is (0 translating,
1 pinning, 2 fetching sectors) and the accesses it waits for. -/
structure Tile where
  lane : Nat := 0
  job : Nat := 0
  index : Nat := 0
  todo : List (List Nat) := []
  pins : List Nat := []
  frames : List (Nat × Nat × Nat) := []
  /-- The operand rows are held, from a cycle on. -/
  ready : Bool := false
  at_ : Nat := 0
  stage : Nat := 0
  wait : List Nat := []
deriving DecidableEq, Repr

/-- A core or a barista: everything it holds beside the fields of its rod, frame and die. -/
structure Core where
  /-- Local memory (R17, R331); the registers of every workspace are bytes of it (R25, R26). -/
  lm : Mem := []
  /-- WSP (R31). -/
  wsp : Word := 0x400
  /-- LMSPILL, LMSCR, LML1 (R21). -/
  lmspill : Word := 0x6000
  lmscr : Word := 0x6000
  lml1 : Word := 0x6000
  /-- TVEC (R334). -/
  tvec : Word := 0
  /-- Carve-out size S in KiB (R24), as the launch gives it. -/
  carve : Nat := 0
  slots : List Slot := []
  /-- Rows in the write buffer, oldest first (R38), and the first cycle not yet accounted to it. -/
  buf : List Nat := []
  bufClock : Nat := 0
  /-- The row that the deposit port of each bank accepted last, with the cycle (R225). -/
  ports : List (Nat × Nat) := []
  /-- BANKSTALL0 to BANKSTALL2 (R41), SPILLREDIR (R35), PINBYPASS (R234). -/
  stall0 : Word := 0
  stall1 : Word := 0
  stall2 : Word := 0
  spillRedir : Word := 0
  pinBypass : Word := 0
  /-- WSEQ and WACK (R254); tags acknowledged beyond the prefix. -/
  wseq : BitVec 16 := 0
  wack : BitVec 16 := 0
  acked : List Nat := []
  /-- Lines written by tagged operations since the last system-scope release (R262). -/
  dirty : List Nat := []
  /-- L1: sector addresses of the blocks with the block each occupies, most recently used first (R229). -/
  l1 : List (Nat × Nat) := []
  /-- Sectors of blocks that a write of another core has overtaken: 1 it has, 2 something of another core has reached this core since, 3 R272
orders the later loads behind it (R272, R277, log 61). -/
  l1Age : List (Nat × Nat) := []
  /-- Times L1 was invalidated (R264). -/
  l1Gen : Nat := 0
  /-- q0 to q3 (R217). -/
  queues : List QueueReg := []
  /-- Copy, matrix and barista job queues (R283) and the counts of jobs posted and completed (R285). -/
  jobs : List (List Job) := []
  jobCount : List Nat := []
  jobDone : List Nat := []
  /-- What later jobs of each queue wait for (R324); slots blocked for an entry of each queue, in order, with the job as read at issue
  (R284, R309). -/
  fences : List (List (Nat × Nat)) := []
  jobWait : List (List (Nat × Job)) := []
  /-- CFG0 and CFG1 of the matrix engine (R317). -/
  cfg0 : DWord := 0x3F800000
  cfg1 : DWord := 0
  /-- Crema contribution of the open instant: PRES and VAL (R180, R206). -/
  pres : SigSet := 0
  val : List (Nat × Nat) := []
  /-- Instant-bound operations outstanding (R180). -/
  bound : Nat := 0
  /-- Gang: first core and size of the gang this core is a member of; size 0 for none (R175). -/
  gangBase : Nat := 0
  gangSize : Nat := 0
  /-- Slot whose trap is being served (R338). -/
  serving : Option Nat := none
  /-- Vector prefix word that has been fetched for the next instruction (R75). -/
  pfx : Option Nat := none
  /-- First cycle in which the core may issue again; the cycle of the issue that is on the agenda; whether the turn of the current
  task has ended (R40, R165). -/
  busy : Nat := 0
  armed : Option Nat := none
  moved : Bool := false
  /-- The clock of the core is stopped by idle (R340). -/
  stopped : Bool := false
  /-- Baristas only (R331): this unit is one, it runs, its ring of requests and its current request (R304, R305). -/
  bar : Bool := false
  running : Bool := false
  ring : List Job := []
  /-- An error code in it says that the device has ended it already (R328, R329). -/
  current : Option Job := none
  /-- Posts that wait for a place in the ring (R304). -/
  ringWait : List Job := []
  /-- Count of records taken, which names a time limit (R305). -/
  takes : Nat := 0
deriving DecidableEq, Repr

/-- The combined contributions of a round, or its result (Table 8.7). -/
structure Round where
  pres : SigSet := 0
  maye : SigSet := 0
  val : List (Nat × Nat) := []
  allp : Bool := true
  run : Bool := false
  outs : Bool := false
  tst : SigSet := 0
deriving DecidableEq, Repr

/-- A domain (R159, R160). -/
structure Domain where
  /-- Domain number (R19), die mask, translation root (R238), privileged tasks may use it so (R390). -/
  number : Nat := 0
  mask : Nat := 0
  root : Nat := 0
  /-- Code image as captured at launch and its length (R65). -/
  code : Mem := []
  codeLen : Nat := 0
  entry : Nat := 0
  /-- Number of the current instant, the cycle it opened in, the rounds sampled since (R163, R181). -/
  instant : Nat := 0
  opened : Nat := 0
  round : Nat := 0
  /-- Rounds sampled and not yet delivered, by number; the latest result (R181, R182). -/
  sampled : List (Nat × Round) := []
  result : Option Round := none
  /-- The instant is open: between its opening and the result that closes it (R184). -/
  isOpen : Bool := false
  /-- PRES of the instant that just closed, for the weak stage (R188). -/
  last : SigSet := 0
  /-- Combine operators of signals 0 to 15 (R176), instant limit (R192), next task number (R163). -/
  comb : List Nat := []
  limit : Nat := 0
  nextTask : Nat := 0
  /-- Held by signal 127 (R350); signals to inject at the next opening (R185, R393); signals injected in this instant. -/
  held : Bool := false
  inject : SigSet := 0
  injected : SigSet := 0
  /-- Carve-out size S in KiB (R24). -/
  carve : Nat := 0
  /-- Launch queue slot that started it, report address, priority of its records (R389 to R391). -/
  fn : Nat := 0
  report : Nat := 0
  start : Nat := 0
  /-- Ended: its dies are being wiped (R352, R391); evicted when the eviction waits for jobs (R351). -/
  ended : Bool := false
  /-- Cause, subcode, detecting core and signal set of a containment (R352, R391). -/
  cause : Nat := 0
  sub : Nat := 0
  cerrCore : Nat := 0
  cerrSet : SigSet := 0
  /-- Save address and report address of the eviction (R392). -/
  evicting : Option (Nat × Nat) := none
deriving DecidableEq, Repr

/-- A barrier: participants, arrivals, phase (R212). -/
structure Barrier where
  parts : Nat := 0
  arrivals : Nat := 0
  phase : Word := 0
deriving DecidableEq, Repr

/-- A translation as a TLB holds it (R239, R243, R244): the range of addresses it covers, its frame, the address and the level of its
leaf. -/
structure TlbEntry where
  va : Nat := 0
  size : Nat := 0
  frame : Nat := 0
  leaf : Nat := 0
  lev : Nat := 0
  kind : Nat := 0
  home : Nat := 0
  d : Bool := false
  g : Bool := false
  u : Bool := false
  w : Bool := false
  r : Bool := false
deriving DecidableEq, Repr

/-- What a rod holds: ROD.WEIGHT (14 Table 14.5), barriers 0 to 3 (R212), the micro-TLB, most recently used first (R243). -/
structure Rod where
  weight : Word := 0x11111111
  bars : List Barrier := []
  tlb : List TlbEntry := []
  /-- NTILES (14 Table 14.6). -/
  nTiles : BitVec 16 := 0
  /-- Copy unit: the lane served last, the first cycle of its next turn (R298). -/
  copyLane : Nat := 7
  copyFree : Nat := 0
  /-- Matrix engine: the lane visited, whether its visit is to begin, and the tiles left in a visit that has begun (R302, R332), the first
  cycle in which the array is free, the tile in fetch or ready, the tile that runs, whether a fetch waits for pins (R301). -/
  mxLane : Nat := 7
  mxNew : Bool := false
  mxLeft : Nat := 0
  mxFree : Nat := 0
  mxTile : Option Tile := none
  mxRuns : Option Tile := none
  mxWait : Bool := false
deriving DecidableEq, Repr

/-- A condition that is watched for (R170): the counter's offset in the pool, the threshold, and who waits: a condition of a record
(kind 0, record, condition), a slot in ctr.wait (kind 1, core, slot), a slot in pause.w (kind 2, core, slot). -/
structure Watch where
  off : Nat := 0
  thr : Nat := 0
  kind : Nat := 0
  die : Nat := 0
  a : Nat := 0
  b : Nat := 0
deriving DecidableEq, Repr

/-- A continuation record in use, beside its bytes in the pool (R166, R178, R198): 1 written, 2 waiting for conditions, 3 ready,
4 selected. -/
structure Rec where
  st : Nat := 0
  /-- The distributor holds it (R198). -/
  held : Bool := false
  may : SigSet := 0
  /-- Priority it was selected at (R173). -/
  prio : Nat := 0
  /-- Conditions not met, and those met by a set error bit (R169, R201). -/
  unmet : List Nat := []
  err : Nat := 0
  /-- Written by park (R201). -/
  park : Bool := false
  /-- Core whose spawn or park is instant-bound until it is held (R198). -/
  from_ : Nat := 0
  /-- Co-launched set: first core and size, 0 for none, and a number of its own (R174); the slot that is selected for the record (R173). -/
  setBase : Nat := 0
  setSize : Nat := 0
  set_ : Nat := 0
  slot : Nat := 0
deriving DecidableEq, Repr

/-- A line in the L2 of a die (R232 to R234, R358, R359): tokens, the owner token, valid bits of the sectors, bytes, pin count. -/
structure L2Line where
  tokens : Nat := 0
  owner : Bool := false
  valid : Nat := 0
  data : Mem := []
  pins : Nat := 0
  /-- Atomic history, with the owner token (R369). -/
  hist : List Nat := []
deriving DecidableEq, Repr

/-- What the home of a line keeps beside its bytes (R358, R353, R369, R371): tokens, owner token with the atomic history, a moved mark, a
poison mark; old while a die holds newer bytes, fresh the sectors it has received with a token since (R359, R368). -/
structure HomeLine where
  tokens : Nat := 64
  owner : Bool := true
  hist : List Nat := []
  old : Bool := false
  fresh : Nat := 0
  moved : Bool := false
  poison : Bool := false
deriving DecidableEq, Repr

/-- A token message (R359, R360): line, tokens, the owner token with its history, sectors carried and their bytes, the place it goes to
(a die, or 40 for the home). -/
structure Msg where
  line : Nat := 0
  tokens : Nat := 0
  owner : Bool := false
  hist : List Nat := []
  valid : Nat := 0
  data : Mem := []
  goal_ : Nat := 0
  from_ : Nat := 0
  /-- The home marks the line moved when it has it (R372). -/
  moved : Bool := false
deriving DecidableEq, Repr

/-- Kinds of global access (R250, R259, R261, R264), and of shared access (R258, R260); reads and writes of the units that are no task:
walkers, engines, baristas, move units, the host (R240, R296, R300, R372, R383). -/
inductive AccKind where
  | load | store | atomic | wait | cln | inv | pref | sld | sst | satomic | uread | uwrite
deriving DecidableEq, Repr

/-- How far a global access is. -/
inductive AccStage where
  /-- translating (R240); waiting for a tag (R255); for earlier accesses of its task (R257); for the core's own writes (R256, R268) -/
  | walk | tag | order | own
  /-- on its way to an L2 or a pool; waiting there for tokens (R360) -/
  | path | tokens
  /-- joined to an older read (R265), or waiting for it to complete; waiting for the other members of a gang (R141) -/
  | joined | behind | gang
  /-- performed, its value or acknowledgement on its way (R251, R254) -/
  | back
  /-- a wait whose condition is not met (R261); a posted fault (R345) -/
  | sleep | fault
deriving DecidableEq, Repr

/-- A global access from its issue until it completes (12 R248 to R266). -/
structure Acc where
  kind : AccKind := .load
  stage : AccStage := .walk
  core : Nat := 0
  slot : Nat := 0
  /-- TASK of the issuer, which the device follows (R257). -/
  task : Nat := 0
  va : Nat := 0
  n : Nat := 4
  pa : Nat := 0
  /-- KIND of the page: 0 SO, 1 RC, 2 UO; HOME; hint die of the instruction (64 none); privilege. -/
  page : Nat := 0
  home : Nat := 64
  hint : Nat := 64
  priv : Bool := false
  /-- Operation of an atomic, condition of a wait; operand, comparand; destination: 0 w, 1 x, 2 v, 3 none, and its number; sign. A
  unit's write stores its operand (0), ORs it (1), or replaces the low (4) or high (5) half of one byte; 2 only takes the tokens, 3 only
  translates. -/
  op : Nat := 0
  val : Nat := 0
  cmp : Nat := 0
  dest : Nat := 3
  reg : Nat := 0
  sx : Nat := 0
  /-- Stack access: SP after it (R104). -/
  sp : Option Nat := none
  /-- Store tag (R254); whether the task still waits for it; the die where it is performed (40 the home). -/
  tag : Option Nat := none
  blocks : Bool := true
  place : Nat := 0
  /-- Cycle of its request, reissues made, taken by an owner (R362, R369); served past the cache (R234). -/
  born : Nat := 0
  tries : Nat := 0
  taken : Bool := false
  /-- An atomic whose tokens come to its own die with the history that names it (R369). -/
  migr : Bool := false
  bypass : Bool := false
  /-- Value read; bytes of the sector for L1, with the invalidation count then, and the block that receives them (R231). -/
  got : Nat := 0
  sector : Mem := []
  gen : Nat := 0
  block : Option Nat := none
  fill : Bool := false
  /-- Older read it joins, whether a write to its line was acknowledged since it issued (R265). -/
  older : Nat := 0
  shut : Bool := false
  /-- Times a wait has slept; its sector was written since it was read (R261). -/
  naps : Nat := 0
  again : Bool := false
  /-- Cycle in which it reaches its memory (R258, R382); rows of its fill that are deposited (R231). -/
  due : Nat := 0
  rows : Nat := 0
  /-- A stack access whose checks have passed (R104). -/
  passed : Bool := false
  /-- Of a unit: its address is physical; cycles to its L2; the event that goes on when it has performed or failed. -/
  phys : Bool := false
  lead : Nat := 36
  next : Option (Instr × Args) := none
deriving DecidableEq, Repr

/-- A walk in flight or queued on a die (R245): va[56:16], accesses joined, whether a walker runs it; the level and the table it reads
next, and the access that reads the entry (R240). -/
structure Walk where
  die : Nat := 0
  page : Nat := 0
  accs : List Nat := []
  runs : Bool := false
  lev : Nat := 4
  table : Nat := 0
  read : Option Nat := none
deriving DecidableEq, Repr

/-- An entry of a module round (Table 20.3): the die, the line, the access, the place that its tokens go to. -/
structure Persist where
  die : Nat := 0
  line : Nat := 0
  acc : Nat := 0
  place : Nat := 0
deriving DecidableEq, Repr

/-- A requester of a fault-queue entry (R345 to R349): an access (kind 0, its number) or a copy job (1, its core) or neither (2); class and
address of its fault. -/
structure Want where
  kind : Nat := 0
  id : Nat := 0
  cls : Nat := 0
  va : Nat := 0
  core : Nat := 0
deriving DecidableEq, Repr

/-- An operation of a move unit (R371, R372). -/
structure MoveOp where
  op : Nat := 0
  old : Nat := 0
  new : Nat := 0
  lines : Nat := 0
  next : Nat := 0
deriving DecidableEq, Repr

/-- What a die holds beside its cores. -/
structure Die where
  /-- The die pool (R226). -/
  pool : Mem := []
  /-- Watch entries in use (R170), records in use (R198), ready records in the order in which they became ready (R171, R172). -/
  watches : List Watch := []
  recs : Table Rec := []
  ready : List Nat := []
  /-- A co-launched placement holds the distributor: the number of the set it places (R174). -/
  placing : Option Nat := none
  /-- Second-level TLB, most recently used first (R244). -/
  tlb : List TlbEntry := []
  /-- L2 lines by line number a[51:10]; line numbers in order of use, most recent first (R232, R233). -/
  l2 : Table L2Line := []
  l2Use : List Nat := []
  /-- Destination-set predictor: dies by slice and line[9:0] (R361). -/
  pred : Table (List Nat) := []
  /-- Persistent requests that wait, oldest first; the one active (R364). -/
  persist : List Nat := []
  active : Option Nat := none
  /-- Fault queue: next SEQ, requesters of each entry, those that wait for an entry (R346, R347). -/
  seq : Word := 0
  fqOf : Table (List Want) := []
  fqWait : List Want := []
  /-- Move unit (R371). -/
  move : Option MoveOp := none
deriving DecidableEq, Repr

/-- A launch queue (22 Table 22.4). -/
structure LaunchQueue where
  priv : Bool := false
  en : Bool := false
  prio : Nat := 0
  tail : Nat := 0
  head : Nat := 0
  ovf : Bool := false
  /-- Slots 0 to 63, 128 bytes each (R387). -/
  slots : Mem := []
  /-- MODEL'S OWN: the host's writes to DRAM that were in progress when TAIL made a slot's packet one of the queue, each with the slot (R385). -/
  behind : List (Nat × Nat) := []
deriving DecidableEq, Repr

/-- The MSI-X table after a reset, in the layout of PCI Express: every vector is masked by bit 0 of the last word of its entry (log 59). -/
def maskedVectors : Mem := (List.range 32).map fun v => (16 * v + 12, 1)

/-- What each PCI Express function holds (R379, R380): link as trained, MSI-X table and pending bits, vectors raised. -/
structure Func where
  rate : Nat := 0
  width : Nat := 0
  cxl : Bool := false
  msix : Mem := maskedVectors
  pending : Nat := 0
  raised : List Nat := []
deriving DecidableEq, Repr

/-- A scale-out port (R397). -/
structure Port where
  up : Bool := false
  pfc : Bool := false
  qpBase : Nat := 0
  qpCount : Nat := 0
  cqBase : Nat := 0
  cqCount : Nat := 0
  /-- Doorbells written, by queue pair and by completion queue. -/
  qp : Table Nat := []
  cq : Table Nat := []
deriving DecidableEq, Repr

/-- The module. -/
structure State where
  /-- Core cycles since the module reset (R4, CYCLE). -/
  cycle : Nat := 0
  /-- MODEL'S OWN: the steps that are due, the core whose prefixed pair issues next, the core that acts, the units of the event that
  acts, the counter of free values, the count of identifiers (log 1). -/
  agenda : List Entry := []
  turn : Option Nat := none
  cur : Nat := 0
  args : Args := {}
  free : Nat := 0
  nextId : Nat := 0
  /-- Cores and baristas that have been used; the others of a die are as its launch left them. -/
  cores : Table Core := []
  protos : Table Core := []
  rods : Table Rod := []
  /-- Barriers 0 to 15 of each frame (R212). -/
  frames : Table (List Barrier) := []
  dies : Table Die := []
  domains : Table Domain := []
  /-- DRAM bytes at the homes, what each home keeps of its lines, LLC lines of each channel with their valid sectors, most recently
  used first (R228, R235, R358). -/
  dram : Mem := []
  homes : Table HomeLine := []
  llc : Table (List (Nat × Nat)) := []
  /-- Token messages, accesses, walks and engine transfers in flight, by identifier. -/
  msgs : Table Msg := []
  accs : Table Acc := []
  walks : Table Walk := []
  flights : Table Flight := []
  /-- Result of the latest module round: its number and the active requests (R363, R365); the round sampled. -/
  modRound : Nat := 0
  modActive : List Persist := []
  modSample : List Persist := []
  /-- Host memory as the module sees it through the host window (R382). -/
  host : Mem := []
  /-- Module registers (22 Table 22.3): MODULE, LCS with the transition requested, WIPING, ALARM, DIEBUSY, the TLB invalidation
  registers with the function whose invalidation runs. -/
  module : Nat := 0
  lcs : Nat := 1
  lcsNext : Option Nat := none
  wiping : Bool := true
  alarm : Bool := false
  dieBusy : Nat := 0
  tlbVa : Nat := 0
  tlbDies : Nat := 0
  tlbMode : Nat := 0
  tlbBusy : Option Nat := none
  /-- Launch queues, function × 16 + number (R387); the one served last at each priority (R388). -/
  launch : Table LaunchQueue := []
  lastServed : Table Nat := []
  funcs : Table Func := []
  ports : Table Port := []
  /-- Access-control table (R395). -/
  acl : Table Nat := []
  /-- Power limit in watts, consecutive estimates below 95 per cent of it (R404). -/
  powerLimit : Nat := 18000
  below : Nat := 0
  /-- Clock in MHz, the change in progress, the request behind it (R375, R405). -/
  clock : Nat := 1050
  clockNext : Option Nat := none
  clockWait : Option Nat := none
  /-- Firmware slot, whether boot accepted its image, the measurements (R399, R400). The slot holds the header of an image at reset, with
  the greatest version (log 5). -/
  flash : Mem := [(0, 0x57), (1, 0x46), (2, 0x59), (3, 0x4A), (4, 0xFF), (5, 0xFF), (6, 0xFF), (7, 0xFF)]
  booted : Bool := true
  measure : List Nat := [Config.digest 0 1, Config.digest 1 0xFFFFFFFF4A594657, Config.digest 2 0xFFFFFFFF4A594657]
  /-- What the latest read of the host or of management returned, or the answer to the latest halo write of a peer (MODEL'S OWN). -/
  reply : Nat := 0
deriving DecidableEq, Repr

/-- The core cycle in which the wipe of a cold reset completes at the latest: 200 ms at 1.05 GHz (R4, R402). -/
def wipeBound : Nat := 210000000

/-- The steps that are due after a reset: module round 0, the end of the wipe, the first power estimate (R363, R402, R404). -/
def resetAgenda (seed : Nat) : List Entry :=
  [⟨3, 0, .ev .moduleRoundSample {}⟩, ⟨4 * (Config.slack seed % wipeBound + 1), 0, .ev .wipeComplete {}⟩, ⟨4 * 1050000, 0, .ev .powerEstimate {}⟩]

/-- The machine right after a cold reset: everything at its reset value, the wipe in progress, and module round 0 due (R363, R402). -/
def State.reset : State := { agenda := resetAgenda 0, free := 1 }

end Sys2Proof.Machine
end

