-- ==== Sys2Proof/Machine/Operands.lean ====
section
/-!
DEFINITION. Operands: the registers as bytes of local memory (01 R25 to R29), their rows (R37), and the places of the workspace the
device keeps (01 Table 1.5, 08 Table 8.1).
-/

namespace Sys2Proof.Machine

/-- The n bytes of local memory at an address. -/
def lmRead (c : Core) (a n : Nat) : Nat := Memory.read c.lm a n

/-- Local memory with n bytes written. -/
def lmWrite (c : Core) (a n v : Nat) : Core := { c with lm := Memory.write c.lm a n v }

/-- Base of the current workspace (R31). -/
def wsBase (c : Core) : Nat := c.wsp.toNat

/-- Register wn; w0 reads as zero (R26). -/
def rdW (c : Core) (n : Nat) : Nat := if n = 0 then 0 else lmRead c (wsBase c + 4 * n) 4

/-- Register wn written; a write to w0 changes no memory (R26). -/
def wrW (c : Core) (n v : Nat) : Core := if n = 0 then c else lmWrite c (wsBase c + 4 * n) 4 v

/-- The pair xn; x0 has zero as its low word (R27). -/
def rdX (c : Core) (n : Nat) : Nat :=
  if n = 0 then lmRead c (wsBase c + 4) 4 * 2 ^ 32 else lmRead c (wsBase c + 8 * n) 8

/-- The pair xn written; a write to x0 changes only w1 (R27). -/
def wrX (c : Core) (n v : Nat) : Core :=
  if n = 0 then lmWrite c (wsBase c + 4) 4 (v / 2 ^ 32) else lmWrite c (wsBase c + 8 * n) 8 v

/-- A w register (type 0) or an x pair (type 1). -/
def rdR (c : Core) (type n : Nat) : Nat := if type = 0 then rdW c n else rdX c n
def wrR (c : Core) (type n v : Nat) : Core := if type = 0 then wrW c n v else wrX c n v

/-- Operand width in bits (R89). -/
def width (type : Nat) : Nat := if type = 0 then 32 else 64

/-- Vector vn, 256 bits (R25). -/
def rdV (c : Core) (n : Nat) : Nat := lmRead c (wsBase c + 0x100 + 32 * n) 32
def wrV (c : Core) (n v : Nat) : Core := lmWrite c (wsBase c + 0x100 + 32 * n) 32 v

/-- Mask mn; m0 reads as all ones and a write to it changes no memory (R26). -/
def rdM (c : Core) (n : Nat) : Nat := if n = 0 then 2 ^ 32 - 1 else lmRead c (wsBase c + 0xA0 + 4 * n) 4
def wrM (c : Core) (n v : Nat) : Core := if n = 0 then c else lmWrite c (wsBase c + 0xA0 + 4 * n) 4 v

/-- Extension register en (R74). -/
def rdE (c : Core) (n : Nat) : Nat := lmRead c (wsBase c + 0x60 + 8 * n) 8
def wrE (c : Core) (n v : Nat) : Core := lmWrite c (wsBase c + 0x60 + 8 * n) 8 v

/-- Stream pointer pn (R29). -/
def rdP (c : Core) (n : Nat) : Nat := lmRead c (wsBase c + 0x40 + 4 * n) 4
def wrP (c : Core) (n v : Nat) : Core := lmWrite c (wsBase c + 0x40 + 4 * n) 4 v

/-- Constant-window word n (R73); the pair n, n + 1 for type 1. -/
def rdK (c : Core) (type n : Nat) : Nat := lmRead c (4 * n) (if type = 0 then 4 else 8)

/-- Rows of the registers (R17, R25). -/
def rowAt (a : Nat) : Nat := a / 32
def rowW (c : Core) (n : Nat) : Nat := rowAt (wsBase c + 4 * n)
def rowX (c : Core) (n : Nat) : Nat := rowAt (wsBase c + 8 * n)
def rowR (c : Core) (type n : Nat) : Nat := if type = 0 then rowW c n else rowX c n
def rowV (c : Core) (n : Nat) : Nat := rowAt (wsBase c + 0x100 + 32 * n)
def rowM (c : Core) (n : Nat) : Nat := rowAt (wsBase c + 0xA0 + 4 * n)
def rowE (c : Core) (n : Nat) : Nat := rowAt (wsBase c + 0x60 + 8 * n)
def rowK (n : Nat) : Nat := n / 8

/-- Rows written by a destination; w0 and m0 write none (R26). -/
def rowsW (c : Core) (n : Nat) : List Nat := if n = 0 then [] else [rowW c n]
def rowsR (c : Core) (type n : Nat) : List Nat := if type = 0 then rowsW c n else [rowX c n]
def rowsM (c : Core) (n : Nat) : List Nat := if n = 0 then [] else [rowM c n]

/-- Offsets of a workspace (Table 1.5). -/
def offStatus : Nat := 0x50
def offPcSave : Nat := 0x54
def offRegion : Nat := 0xC0
def offSp : Nat := 0x300
def offFloor : Nat := 0x304
def offOvp : Nat := 0x308
def offEmset : Nat := 0x310
def offFstat : Nat := 0x320
def offFmode : Nat := 0x324
def offCeil : Nat := 0x328
def offFrame : Nat := 0x340

/-- Bytes of a slot (R24). -/
def slotSize (c : Core) : Nat := (1 + c.carve) * 0x400

/-- Base of slot i (R24). -/
def slotBase (c : Core) (i : Nat) : Nat := 0x400 + i * slotSize c

/-- Slots the core holds (R24). -/
def slotCount (c : Core) : Nat := min 8 ((c.lmspill.toNat - 0x400) / slotSize c)

/-- Slot of a workspace base (R24). -/
def slotOf (c : Core) (b : Nat) : Nat := (b - 0x400) / slotSize c

/-- A base of a slot of R24. -/
def isSlotBase (c : Core) (b : Nat) : Bool := (upTo (slotCount c)).any fun i => slotBase c i == b

/-- The slot of the current workspace. -/
def curSlot (c : Core) : Nat := slotOf c (wsBase c)

/-- What the core holds of slot i. -/
def slotAt (c : Core) (i : Nat) : Slot := nth {} c.slots i
def setSlot (c : Core) (i : Nat) (x : Slot) : Core := { c with slots := setNth {} c.slots i x }

/-- Status word of slot i and its fields (Table 8.1). -/
def stWord (c : Core) (i : Nat) : Nat := lmRead c (slotBase c i + offStatus) 4
def setStWord (c : Core) (i v : Nat) : Core := lmWrite c (slotBase c i + offStatus) 4 v
def stState (c : Core) (i : Nat) : Nat := fld (stWord c i) 0 3
def stWait (c : Core) (i : Nat) : Nat := fld (stWord c i) 3 3
def stPriv (c : Core) (i : Nat) : Bool := bit (stWord c i) 6
def stPrio (c : Core) (i : Nat) : Nat := fld (stWord c i) 7 3
def stDepth (c : Core) (i : Nat) : Nat := fld (stWord c i) 10 4
def stDims (c : Core) (i : Nat) : Nat := fld (stWord c i) 14 3
def stFrz (c : Core) (i : Nat) : Bool := bit (stWord c i) 17
def stFrzd (c : Core) (i : Nat) : Nat := fld (stWord c i) 18 3
def setSt (c : Core) (i lo n v : Nat) : Core := setStWord c i (setFld (stWord c i) lo n v)

/-- STATE values (Table 8.1). -/
def stRunnable : Nat := 0
def stBlocked : Nat := 1
def stPaused : Nat := 2
def stFrozen : Nat := 3
def stFollower : Nat := 4
def stHalted : Nat := 5

/-- EMSET of slot i (R177). -/
def emset (c : Core) (i : Nat) : Nat := lmRead c (slotBase c i + offEmset) 16

/-- EMSET as it acts: bits 120 to 127 of an unprivileged task are zero (R176). -/
def emsetEff (c : Core) (i : Nat) : Nat := if stPriv c i then emset c i else emset c i % 2 ^ 120

/-- The task of the current workspace is privileged. A running handler is privileged (R335), and so is a
barista (R331). -/
def isPriv (c : Core) : Bool := c.bar || c.serving.isSome || stPriv c (curSlot c)

/-- Slot i can issue: resident and runnable, with no trap pending (R165, R338). -/
def canRun (c : Core) (i : Nat) : Bool := (slotAt c i).live && stState c i == stRunnable && (slotAt c i).trap.isNone

end Sys2Proof.Machine
end

