-- ==== Sys2Proof/Machine/Flags.lean ====
section
/-!
DEFINITION. Flags: FSTAT and FMODE (02 R47 to R51), and the tests of branches, waits and counters (04 Table 4.11, 12 R261, 08 R169).
-/

namespace Sys2Proof.Machine

/-- Bits of FSTAT (Table 2.6). -/
def flagNV : Nat := 1
def flagDZ : Nat := 2
def flagOF : Nat := 4
def flagUF : Nat := 8
def flagNX : Nat := 16

/-- Rounding modes (Table 2.4). -/
inductive RMode where
  | rne | rtz | rdn | rup | rna
deriving DecidableEq, Repr

/-- A code of Table 2.4; 5 to 7 act as RNE (R49). -/
def rmode : Nat → RMode
  | 1 => .rtz
  | 2 => .rdn
  | 3 => .rup
  | 4 => .rna
  | _ => .rne

/-- FSTAT and FMODE of the current workspace (R49). -/
def fstat (c : Core) : Nat := lmRead c (wsBase c + offFstat) 4
def fmode (c : Core) : RMode := rmode (lmRead c (wsBase c + offFmode) 4 % 8)

/-- Flags raised by an instruction: FSTAT is written only when one is new (R51). -/
def raises (c : Core) (fl : Nat) : Bool := Nat.lor (fstat c) (fl % 32) != fstat c
def raise (c : Core) (fl : Nat) : Core :=
  if raises c fl then lmWrite c (wsBase c + offFstat) 4 (Nat.lor (fstat c) (fl % 32)) else c

/-- Row of FSTAT, as a last destination when it is written (R51, R38). -/
def rowsFstat (c : Core) (fl : Nat) : List Nat := if raises c fl then [rowAt (wsBase c + offFstat)] else []

/-- Tests of the branches, cond 0 to 7 (Table 4.11). -/
def branchTest (cond a b : Nat) : Bool :=
  match cond with
  | 0 => a == b
  | 1 => a != b
  | 2 => decide (sgn 32 a < sgn 32 b)
  | 3 => decide (sgn 32 b ≤ sgn 32 a)
  | 4 => decide (a < b)
  | 5 => decide (b ≤ a)
  | 6 => a == 0
  | _ => a != 0

/-- Conditions of wait, of value against comparand (R261), of n bits. -/
def waitTest (n cond v x : Nat) : Bool :=
  match cond with
  | 0 => v == x
  | 1 => v != x
  | 2 => decide (sgn n v < sgn n x)
  | 3 => decide (sgn n x ≤ sgn n v)
  | 4 => decide (v < x)
  | _ => decide (x ≤ v)

/-- A counter word meets a threshold (R169, R195); bit 63 of a threshold is ignored. -/
def counterMet (word thr : Nat) : Bool := decide (thr % 2 ^ 63 ≤ word % 2 ^ 63) || bit word 63

/-- A counter after a device add (R168): it stays at 2^63 - 1 and sets ERR rather than carry. -/
def counterAdd (word n : Nat) : Nat :=
  if word % 2 ^ 63 + n < 2 ^ 63 then word + n else 2 ^ 64 - 1

/-- A waiter with ticket t is released at a phase (R214). -/
def phasePassed (phase t : Nat) : Bool := let k := (phase + 2 ^ 32 - t) % 2 ^ 32; decide (1 ≤ k) && decide (k < 2 ^ 31)

end Sys2Proof.Machine
end

