-- ==== Sys2Proof/Machine/Units.lean ====
section
/-!
DEFINITION. Units: the units of the module (00 R3, 01 R20), the agenda of steps that are due, and free values.
-/

namespace Sys2Proof.Machine

/-! Units. -/

/-- A barista after a wipe: one workspace at 0x0400 with a carve-out of 1 KiB, idle (R331). -/
def baristaReset : Core := { bar := true, carve := 1, lmspill := 0xC00, lmscr := 0x6000, lml1 := 0x6000 }

/-- Cores and baristas are numbered as their CORE register reads (R20, R331). -/
def isBarista (k : Nat) : Bool := decide (Config.cores ≤ k)

/-- Identity words 240 to 246 of core k (Table 1.2), from the domain number that stands in word 245. -/
def withIdentity (k : Nat) (c : Core) : Core :=
  let put (c : Core) (n v : Nat) := lmWrite c (4 * n) 4 v
  put (put (put (put (put (put c 240 k) 241 (k / 8)) 242 (k / 128)) 243 (k / 512)) 244 (k / 16384)) 246 (8 * (k / 8))

/-- A core that no step has used yet: as the launch on its die left it (R19, R22), or as reset left it. -/
def freshCore (s : State) (k : Nat) : Core :=
  if isBarista k then baristaReset
  else match Table.find s.protos (k / Config.coresPerDie) with
    | some p => withIdentity k p
    | none => {}

def coreOf (s : State) (k : Nat) : Core := match Table.find s.cores k with | some c => c | none => freshCore s k
def setCore (s : State) (k : Nat) (c : Core) : State := { s with cores := Table.set s.cores k c }
def updCore (s : State) (k : Nat) (f : Core → Core) : State := setCore s k (f (coreOf s k))
def updSlot (s : State) (k i : Nat) (f : Slot → Slot) : State := updCore s k fun c => setSlot c i (f (slotAt c i))
def rodOf (s : State) (r : Nat) : Rod := Table.get {} s.rods r
def updRod (s : State) (r : Nat) (f : Rod → Rod) : State := { s with rods := Table.set s.rods r (f (rodOf s r)) }
def dieAt (s : State) (d : Nat) : Die := Table.get {} s.dies d
def updDie (s : State) (d : Nat) (f : Die → Die) : State := { s with dies := Table.set s.dies d (f (dieAt s d)) }
def domAt (s : State) (m : Nat) : Domain := Table.get {} s.domains m
def updDom (s : State) (m : Nat) (f : Domain → Domain) : State := { s with domains := Table.set s.domains m (f (domAt s m)) }

/-- Die and rod of a core (R20); barista numbers lie above the cores and belong to no die. -/
def dieOfCore (k : Nat) : Nat := k / Config.coresPerDie
def rodOfCore (k : Nat) : Nat := k / 8
def frameOfCore (k : Nat) : Nat := k / 128

/-- The domain that owns a die (R159). -/
def domOfDie (s : State) (die : Nat) : Option Nat :=
  (s.domains.find? fun c => bit c.2.mask die).map Prod.fst

/-- The domain of a core. -/
def domOf (s : State) (k : Nat) : Option Nat := if isBarista k then none else domOfDie s (dieOfCore k)
def theDom (s : State) (k : Nat) : Domain := match domOf s k with | some m => domAt s m | none => {}

/-- A die is one of a domain's. -/
def dieInDom (d : Domain) (die : Nat) : Bool := decide (die < Config.dies) && bit d.mask die

/-- Cores of a domain that hold anything, in increasing order. -/
def coresOfDom (s : State) (m : Nat) : List Nat :=
  (s.cores.filter fun c => !isBarista c.1 && bit (domAt s m).mask (dieOfCore c.1)).map Prod.fst

/-- Dies of a mask. -/
def diesOf (mask : Nat) : List Nat := (upTo Config.dies).filter fun d => bit mask d

/-! The agenda. -/

def push (e : Entry) (s : State) : State := { s with agenda := e :: s.agenda }

/-- An item due in a cycle at a phase. -/
def pushAt (cycle phase tie : Nat) (it : Item) (s : State) : State := push ⟨4 * cycle + phase, tie, it⟩ s

/-- An event due at the start, in the issue part or at the end of a cycle. Events of one phase follow the index of the core they
come from (R213, R218, R225), at the end of a cycle an engine's event after the core's own. -/
def evAt (cycle phase : Nat) (i : Instr) (x : Args) (s : State) : State := pushAt cycle phase (2 * x.a) (.ev i x) s
def engineAt (cycle : Nat) (src : Nat) (i : Instr) (x : Args) (s : State) : State := pushAt cycle 2 (2 * src + 1) (.ev i x) s

/-- The next free value's index (log 1). -/
def tick (s : State) : State := { s with free := s.free + 1 }

/-- A fresh identifier. -/
def freshId (s : State) : Nat × State := (s.nextId, { s with nextId := s.nextId + 1 })

/-- A latency with a stated minimum (log 2). -/
def atLeast (n : Nat) (s : State) : Nat := n + Config.slack s.free

/-- A time within stated bounds, both included (log 2). -/
def between (lo hi : Nat) (s : State) : Nat := lo + Config.slack s.free % (hi - lo + 1)

/-- Remove the entries of the agenda that satisfy a test. -/
def unschedule (p : Item → Bool) (s : State) : State := { s with agenda := s.agenda.filter fun e => !p e.item }

/-- Make sure that core k issues no later than cycle t allows (R165). -/
def kick (k t : Nat) (s : State) : State :=
  let c := coreOf s k
  let at_ := max t (max c.busy s.cycle)
  match c.armed with
  | some u => if u ≤ at_ then s else pushAt at_ 1 (2 * k + 1) (.issue k) (setCore s k { c with armed := some at_ })
  | none => pushAt at_ 1 (2 * k + 1) (.issue k) (setCore s k { c with armed := some at_ })

/-- The distributor of a die looks at its records in a cycle, before the cores issue: what they free in it counts from the next (R171). -/
def selectAt (cycle die : Nat) (s : State) : State :=
  if s.agenda.any fun e => e.item == .ev .distributorSelect { a := die } && e.time == 4 * cycle then s
  else pushAt cycle 0 (4 * Config.allCores) (.ev .distributorSelect { a := die }) s

/-! The host (22 R380, R391). -/

/-- A device raises a vector of a function: the message is sent, or its pending bit is set while the vector is masked (R380). -/
def raiseVec (fn v : Nat) (s : State) : State :=
  let f := Table.get {} s.funcs fn
  let f := if bit (Memory.read f.msix (16 * v + 12) 4) 0 then { f with pending := Nat.lor f.pending (2 ^ v) } else { f with raised := f.raised ++ [v] }
  { s with funcs := Table.set s.funcs fn f }

/-- Bytes written to host memory. -/
def hostWrite (a n v : Nat) (s : State) : State := { s with host := Memory.write s.host a n v }

/-- The end report of Table 22.6, with vector 0 of the function (R391). -/
def writeReport (at_ fn dom status cause sub instant core : Nat) (s : State) : State :=
  let s := hostWrite at_ 32 (dom + status * 2 ^ 32 + cause * 2 ^ 40 + sub * 2 ^ 48 + instant * 2 ^ 64 + core * 2 ^ 128) s
  raiseVec fn 0 s

end Sys2Proof.Machine
end

