-- ==== Sys2Proof/Machine/Lines.lean ====
section
/-!
DEFINITION. Lines: the physical map (11 R228), placement of lines (R232, R235), tokens and their places (20 R358 to R361, R367), and the
bytes of a line.
-/

namespace Sys2Proof.Machine

/-! The physical map (Table 11.4). -/

def dramTop : Nat := 3 * 2 ^ 40
def poolBase : Nat := 2 ^ 51
def windowBase : Nat := 2 ^ 51 + 2 ^ 50
def peerBase : Nat := 2 ^ 51 + 2 ^ 50 + 2 ^ 49
def isDram (pa : Nat) : Bool := decide (pa < dramTop)
def isPool (pa : Nat) : Bool := decide (poolBase ≤ pa) && decide (pa < poolBase + Config.dies * 2 ^ 26)
def isWindow (pa : Nat) : Bool := decide (windowBase ≤ pa) && decide (pa < 2 ^ 52)
def isHost (pa : Nat) : Bool := isWindow pa && decide (pa < peerBase)
def poolDie (pa : Nat) : Nat := (pa - poolBase) / 2 ^ 26
def poolOff (pa : Nat) : Nat := (pa - poolBase) % 2 ^ 26

/-- The region of a physical address: DRAM 0, the pool of a die 1 + n, the host window 64, a peer window 65 + m; none in a hole. -/
def regionOf (pa : Nat) : Option Nat :=
  if isDram pa then some 0
  else if isPool pa then some (1 + poolDie pa)
  else if isHost pa then some 64
  else if isWindow pa then some (65 + (pa - peerBase) / 2 ^ 43)
  else none

/-! Placement (Table 11.5, R235). -/

def lineOf (pa : Nat) : Nat := pa / 1024
def sectorOf (pa : Nat) : Nat := pa / 256 % 4
def xorAll (l : List Nat) : Nat := l.foldl Nat.xor 0
def sliceOf (line : Nat) : Nat := xorAll [fld line 0 8, fld line 8 8, fld line 16 8, fld line 24 8, fld line 32 8, fld line 40 2]
/-- The set of a line among the 256 × 64 sets of an L2. -/
def setOfLine (line : Nat) : Nat := sliceOf line * 64 + fld line 8 6
def channelOf (line : Nat) : Nat := xorAll [fld line 0 9, fld line 9 9, fld line 18 9, fld line 27 5]
def llcSetOf (line : Nat) : Nat := line / 2 ^ 9 % 2 ^ 11

/-! The places of tokens (R358). The home is place 40. -/

def theHome : Nat := 40
def homeOf (s : State) (line : Nat) : HomeLine := Table.get {} s.homes line
def updHome (s : State) (line : Nat) (f : HomeLine → HomeLine) : State := { s with homes := Table.set s.homes line (f (homeOf s line)) }
def l2Of (s : State) (die line : Nat) : L2Line := Table.get {} (dieAt s die).l2 line

/-- The line becomes the most recently used one of the die (R233). -/
def touchL2 (die line : Nat) (s : State) : State :=
  updDie s die fun d => { d with l2Use := line :: d.l2Use.filter (· != line) }

/-- The line in the L2 of a die; a line without tokens or pins is invalid at once (R359). -/
def putL2 (die line : Nat) (l : L2Line) (s : State) : State :=
  if l.tokens = 0 ∧ l.pins = 0 then
    updDie s die fun d => { d with l2 := Table.erase d.l2 line, l2Use := d.l2Use.filter (· != line) }
  else
    let fresh := (Table.find (dieAt s die).l2 line).isNone
    let s := updDie s die fun d => { d with l2 := Table.set d.l2 line l }
    if fresh then touchL2 die line s else s

/-! LLC (R235): which lines its slices hold decides only the time of an access. -/

/-- A sector of a line is in its LLC slice. -/
def llcHolds (s : State) (line sec : Nat) : Bool :=
  (Table.get [] s.llc (channelOf line)).any fun q => q.1 == line && bit q.2 sec

/-- The sectors of a mask of a line enter its LLC slice, most recently used. -/
def llcTouch (line mask : Nat) (s : State) : State :=
  let ch := channelOf line
  let l := Table.get [] s.llc ch
  let old := ((l.find? fun q => q.1 == line).map Prod.snd).getD 0
  let l := (line, Nat.lor old mask) :: l.filter fun q => q.1 != line
  let mine := l.filter fun q => llcSetOf q.1 == llcSetOf line
  let l := if 16 < mine.length then match mine.getLast? with | some v => l.filter fun q => q.1 != v.1 | none => l else l
  { s with llc := Table.set s.llc ch l }

/-- A whole line is written to its LLC slice (R367). -/
def llcFill (line : Nat) (s : State) : State := llcTouch line 15 s

/-- A read at a line's home has the sectors of a mask in its LLC slice; at another place it changes nothing (R235). -/
def llcRead (place line mask : Nat) (s : State) : State :=
  if place = theHome ∧ mask ≠ 0 then llcTouch line (mask % 16) s else s

/-- Cycles that DRAM adds at least where the LLC lacks a sector of a mask (R370): at a lower clock its count is no higher, and no bound is
stated. -/
def dramTime (s : State) (line mask : Nat) : Nat :=
  if ((upTo 4).all fun j => !bit mask j || llcHolds s line j) ∨ s.clock ≠ 1050 then 0 else 110
def dramExtra (s : State) (line sec : Nat) : Nat := dramTime s line (2 ^ sec)

/-- A memory with the bytes of a range replaced. -/
def setRange (m : Mem) (lo n : Nat) (src : Mem) : Mem := Memory.overlay (Memory.clear m lo (lo + n)) lo src

/-- The bytes of a line at its home. -/
def homeBytes (s : State) (line : Nat) : Mem := Memory.slice s.dram (line * 1024) (line * 1024 + 1024)

/-- The line's current bytes go to its home, into its LLC slice and memory (R367). -/
def writeHome (line : Nat) (data : Mem) (s : State) : State :=
  llcFill line (updHome { s with dram := setRange s.dram (line * 1024) 1024 data } line fun h => { h with old := false, fresh := 0 })

/-- A write of a whole line clears a poison mark (R353). -/
def healLine (line : Nat) (s : State) : State := if (homeOf s line).poison then updHome s line fun h => { h with poison := false } else s

/-- The place of the owner token: a die or the home; none while a message carries it. -/
def ownerPlace (s : State) (line : Nat) : Option Nat :=
  if (homeOf s line).owner then some theHome else (upTo Config.dies).find? fun d => (l2Of s d line).owner

/-- The current bytes of a line: those with the owner token (R359). -/
def lineBytes (s : State) (line : Nat) : Mem :=
  match ownerPlace s line with
  | some p => if p = theHome then homeBytes s line else (l2Of s p line).data
  | none => match s.msgs.find? fun m => m.2.line == line && m.2.owner with
    | some m => m.2.data
    | none => homeBytes s line

/-- The atomic history of a line, which travels with the owner token (R369, R378). -/
def lineHist (s : State) (line : Nat) : List Nat :=
  match ownerPlace s line with
  | some p => if p = theHome then (homeOf s line).hist else (l2Of s p line).hist
  | none => match s.msgs.find? fun m => m.2.line == line && m.2.owner with | some m => m.2.hist | none => []

/-- The sectors of a line as a memory of the line: those of a mask. -/
def sectorsOf (mask : Nat) (data : Mem) : Mem := data.filter fun c => bit mask (c.1 / 256)

/-! Messages (R360). -/

/-- Cycles of a message between two places: a request and its answer with the 36 cycles to the own L2 make the minimum of the class
(Table 20.6, log 2). -/
def legOf (a b : Nat) : Nat := if a = theHome ∨ b = theHome then 57 else 37

/-- Cycles of a message beyond its minimum: free, and few enough for the bound of R366 (log 60). -/
def msgSlack (s : State) : Nat := Config.slack s.free % 32

/-- A token message leaves; it arrives after a number of cycles. -/
def sendMsg (m : Msg) (after : Nat) (s : State) : State :=
  let q := freshId s
  evAt (s.cycle + after) 0 .tokenMessageReceive { a := m.goal_, b := q.1 } { q.2 with msgs := Table.set q.2.msgs q.1 m }

/-- The line of a set to evict for a new one (R233, R234): none where there is room, some none where every way is pinned. -/
def victimOf (d : Die) (line : Nat) : Option (Option Nat) :=
  let mine := (d.l2.filter fun q => setOfLine q.1 == setOfLine line).map Prod.fst
  if mine.contains line ∨ mine.length < 16 then none
  else some ((d.l2Use.filter fun x => mine.contains x && (Table.get {} d.l2 x).pins == 0).getLast?)

/-- A die evicts a line: its tokens go to the home, with the whole line if it holds the owner token (R367). -/
def evictLine (die line : Nat) (s : State) : State :=
  let l := l2Of s die line
  let m : Msg := { line := line, tokens := l.tokens, owner := l.owner, hist := l.hist, valid := if l.owner then 15 else 0
                   data := if l.owner then l.data else [], goal_ := theHome, from_ := die }
  let s := putL2 die line { l with tokens := 0, owner := false, hist := [], valid := 0, data := [] } s
  if l.tokens = 0 then s else sendMsg m (legOf die theHome + msgSlack s) (tick s)

/-- A way of the die for a line, its victim evicted; false where every way is pinned (R233, R234). -/
def makeWay (die line : Nat) (s : State) : State × Bool :=
  match victimOf (dieAt s die) line with
  | none => (s, true)
  | some none => (s, false)
  | some (some v) => (evictLine die v s, true)

/-- Rank of a die in a module round's result (R365). -/
def rankOf (s : State) (d : Nat) : Nat := (d + 40 - s.modRound % 40) % 40

/-- The place of the winner of the persistent requests for a line, while a module round stands (R365). -/
def winnerOf (s : State) (line : Nat) : Option Nat :=
  ((s.modActive.filter fun q => q.line == line).foldl (fun b q =>
    match b with
    | none => some q
    | some p => if rankOf s q.die < rankOf s p.die then some q else some p) none).map Persist.place

/-- Tokens that a place cannot keep go on to the standing winner of their line, within 8 cycles, or else to the home (R365, log 60). -/
def sendOn (place : Nat) (m : Msg) (s : State) : State :=
  match winnerOf s m.line with
  | some d => if d = place then sendMsg { m with goal_ := theHome, from_ := place } (legOf place theHome) s
    else sendMsg { m with goal_ := d, from_ := place } (between 1 8 s) (tick s)
  | none => sendMsg { m with goal_ := theHome, from_ := place } (legOf place theHome) s

/-- Tokens arrive at a place (R359). The home marks the line moved where the message says so (R372). A die that has no way for the line
sends them on. -/
def giveTokens (place : Nat) (m : Msg) (s : State) : State :=
  if place = theHome then
    let s := updHome s m.line fun h =>
      { h with tokens := h.tokens + m.tokens, owner := h.owner || m.owner, hist := if m.owner then m.hist else h.hist
               fresh := Nat.lor h.fresh m.valid, moved := h.moved || m.moved }
    if m.owner then writeHome m.line m.data s else s
  else
    match makeWay place m.line s with
    | (s, false) => sendOn place m s
    | (s, true) =>
      let l := l2Of s place m.line
      putL2 place m.line
        { l with tokens := l.tokens + m.tokens, owner := l.owner || m.owner, hist := if m.owner then m.hist else l.hist
                 valid := Nat.lor l.valid m.valid
                 data := (upTo 4).foldl (fun d j => if bit m.valid j then setRange d (256 * j) 256 (Memory.slice m.data (256 * j) (256 * j + 256)) else d) l.data } s

/-- A home with a token has the current bytes of some sectors: its own, or those it has received with the token (R359). -/
def homeHas (h : HomeLine) (mask : Nat) : Bool := decide (0 < h.tokens) && (!h.old || Nat.land h.fresh mask == mask)

/-- A place may read sectors of a line (R359). -/
def mayRead (s : State) (place line mask : Nat) : Bool :=
  if place = theHome then homeHas (homeOf s line) mask
  else let l := l2Of s place line; decide (0 < l.tokens) && Nat.land l.valid mask == mask
def mayWrite (s : State) (place line : Nat) : Bool :=
  if place = theHome then (homeOf s line).tokens == Config.tokens else (l2Of s place line).tokens == Config.tokens

/-- What a holder sends in answer to a read request, and what it keeps (Table 20.2): none where it sends nothing. -/
def answerRead (s : State) (place line mask goal_ : Nat) : Option (Msg × State) :=
  let one (data : Mem) : Msg := { line := line, tokens := 1, valid := mask, data := sectorsOf mask data, goal_ := goal_, from_ := place }
  let whole (hist : List Nat) (data : Mem) : Msg :=
    { line := line, tokens := 1, owner := true, hist := hist, valid := 15, data := data, goal_ := goal_, from_ := place }
  if place = theHome then
    let h := homeOf s line
    if !homeHas h mask then none
    else if h.tokens = 1 ∧ h.owner then
      some (whole h.hist (homeBytes s line), updHome s line fun h => { h with tokens := 0, owner := false, hist := [], fresh := 0 })
    else some (one (lineBytes s line), updHome s line fun h => { h with tokens := h.tokens - 1, fresh := if h.tokens = 1 then 0 else h.fresh })
  else
    let l := l2Of s place line
    if l.tokens = 1 ∧ l.owner then some (whole l.hist l.data, putL2 place line { l with tokens := 0, owner := false, hist := [], valid := 0, data := [] } s)
    else if 1 < l.tokens ∧ Nat.land l.valid mask = mask then some (one l.data, putL2 place line { l with tokens := l.tokens - 1 } s)
    else none

/-- All tokens of a place for a line, in answer to a write request or a persistent one (Table 20.2, R365). -/
def answerAll (s : State) (place line goal_ : Nat) : Option (Msg × State) :=
  if place = theHome then
    let h := homeOf s line
    if h.tokens = 0 then none
    else some ({ line := line, tokens := h.tokens, owner := h.owner, hist := h.hist, valid := if h.owner then 15 else 0
                 data := if h.owner then homeBytes s line else [], goal_ := goal_, from_ := place },
               updHome s line fun h => { h with tokens := 0, owner := false, hist := [], fresh := 0 })
  else
    let l := l2Of s place line
    if l.tokens = 0 then none
    else some ({ line := line, tokens := l.tokens, owner := l.owner, hist := l.hist, valid := if l.owner then 15 else 0
                 data := if l.owner then l.data else [], goal_ := goal_, from_ := place },
               putL2 place line { l with tokens := 0, owner := false, hist := [], valid := 0, data := [] } s)

/-! Bytes. -/

/-- Accesses asleep in a wait on a sector that is written wake (R261); the others on the sector read again. -/
def wakeWaits (pa : Nat) (s : State) : State :=
  s.accs.foldl (fun s (q : Nat × Acc) =>
    let x := q.2
    if x.kind = .wait ∧ x.pa / 256 = pa / 256 then
      if x.stage = .sleep then
        let s := updCore s x.core fun c => { c with bound := c.bound + 1 }
        evAt (s.cycle + 1) 0 .waitWakeOnWrite { a := x.core, b := q.1 } { s with accs := Table.set s.accs q.1 { x with stage := .path } }
      else { s with accs := Table.set s.accs q.1 { x with again := true } }
    else s) s

/-- Bytes of a line written at the place that holds all its tokens (R367). -/
def writeAt (place pa : Nat) (bytes : List Byte) (s : State) : State :=
  let line := lineOf pa
  let s :=
    if place = theHome then { s with dram := Memory.writeBytes s.dram pa bytes }
    else
      let l := l2Of s place line
      updHome (putL2 place line { l with data := Memory.writeBytes l.data (pa % 1024) bytes } s) line fun h => { h with old := true }
  (upTo ((pa % 256 + bytes.length + 255) / 256)).foldl (fun s j => wakeWaits (pa + 256 * j) s) s

/-- Bytes of a line written where its owner token is, with no other effect: for bytes that are undefined (R15, R300). -/
def writeInPlace (pa : Nat) (bytes : List Byte) (s : State) : State :=
  let line := lineOf pa
  match ownerPlace s line with
  | some p =>
    if p = theHome then { s with dram := Memory.writeBytes s.dram pa bytes }
    else updDie s p fun d =>
      let l := Table.get {} d.l2 line
      { d with l2 := Table.set d.l2 line { l with data := Memory.writeBytes l.data (pa % 1024) bytes } }
  | none =>
    { s with msgs := s.msgs.map fun m => if m.2.line = line ∧ m.2.owner then (m.1, { m.2 with data := Memory.writeBytes m.2.data (pa % 1024) bytes }) else m }

/-- n bytes of a line at a place that may read them. -/
def readAt (s : State) (place pa n : Nat) : Nat :=
  if place = theHome then Memory.read s.dram pa n else Memory.read (l2Of s place (lineOf pa)).data (pa % 1024) n

/-- n bytes of DRAM as a coherent read returns them. -/
def readLine (s : State) (pa n : Nat) : Nat := Memory.read (lineBytes s (lineOf pa)) (pa % 1024) n

/-- A line's current bytes stand at its home; no token moves (R367). -/
def cleanLine (line : Nat) (s : State) : State :=
  if (homeOf s line).owner then s else writeHome line (lineBytes s line) s

/-- Bytes of a number, lowest first. -/
def toBytes : Nat → Nat → List Byte
  | 0, _ => []
  | n + 1, v => BitVec.ofNat 8 v :: toBytes n (v / 256)

/-- The number of a list of bytes. -/
def fromBytes : List Byte → Nat
  | [] => 0
  | b :: bs => b.toNat + 256 * fromBytes bs

end Sys2Proof.Machine
end

