-- ==== Sys2Proof/Machine/Ops.lean ====
section
/-!
DEFINITION. Ops: the operations every meaning is made of: the code image, the cost of an instruction (01 R36 to R41), containment
(18 R352), taking a trap and returning from it (18 R335 to R342), and running an instruction that acts on its own core (03 R67, 05
R141, 09 R196).
-/

namespace Sys2Proof.Machine

/-- Outcome of a step. -/
abbrev Out := Host.Outcome State Fault Refusal

/-- A value, or the trap that ends the instruction (Table 0.7). -/
abbrev TrapOr (α : Type) := Except Trap α

/-! The code image (R65, R90). -/

/-- The halfword at a PC; none at or beyond the end of the image. -/
def imageHalf (d : Domain) (pc : Nat) : Option Nat :=
  if pc + 2 ≤ d.codeLen then some (Memory.read d.code pc 2) else none

/-- Length and word of the instruction at a PC; length 0 where the fetch leaves the image. -/
def imageWord (d : Domain) (pc : Nat) : Nat × Nat :=
  match imageHalf d pc with
  | none => (0, 0)
  | some h =>
    if instrLen h = 2 then (2, h)
    else match imageHalf d ((pc + 2) % 2 ^ 32) with
      | none => (0, 0)
      | some h2 => (4, h + h2 * 2 ^ 16)

/-- What core k fetches from: its domain's code image, or a barista's own local memory (R65, R331). -/
def imageOf (s : State) (k : Nat) : Domain :=
  if isBarista k then { code := (coreOf s k).lm, codeLen := 0x10000 } else theDom s k

/-! The cost of an instruction (R36 to R41). -/

/-- Cycles charged to a bank (R41). -/
def charge (c : Core) (bank n : Nat) : Core :=
  match bank with
  | 0 => { c with stall0 := c.stall0 + BitVec.ofNat 32 n }
  | 1 => { c with stall1 := c.stall1 + BitVec.ofNat 32 n }
  | _ => { c with stall2 := c.stall2 + BitVec.ofNat 32 n }

/-- Extra rows of a bank: the distinct rows of it beyond the first (R37, R39). -/
def extraRows (rows : List Nat) (bank : Nat) : Nat := (distinct rows).countP (fun r => r % 3 == bank) - 1

/-- Entries retired in cycles that no instruction occupies, up to a cycle (R38). -/
def retireIdle (c : Core) (cycle : Nat) : Core := { c with buf := c.buf.drop (cycle - c.bufClock), bufClock := max cycle c.bufClock }

/-- Entries retired in n cycles of an instruction that reads these banks (R38). -/
def retireBusy (buf : List Nat) (banks : List Nat) : Nat → List Nat
  | 0 => buf
  | n + 1 =>
    match buf with
    | [] => []
    | r :: rest => if banks.contains (r % 3) then r :: rest else retireBusy rest banks n

/-- The rows an instruction writes take their entries in order; each that waits for one costs a stall cycle (R38, R40). -/
def enterRows (c : Core) : List Nat → Core × Nat
  | [] => (c, 0)
  | r :: rs =>
    if c.buf.contains r then enterRows c rs
    else
      match c.buf with
      | old :: x :: more =>
        let q := enterRows (charge { c with buf := x :: more ++ [r] } (old % 3) 1) rs
        (q.1, q.2 + 1)
      | buf => enterRows { c with buf := buf ++ [r] } rs

/-- The issue cost 1 + E + F of R40 with its base cost, and the core with its write buffer and stall counts after it (R37 to R41).
An entry of a row written past the buffer retires before that write (R39, R131); rows of direct count as accesses (R39), those of
bank do not (R131). The buffer retires for the first cycle, the writes take their entries, and it retires for the cycles that remain: in
which cycle of a longer cost the entries are taken is left open (R38, DESIGN CHOICE, log 66). -/
def account (c : Core) (cycle : Nat) (rd wr direct bank : List Nat) (base : Nat) : Core × Nat :=
  let c := retireIdle c cycle
  let c := { c with buf := c.buf.filter fun r => !direct.contains r && !bank.contains r }
  let rows := rd ++ direct
  let e0 := extraRows rows 0
  let e1 := extraRows rows 1
  let e2 := extraRows rows 2
  let c := charge (charge (charge c 0 e0) 1 e1) 2 e2
  let banks := rd.map (· % 3)
  let c := { c with buf := retireBusy c.buf banks 1 }
  let q := enterRows c wr
  let cost := base + e0 + e1 + e2 + q.2
  ({ q.1 with buf := retireBusy q.1.buf banks (cost - 1 - q.2), bufClock := cycle + cost }, cost)

/-- Rows that an instruction writes at its wake take their entries in that cycle; each that waits for one costs the core a stall cycle
(R38, R193, R194). -/
def lateRows (c : Core) (cycle : Nat) (rows : List Nat) : Core :=
  let q := enterRows (retireIdle c cycle) rows
  if q.2 = 0 then q.1 else { q.1 with busy := max q.1.busy cycle + q.2, bufClock := max q.1.bufClock cycle + q.2 }

/-! The deposit ports (R225). -/

/-- The port of a row's bank takes the row in a cycle: it has taken no other row in it. -/
def portFree (c : Core) (cycle a : Nat) : Bool :=
  let p := nth (0, 0) c.ports (rowAt a % 3)
  p.1 != cycle + 1 || p.2 == rowAt a

def takePort (c : Core) (cycle a : Nat) : Core := { c with ports := setNth (0, 0) c.ports (rowAt a % 3) (cycle + 1, rowAt a) }

/-- Bytes written straight to the banks: a buffered entry of the row retires first, at no cost (R225, R335). -/
def bankWrite (c : Core) (a n v : Nat) : Core :=
  { c with lm := Memory.write c.lm a n v
           buf := c.buf.filter fun r => !(decide (a / 32 ≤ r) && decide (r ≤ (a + n - 1) / 32)) }

/-- Blocks of L1 of one age take another. -/
def l1Raise (from_ to_ : Nat) (c : Core) : Core := { c with l1Age := c.l1Age.map fun q => (q.1, if q.2 = from_ then to_ else q.2) }

/-- Something of another core reaches the core: a value that it reads past L1, a deposit, an incoming event of R271 (log 61). -/
def l1Heard (c : Core) : Core := l1Raise 1 2 c

/-- An event of the core behind which R272 orders its later loads: a local access, an atomic, a store on an SO page. The blocks that were overtaken
before what the core has heard serve a load only while their bytes are current (log 61). -/
def l1Order (c : Core) : Core := l1Raise 2 3 c

/-- The block of a sector serves a load only while its bytes are current (R272, R277, log 61). -/
def l1Bar (sec : Nat) (c : Core) : Core := { c with l1Age := Table.set c.l1Age sec 3 }

/-! Tasks and slots. -/

/-- The task of slot i becomes runnable and may issue from cycle t (R164, R194). -/
def makeRunnable (k i t : Nat) (s : State) : State :=
  let s := updCore s k fun c =>
    let x := slotAt c i
    setSlot (setSt (setSt c i 0 3 stRunnable) i 3 3 0) i { x with blockedIn := none, wake := false, readyAt := t }
  let s := if (coreOf s k).stopped then evAt s.cycle 3 .idleWake { a := k } s else s
  kick k t s

/-- The slot in which the handler of core c runs: the current one, while a trap is served (R335, R338). -/
def handlerSlot (c : Core) (i : Nat) : Bool := c.serving.isSome && i == curSlot c

/-- The task of slot i blocks with a WAIT code in an instruction (R194). -/
def block (c : Core) (i wait : Nat) (ins : Option Instr) : Core :=
  setSlot (setSt (setSt c i 0 3 stBlocked) i 3 3 wait) i { slotAt c i with blockedIn := ins }

/-! Gangs (R175, R339). -/

/-- The gang of core k: its members, lowest first; the core alone outside a gang. -/
def gangOf (s : State) (k : Nat) : List Nat :=
  let c := coreOf s k
  if c.gangSize = 0 then [k] else (upTo c.gangSize).map (c.gangBase + ·)

/-- The lowest slot of core k whose task is blocked in a gang.form of a code (R210). -/
def formingSlot (c : Core) (code : Nat) : Option Nat :=
  (upTo 8).find? fun i =>
    let x := slotAt c i
    x.live && x.trap.isNone && stState c i == stBlocked && (match x.blockedIn with | some (.gangForm n _) => n == code | _ => false)

/-- The members of a gang of code g led by core k, each with its slot, if all are present and none serves a trap (R210, R338). -/
def gangReady (s : State) (k g : Nat) : Option (List (Nat × Nat)) :=
  (upTo (2 ^ g)).foldr (fun j acc =>
    let c := coreOf s (k + j)
    match acc, formingSlot c (if j = 0 then g else 0) with
    | some l, some i => if c.serving.isSome ∨ c.gangSize ≠ 0 then none else some ((k + j, i) :: l)
    | _, _ => none) (some [])

/-- Leaders of the rod of core k whose gang is complete. -/
def readyLeaders (s : State) (k : Nat) : List (Nat × Nat) :=
  (upTo 8).foldr (fun j l =>
    let q := k / 8 * 8 + j
    match (upTo 3).find? fun g => decide (j % 2 ^ (g + 1) = 0) && (gangReady s q (g + 1)).isSome with
    | some g => (q, g + 1) :: l
    | none => l) []

/-- When the last member is present, the gang forms within 4 cycles (R210); its members' wake-ups are in flight. -/
def tryGangs (k : Nat) (s : State) : State :=
  (readyLeaders s k).foldl (fun s (q : Nat × Nat) =>
    match gangReady s q.1 q.2 with
    | none => s
    | some ms =>
      if ms.all fun m => (slotAt (coreOf s m.1) m.2).wake then s
      else
        let s1 := ms.foldl (fun s m => updSlot s m.1 m.2 fun x => { x with wake := true }) s
        evAt (s.cycle + between 1 4 s) 0 .gangFormed { a := q.1, b := q.2 } (tick s1)) s

/-- The gang of core k ends: GSZ, GIDX and LEADER are cleared and followers become runnable (R211, R339). The traps of other
tasks of its cores, which have waited for its end, may be taken, and other gangs may form (R210, log 67). -/
def disband (k : Nat) (s : State) : State :=
  if (coreOf s k).gangSize = 0 then s
  else
    let ks := gangOf s k
    let s := ks.foldl (fun s j =>
      let i := curSlot (coreOf s j)
      let wasFollower := stState (coreOf s j) i == stFollower
      let s := updCore s j fun c => setSt { l1Heard c with gangBase := 0, gangSize := 0 } i 22 6 0
      let s := if (coreOf s j).slots.any fun x => x.trap.isSome then evAt (s.cycle + 1) 0 .pendingTrap { a := j } s else s
      if wasFollower then makeRunnable j i (s.cycle + 1) s else s) s
    tryGangs k s

/-! Containment and the end of a domain (R352, R391). -/

/-- The unit that the events of a row concern first: a core, a die, a rod, a domain. -/
inductive EvUnit where
  | core | die | rod | dom | other
deriving DecidableEq, Repr

def evUnit : Instr → EvUnit
  | .pendingTrap | .writeBufferRetire | .watchEntryResume | .gangFormed | .barrierApply | .barrierRelease | .queueWordLand | .qPutRetry
  | .ctrReadReturn | .ctrWaitWake | .slotFreeAfterDrain | .idleWake | .depositApply | .globalLoadArrival | .l1Fill | .prefFill | .storeAck
  | .tagRoomResume | .loadAfterStoreAck | .soAccessStart | .fenceReleaseDone | .waitWakeOnWrite | .waitTimeout | .mshrReissue | .dirtyReread
  | .tlbInvDone | .wsSwDone | .jobEntryTake | .copyDepositLand | .copyFaultPost | .jobCompletion | .gatherRequestArrive | .gatherReadDone
  | .copyReplay | .nackReceive | .requestReissue | .baristaRingEnter => .core
  | .recordHeld | .distributorSelect | .recordBind | .coLaunchPlacement | .walkStart | .tlbWalkFill | .migRewalk | .faultPost | .faultEntryResume
  | .faultRequesterRelease => .die
  | .copySectorTurn | .pinGranted | .tileFetch | .tileStart | .tileDone => .rod
  | .roundSample | .roundResult | .instantBoundary | .instantOpen | .instantLimitExpiry | .evictSave => .dom
  | _ => .other

/-- A step that is due belongs to domain m, on the dies of a mask. -/
def itemOf (m mask : Nat) (it : Item) : Bool :=
  match it with
  | .issue k => !isBarista k && bit mask (dieOfCore k)
  | .ev i x =>
    match evUnit i with
    | .core => !isBarista x.a && bit mask (dieOfCore x.a)
    | .die => bit mask x.a
    | .rod => bit mask (x.a / Config.rodsPerDie)
    | .dom => x.a == m
    | .other => false

/-- A write of a contained domain that is not acknowledged is performed wholly or not at all; which, the manual leaves open (R352, log 2).
One whose die does not hold the line's tokens is not performed. -/
def settleWrite (die pa : Nat) (bytes : List Byte) (s : State) : State :=
  let s := tick s
  if Config.pick s.free % 2 = 0 then s
  else if isDram pa then (if mayWrite s die (lineOf pa) then writeAt die pa bytes s else s)
  else if isHost pa then { s with host := Memory.writeBytes s.host (pa - windowBase) bytes }
  else s

/-- Bytes replaced at an address: whole bytes, or four bits of one (R293). -/
def overHalf (half old v : Nat) : Nat := if half = 0 then v else setFld old (4 * (half - 1)) 4 v

/-- Accesses are given up; a read that had joined one of them looks again (R265). -/
def dropAccs (p : Nat → Acc → Bool) (s : State) : State :=
  let gone := (s.accs.filter fun q => p q.1 q.2).map Prod.fst
  let s := { s with accs := s.accs.filter fun q => !p q.1 q.2 }
  s.accs.foldl (fun s (q : Nat × Acc) =>
    if (q.2.stage = .joined ∨ q.2.stage = .behind) ∧ gone.contains q.2.older then
      evAt (s.cycle + 1) 0 .mshrReissue { a := q.2.core, b := q.1 } { s with accs := Table.set s.accs q.1 { q.2 with stage := .behind } }
    else s) s

/-- The unit that performs the halo writes of a domain whose lowest die it is, as the source of an access (R396). -/
def haloUnit (die : Nat) : Nat := Config.allCores + 1 + Config.dies + die

/-- The halo writes in progress on the dies of a mask, whose domain is gone, are refused (R396). -/
def refuseHalos (mask : Nat) (s : State) : State :=
  s.accs.foldl (fun s (q : Nat × Acc) =>
    match q.2.next with
    | some (i, a) =>
      if haloUnit 0 ≤ q.2.core ∧ bit mask (q.2.core - haloUnit 0) ∧ q.2.stage ≠ .back ∧ q.2.stage ≠ .fault then
        evAt s.cycle 3 i a { s with accs := Table.set s.accs q.1 { q.2 with stage := .fault, got := 1 } }
      else s
    | none => s) s

/-- The accesses, jobs and transfers of the cores of a mask are discarded (R352). -/
def discard (mask dom : Nat) (s : State) : State :=
  let mine (k : Nat) : Bool := !isBarista k && bit mask (dieOfCore k)
  let s := s.accs.foldl (fun s (q : Nat × Acc) =>
    let x := q.2
    if mine x.core && (x.kind == .store || (x.kind == .uwrite && x.op == 0)) && x.stage == .path then settleWrite (dieOfCore x.core) x.pa (toBytes x.n x.val) s else s) s
  let s := refuseHalos mask (dropAccs (fun _ x => mine x.core) s)
  { s with walks := s.walks.filter fun q => !bit mask q.2.die
           flights := s.flights.filter fun q => !mine q.2.core
           cores := s.cores.map fun q =>
             if q.2.bar then
               (q.1, { q.2 with ring := q.2.ring.filter fun j => j.dom != dom, ringWait := q.2.ringWait.filter fun j => j.dom != dom
                                current := q.2.current.map fun j => if j.dom = dom then { j with error := 9 } else j })
             else q }

/-- A barista that waits in mcl.done for a request that was discarded goes on (R329, R352). -/
def resumeBaristas (s : State) : State :=
  (s.cores.filter fun q => q.2.bar && (slotAt q.2 0).blockedIn == some .mclDone && (match q.2.current with | some j => j.error != 0 | none => true)).foldl
    (fun s q => makeRunnable q.1 0 (s.cycle + 1) (updSlot (updCore s q.1 fun c => { c with current := none }) q.1 0 fun x => { x with pc := (x.pc + 4) % 2 ^ 32 })) s

/-- Nothing more of a domain happens; its dies are wiped within 2^19 cycles (R391). -/
def stopDomain (m : Nat) (s : State) : State :=
  let d := domAt s m
  let s := updDom s m fun d => { d with ended := true, isOpen := false }
  let s := resumeBaristas (discard d.mask d.number (unschedule (itemOf m d.mask) s))
  (diesOf d.mask).foldl (fun s n => evAt (s.cycle + between 1 (2 ^ 19) s) 0 .dieWipeComplete { a := n } (tick s)) s

/-- The domain is contained: its cores stop, its jobs and records are discarded, and the host receives the report (R352, R391). -/
def contain (m : Nat) (cause sub core : Nat) (report : SigSet) (s : State) : State :=
  let d := domAt s m
  if d.ended then s
  else
    let s := updDom s m fun d => { d with cause := cause, sub := sub, cerrCore := core, cerrSet := report }
    writeReport d.report d.fn d.number 1 cause sub (d.instant % 2 ^ 64) core (stopDomain m s)

/-! Traps (R335 to R342). -/

/-- Handler workspace of TVEC, whether a handler is installed, its entry PC (Table 18.2). -/
def tvecBase (c : Core) : Nat := fld c.tvec.toNat 10 5 * 0x400
def tvecEn (c : Core) : Bool := bit c.tvec.toNat 15
def tvecEntry (c : Core) : Nat := fld c.tvec.toNat 16 16 * 4

/-- The CAUSE word (Table 18.3). -/
def causeWord (t : Trap) (member : Nat) (gang : Bool) : Nat := t.cause + t.sub * 2 ^ 8 + member * 2 ^ 16 + b2n gang * 2 ^ 19

/-- The words of a trap frame that name the instruction: TPC, NPC, IWORD, PWORD (R336, R337, R406). -/
def frameWords (d : Domain) (pc : Nat) (pfx : Option Nat) (t : Trap) : Nat × Nat × Nat × Nat :=
  match pfx with
  | none =>
    if t.fetch then (pc, pc, 0, 0)
    else let q := imageWord d pc; (pc, (pc + q.1) % 2 ^ 32, q.2, 0)
  | some p =>
    if t.fetch then (pc, pc, 0, p)
    else if t.pfxOnly then (pc, (pc + 4) % 2 ^ 32, p, 0)
    else let q := imageWord d ((pc + 4) % 2 ^ 32); (pc, (pc + 4 + q.1) % 2 ^ 32, q.2, p)

/-- RPC: NPC for SYSC and BREAK, TPC otherwise (R337). -/
def resumePc (t : Trap) (tpc npc : Nat) : Nat := if t.cause = 9 ∨ t.cause = 10 then npc else tpc

/-- Write the frame of a trap of slot i (R335, R336), straight to the banks. -/
def writeFrame (c : Core) (d : Domain) (i : Nat) (t : Trap) (member : Nat) (gang : Bool) (report : SigSet) : Core :=
  let w := frameWords d (slotAt c i).pc c.pfx t
  let f := slotBase c i + offFrame
  let c := bankWrite c f 4 (causeWord t member gang)
  let c := bankWrite c (f + 4) 4 (resumePc t w.1 w.2.1)
  let c := bankWrite c (f + 8) 4 w.1
  let c := bankWrite c (f + 12) 4 w.2.1
  let c := bankWrite c (f + 16) 4 w.2.2.1
  let c := bankWrite c (f + 20) 4 w.2.2.2
  let c := bankWrite c (f + 24) 8 t.info
  let c := bankWrite c (f + 32) 8 (d.instant % 2 ^ 64)
  let c := bankWrite c (f + 40) 8 0
  bankWrite c (f + 48) 16 report.toNat

/-- A barista request ends, in error if the code is not 0: the job of its core carries the outcome, and its completion is due (R287,
R305). Pushes of it that are in flight are dropped in an error. The completion is performed at least 100 cycles later, whatever the die: the
manual gives the way from a barista to a counter no figure (DESIGN CHOICE, log 87). -/
def requestEnds (j : Job) (code va : Nat) (s : State) : State :=
  match nth [] (coreOf s j.core).jobs 2 with
  | [] => s
  | h :: js =>
    if h.id ≠ j.id ∨ h.dom ≠ j.dom then s
    else
      let s := updCore s j.core fun c => { c with jobs := setNth [] c.jobs 2 ({ h with error := code, errVa := va, done_ := j.done_, ending := true } :: js) }
      let s := if code = 0 then s else { s with flights := s.flights.filter fun q => !(q.2.core == j.core && q.2.queue == 2) }
      engineAt (s.cycle + atLeast 100 s) j.core .jobCompletion { a := j.core, b := 2 } (tick s)

/-- A PC that is loaded from a word: its bit 0 is zero (R65). -/
def evenPc (v : Nat) : Nat := v / 2 * 2

/-- A trap of a barista: the frame in its workspace, the current request ends in error with CODE 0x0B, CAUSE and TPC in its fault
record, and the barista continues at START (R331). -/
def baristaTrap (k : Nat) (t : Trap) (s : State) : State :=
  let c := coreOf s k
  let pc := (slotAt c 0).pc
  let c := writeFrame c (imageOf s k) 0 t 0 false 0
  let x := slotAt c 0
  let c' := setSlot (setSt c 0 0 6 0) 0 { x with pc := evenPc (lmRead c 0x40 4), blockedIn := none, readyAt := s.cycle + 1 }
  let c' := { c' with pfx := none, busy := s.cycle + 1, current := none }
  let s := setCore s k c'
  let s := match c.current with
    | none => s
    | some j => if j.error ≠ 0 then s else requestEnds j 0x0B (causeWord t 0 false + pc * 2 ^ 32) s
  kick k (s.cycle + 1) s

/-- Taking a trap: the task of slot i of core k takes trap t (R335 to R339). Within a handler, or with no handler installed, the
domain is contained; else the frame is written, the handler's w1 and w2 and PC are set, WSP changes, and the handler issues in
cycle c + 4. A trap of a gang member disbands the gang, with the frame in the leader's workspace (R339). A trap of another task of a member's
core does not come here before the gang has ended (log 67). -/
def takeTrap (k i : Nat) (t : Trap) (member : Nat) (report : SigSet) (s : State) : State :=
  let gang := decide ((coreOf s k).gangSize ≠ 0)
  let s := disband k s
  let c := coreOf s k
  let h := tvecBase c
  if isBarista k then baristaTrap k t s else
  match domOf s k with
  | none => s
  | some m =>
    if c.serving.isSome || !tvecEn c || slotBase c i == h then contain m t.cause t.sub k report (setCore s k { c with pfx := none })
    else
      let c := writeFrame c (domAt s m) i t member gang report
      let c := bankWrite c (h + 4) 4 (slotBase c i)
      let c := bankWrite c (h + 8) 4 (causeWord t member gang)
      let c := bankWrite c (h + offPcSave) 4 (tvecEntry c)
      let c := bankWrite c (slotBase c i + offPcSave) 4 (slotAt c i).pc
      let o := curSlot c
      let c := if o ≠ i ∧ (slotAt c o).live then bankWrite c (slotBase c o + offPcSave) 4 (slotAt c o).pc else c
      let hi := slotOf c h
      let c := setSlot (setSt c hi 0 6 stRunnable) hi { slotAt c hi with pc := tvecEntry c, blockedIn := none }
      let c := setSlot c i { slotAt c i with trap := none }
      let c := { c with wsp := BitVec.ofNat 32 h, serving := some i, pfx := none, busy := s.cycle + 4, moved := false, armed := none,
                        stopped := false }
      kick k (s.cycle + 4) (setCore s k c)

/-- A trap of the instruction that core s.cur issues. -/
def trapNow (t : Trap) (s : State) : State :=
  takeTrap s.cur (curSlot (coreOf s s.cur)) t 0 0 s

def illeg (sub : Nat) : Trap := { cause := 1, sub := sub }
def trapOf (cause sub info : Nat) : Trap := { cause := cause, sub := sub, info := info }

/-! Running an instruction on its own core. -/

/-- What an instruction does to one core: the core after it, the rows it reads, the rows it writes through the write buffer in order,
the rows it writes past it, its base cost, the PC it transfers to. -/
structure Eff where
  core : Core
  rd : List Nat := []
  wr : List Nat := []
  direct : List Nat := []
  bank : List Nat := []
  cost : Nat := 1
  jump : Option Nat := none
  /-- What else becomes of the core once the cost is charged and the PC has moved: a counter set (R112), a WSP change (R31). -/
  post : Core → Core := id
  /-- ROD.WEIGHT as written (14 Table 14.5). -/
  weight : Option Word := none

/-- A meaning on one core, from the PC of the instruction. -/
abbrev Local := Core → Nat → TrapOr Eff

/-- Who executes an instruction in a gang (Table 9.1). -/
inductive GangUse where
  | members | leader | nobody
deriving DecidableEq, Repr

/-- The core after an instruction: cost, PC, turn (R40, R90, R165). -/
def finish (cycle len : Nat) (e : Eff) : Core × Nat :=
  let q := account e.core cycle e.rd e.wr e.direct e.bank e.cost
  let i := curSlot q.1
  let plen := if q.1.pfx.isSome then 4 else 0
  let x := slotAt q.1 i
  let pc := match e.jump with | some t => t % 2 ^ 32 | none => (x.pc + plen + len) % 2 ^ 32
  (e.post (setSlot { q.1 with pfx := none, busy := cycle + q.2, moved := true } i { x with pc := pc }), q.2)

/-- ROD.WEIGHT of the rod of core k, if the instruction wrote it. -/
def setWeight (k : Nat) (e : Eff) (s : State) : State :=
  match e.weight with
  | none => s
  | some w => updRod s (rodOfCore k) fun r => { r with weight := w }

/-- The PC of the instruction that core c issues: behind its prefix, if one was fetched (R75). -/
def insPc (c : Core) : Nat := let pc := (slotAt c (curSlot c)).pc; if c.pfx.isSome then (pc + 4) % 2 ^ 32 else pc

/-- Check a list of cores: the effects of all, or the member that traps first with its trap (R141). -/
def checkAll (f : Nat → Local) (pc : Nat) (pfx : Option Nat) (s : State) : Nat → List Nat → Except (Nat × Trap) (List (Nat × Eff))
  | _, [] => .ok []
  | n, k :: ks =>
    match f k { coreOf s k with pfx := pfx } pc with
    | .error t => .error (n, t)
    | .ok e =>
      match checkAll f pc pfx s (n + 1) ks with
      | .error x => .error x
      | .ok es => .ok ((k, e) :: es)

/-- The followers of a gang after an instruction: their own PCs stay where they are (R210). -/
def finishFollower (cycle : Nat) (e : Eff) : Core × Nat :=
  let q := account e.core cycle e.rd e.wr e.direct e.bank e.cost
  (e.post { q.1 with pfx := none, busy := cycle + q.2 }, q.2)

/-- A gang's instruction on every member, all checked before any acts; the gang pays the greatest cost (R141, R339). -/
def runGang (len : Nat) (f : Nat → Local) (s : State) : State :=
  let k := s.cur
  let c := coreOf s k
  match checkAll f (insPc c) c.pfx s 0 (gangOf s k) with
  | .error (n, t) => takeTrap k (curSlot c) t n 0 s
  | .ok es =>
    let top := es.foldl (fun m x => max m (account x.2.core s.cycle x.2.rd x.2.wr x.2.direct x.2.bank x.2.cost).2) 0
    let s' := es.foldl (fun t x =>
      let q := if x.1 = k then finish s.cycle len x.2 else finishFollower s.cycle x.2
      setWeight x.1 x.2 (setCore t x.1 q.1)) s
    kick k (s.cycle + top) (updCore s' k fun c => { c with busy := s.cycle + top })

/-- The trap of an instruction that a gang does not execute: ILLEG subcode 4 in place of a later one (R67, R196). -/
def notInGang (c : Core) (use : GangUse) (t : Trap) : Trap :=
  if c.gangSize ≠ 0 ∧ use = .nobody ∧ ¬ (t.cause = 1 ∧ t.sub ≤ 3) then illeg 4 else t

/-- An instruction that acts on the issuing core alone, or on every member of its gang (R67, R141, R196); f is its meaning on the core
of a number. -/
def runAt (use : GangUse) (len : Nat) (f : Nat → Local) (s : State) : Out :=
  let k := s.cur
  let c := coreOf s k
  if c.gangSize ≠ 0 ∧ use = .members then .next (runGang len f s)
  else
    match f k c (insPc c) with
    | .error t => .next (trapNow (notInGang c use t) s)
    | .ok e =>
      if c.gangSize ≠ 0 ∧ use = .nobody then .next (trapNow (illeg 4) s)
      else let q := finish s.cycle len e; .next (kick k (max (s.cycle + q.2) q.1.busy) (setWeight k e (setCore s k q.1)))

/-- An instruction whose meaning needs the core alone. -/
def runLocal (use : GangUse) (len : Nat) (f : Local) (s : State) : Out := runAt use len (fun _ => f) s

/-- An instruction that acts beyond its core and that no gang executes: its checks, then its action (R67, R196). -/
def runGlobal (check : Core → Nat → Option Trap) (act : State → State) (s : State) : Out :=
  let c := coreOf s s.cur
  match check c (insPc c) with
  | some t => .next (trapNow (notInGang c .nobody t) s)
  | none => if c.gangSize ≠ 0 then .next (trapNow (illeg 4) s) else .next (act s)

/-- The instruction of len bytes that core s.cur issues has this effect on the core: cost, PC, turn (R40, R90). -/
def complete (len : Nat) (f : Core → Eff) (s : State) : State :=
  let k := s.cur
  let q := finish s.cycle len (f (coreOf s k))
  kick k (max (s.cycle + q.2) q.1.busy) (setCore s k q.1)

/-- A local load or store: it is performed at issue, and R272 orders every later access behind it (R36, R280). -/
def ordering (f : Local) : Local := fun c pc => (f c pc).map fun e => { e with core := l1Order e.core }

/-- The usual effect: a core, rows read, rows written, base cost. -/
def eff (c : Core) (rd wr : List Nat) (cost : Nat) : TrapOr Eff := .ok { core := c, rd := rd, wr := wr, cost := cost }

end Sys2Proof.Machine
end

