-- ==== Sys2Proof/Machine/Control.lean ====
section
/-!
DEFINITION. Control: transfer of control (04 R105 to R109).
-/

namespace Sys2Proof.Machine

/-- A PC moved by a signed count of halfwords of n bits (R70). -/
def pcRel (n pc o : Nat) : Nat := (pc + 2 * sext n 32 o) % 2 ^ 32

/-- A conditional branch: when the test of wa and wb holds, PC moves by 2 × off (R105). A taken branch costs 2 (R115). R144 speaks of 64-bit
bltn and bgen; format B has no type field, and the branches are those of R105 on 32-bit registers (DEDUCED, log 73). -/
def branchOp (cond offBits : Nat) (o b a : Nat) : Local := fun c pc =>
  if branchTest cond (rdW c a) (rdW c b) then
    .ok { core := c, rd := [rowW c a, rowW c b], cost := 2, jump := some (pcRel offBits pc o) }
  else eff c [rowW c a, rowW c b] [] 1

/-- bz and bnz test wa alone (R105, R106). -/
def branchZ (nz : Bool) (offBits : Nat) (o a : Nat) : Local := fun c pc =>
  if (rdW c a != 0) == nz then .ok { core := c, rd := [rowW c a], cost := 2, jump := some (pcRel offBits pc o) }
  else eff c [rowW c a] [] 1

/-- b (R106). -/
def jumpOp (offBits : Nat) (o : Nat) : Local := fun c pc => .ok { core := c, cost := 2, jump := some (pcRel offBits pc o) }

/-- call: w15 ← PC + 4, then the jump (R106). -/
def callOp (o : Nat) : Local := fun c pc =>
  .ok { core := wrW c 15 ((pc + 4) % 2 ^ 32), wr := rowsW c 15, cost := 2, jump := some (pcRel 25 pc o) }

/-- loop: wa falls by one; a branch while it is not zero; field a = 0 is a bad operand (R107). -/
def loopOp (o a : Nat) : Local := fun c pc =>
  if a = 0 then .error (illeg 4)
  else
    let t := (rdW c a + (2 ^ 32 - 1)) % 2 ^ 32
    let c' := wrW c a t
    if t ≠ 0 then .ok { core := c', rd := [rowW c a], wr := rowsW c a, cost := 2, jump := some (pcRel 14 pc o) }
    else eff c' [rowW c a] (rowsW c a) 1

/-- jr, jalr and ret: an odd target takes ALIGN subcode 2 before any effect (R107, R108). -/
def jumpReg (link : Bool) (a : Nat) : Local := fun c pc =>
  let t := rdW c a
  if t % 2 = 1 then .error (trapOf 3 2 t)
  else if link then .ok { core := wrW c 15 ((pc + 4) % 2 ^ 32), rd := [rowW c a], wr := rowsW c 15, cost := 2, jump := some t }
  else .ok { core := c, rd := [rowW c a], cost := 2, jump := some t }

/-- BEQ (R105). -/
def execBeq (o b a : Nat) (s : State) : Out :=
  runLocal .leader 4 (branchOp 0 14 o b a) s

/-- BNE (R105). -/
def execBne (o b a : Nat) (s : State) : Out :=
  runLocal .leader 4 (branchOp 1 14 o b a) s

/-- BLT (R105). -/
def execBlt (o b a : Nat) (s : State) : Out :=
  runLocal .leader 4 (branchOp 2 14 o b a) s

/-- BGE (R105). -/
def execBge (o b a : Nat) (s : State) : Out :=
  runLocal .leader 4 (branchOp 3 14 o b a) s

/-- BLTN (R105). -/
def execBltn (o b a : Nat) (s : State) : Out :=
  runLocal .leader 4 (branchOp 4 14 o b a) s

/-- BGEN (R105). -/
def execBgen (o b a : Nat) (s : State) : Out :=
  runLocal .leader 4 (branchOp 5 14 o b a) s

/-- BZ (R105). -/
def execBz (o a : Nat) (s : State) : Out :=
  runLocal .leader 4 (branchZ false 14 o a) s

/-- BNZ (R105). -/
def execBnz (o a : Nat) (s : State) : Out :=
  runLocal .leader 4 (branchZ true 14 o a) s

/-- BZ_16 (R106). -/
def execBz16 (o a : Nat) (s : State) : Out :=
  runLocal .leader 2 (branchZ false 7 o a) s

/-- BNZ_16 (R106). -/
def execBnz16 (o a : Nat) (s : State) : Out :=
  runLocal .leader 2 (branchZ true 7 o a) s

/-- B (R106). -/
def execB (o : Nat) (s : State) : Out :=
  runLocal .leader 4 (jumpOp 25 o) s

/-- B_16 (R106). -/
def execB16 (o : Nat) (s : State) : Out :=
  runLocal .leader 2 (jumpOp 12 o) s

/-- CALL (R106). -/
def execCall (o : Nat) (s : State) : Out :=
  runLocal .leader 4 (callOp o) s

/-- LOOP (R107). -/
def execLoop (o a : Nat) (s : State) : Out :=
  runLocal .leader 4 (loopOp o a) s

/-- JR (R107). -/
def execJr (a : Nat) (s : State) : Out :=
  runLocal .leader 4 (jumpReg false a) s

/-- JALR (R107). -/
def execJalr (a : Nat) (s : State) : Out :=
  runLocal .leader 4 (jumpReg true a) s

/-- RET (R107). -/
def execRet (s : State) : Out :=
  runLocal .leader 4 (jumpReg false 15) s

end Sys2Proof.Machine
end

