-- ==== Sys2Proof/Machine/Fetch.lean ====
section
/-!
DEFINITION. Fetch: the turn of the tasks of a core (08 R165, R175, 18 R338), fetching and decoding (03 R65 to R67, 04 R90, 15 R331),
and the prefix (R75).
-/

namespace Sys2Proof.Machine

/-- An issue that is due either only prepares the core, or issues an instruction now. -/
inductive Turn where
  | wait (s : State)
  | go (s : State)

/-- Slot i may issue in a cycle. -/
def mayIssue (c : Core) (cycle i : Nat) : Bool := canRun c i && decide ((slotAt c i).readyAt ≤ cycle)

/-- Slots in rotation order after the current one, the current one last (R165). -/
def rotation (c : Core) : List Nat := (upTo 8).map fun i => (curSlot c + 1 + i) % 8

/-- The slot whose turn it is, and the first cycle in which it may issue. -/
def nextTurn (c : Core) (cycle : Nat) : Option (Nat × Nat) :=
  match (rotation c).find? (mayIssue c cycle) with
  | some i => some (i, cycle)
  | none =>
    match (rotation c).filter (canRun c) with
    | [] => none
    | i :: is => some (is.foldl (fun b j => if (slotAt c j).readyAt < b.2 then (j, (slotAt c j).readyAt) else b) (i, (slotAt c i).readyAt))

/-- The core moves to slot i: a WSP change, in which it issues nothing for 2 cycles; the PC save of the task that leaves is written
(R30, R31, R165, log 39). -/
def switchTo (c : Core) (cycle i : Nat) : Core :=
  let o := curSlot c
  let c := if (slotAt c o).live then bankWrite c (slotBase c o + offPcSave) 4 (slotAt c o).pc else c
  { c with wsp := BitVec.ofNat 32 (slotBase c i), busy := cycle + 2, moved := false }

/-- The write buffer of a core that has nothing to issue goes on retiring (R38). -/
def idleBuffer (k : Nat) (s : State) : State :=
  if (coreOf s k).buf.isEmpty then s else evAt s.cycle 2 .writeBufferRetire { a := k } s

/-- The turn of core k (R165, R338): the handler alone while it runs; nothing while a trap is pending, while the instant is not open
(R184), or on a gang's follower (R175); else the rotation. -/
def turnOf (k : Nat) (s : State) : Turn :=
  let c := coreOf s k
  if c.armed ≠ some s.cycle then .wait s
  else
    let s := setCore s k { c with armed := none }
    let c := coreOf s k
    let open_ := if c.bar then c.running else (match domOf s k with | some m => (domAt s m).isOpen | none => false)
    if !open_ then .wait s
    else if s.cycle < c.busy then .wait (kick k c.busy s)
    else if c.bar || c.serving.isSome then
      let x := slotAt c (curSlot c)
      if x.blockedIn.isSome || stState c (curSlot c) != stRunnable then .wait s
      else if s.cycle < x.readyAt then .wait (kick k x.readyAt s)
      else .go s
    else if c.gangSize ≠ 0 then
      (if k = c.gangBase ∧ mayIssue c s.cycle (curSlot c) ∧ (gangOf s k).all fun j => let c := coreOf s j; (slotAt c (curSlot c)).trap.isNone then .go s
       else .wait s)
    else if c.slots.any fun x => x.trap.isSome then .wait s
    else if !c.moved && mayIssue c s.cycle (curSlot c) then .go s
    else
      match nextTurn c s.cycle with
      | none => .wait (idleBuffer k s)
      | some (i, t) =>
        if s.cycle < t then .wait (kick k t s)
        else if i = curSlot c then .go s
        else .wait (kick k (s.cycle + 2) (setCore s k (switchTo c s.cycle i)))

/-- Majors that a barista executes (R331). -/
def baristaMajor (w : Nat) : Bool :=
  let m := fld w 1 6
  (decide (0x01 ≤ m) && decide (m ≤ 0x10)) || (decide (0x16 ≤ m) && decide (m ≤ 0x1E)) || m == 0x20 || m == 0x21 || m == 0x29

/-- The instruction of a word on a unit: a barista refuses other majors and the sync sub-codes but nop; a compute core refuses major
0x29 (R77, R331). -/
def onUnit (bar : Bool) (len w : Nat) (i : Instr) : Instr :=
  if len = 2 then
    (if bar && fld w 1 3 == 6 && fld w 4 4 != 0 then .unallocatedOpcode else i)
  else if bar then (if baristaMajor w then i else .unallocatedOpcode)
  else if fld w 1 6 = 0x29 then .unallocatedOpcode else i

/-- The unit refuses a word before its fields are looked at: check 1 of Table 3.1 (R67). -/
def refusedFirst (bar : Bool) (len w : Nat) : Bool := onUnit bar len w .nop == .unallocatedOpcode

/-- Fetch and decode at the PC of the current task of core s.cur: the word and the instruction, or the trap of checks 3 and 5 that the
word itself decides (R65 to R67, R90). -/
def fetch (s : State) : Nat × TrapOr Instr :=
  let c := coreOf s s.cur
  let q := imageWord (imageOf s s.cur) (insPc c)
  if q.1 = 0 then (0, .ok .fetchBeyondCodeImage)
  else if refusedFirst c.bar q.1 q.2 then (q.2, .ok .unallocatedOpcode)
  else
    match decodeWord (8 * q.1) q.2 with
    | .ok i => (q.2, .ok i)
    | .error (.reservedField _) => (q.2, .error (illeg 2))
    | .error (.badOperand _) => (q.2, .error (illeg 4))
    | .error .tooShort => (q.2, .ok .fetchBeyondCodeImage)

/-- The state in which core k issues: it acts, its task has issued (R180), the word stands in the event's units. -/
def issuing (k : Nat) (s : State) : State :=
  let s := updSlot { s with cur := k, turn := none } k (curSlot (coreOf s k)) fun x => { x with fresh := false }
  { s with args := { a := (fetch s).1 } }

/-- Take an entry of least time and tie from the agenda, the oldest among equals. -/
def leastOf : List Entry → Option (Entry × List Entry)
  | [] => none
  | e :: es =>
    match leastOf es with
    | none => some (e, [])
    | some (m, rest) =>
      if e.time < m.time ∨ (e.time = m.time ∧ e.tie < m.tie) then some (e, es) else some (m, e :: rest)

/-- The word of a vector prefix from its fields (Table 3.9). -/
def prefixWord (c r z m : Nat) : Nat := 0x3D + m * 2 ^ 7 + z * 2 ^ 10 + r * 2 ^ 11 + c * 2 ^ 14

/-- VECTOR_PREFIX (R75): the instruction that follows, if it is a vector instruction, issues with it as one instruction, in the next
step of the model and at no cost of its own. Else ILLEG subcode 3, or the fetch trap where the image ends. -/
def execVectorPrefix (c r z m : Nat) (s : State) : Out :=
  let k := s.cur
  let w := prefixWord c r z m
  let here := coreOf s k
  let s := setCore s k { here with pfx := some w }
  if here.pfx.isSome then .next (trapNow { cause := 1, sub := 3, pfxOnly := true } (setCore s k { here with pfx := some w }))
  else
    let d := imageOf s k
    let pc := ((slotAt here (curSlot here)).pc + 4) % 2 ^ 32
    match imageHalf d pc with
    | none => .next (trapNow { cause := 1, sub := 1, fetch := true } s)
    | some h =>
      let vec := instrLen h == 4 && decide (0x16 ≤ fld h 1 6) && decide (fld h 1 6 ≤ 0x1D)
      if (imageWord d pc).1 = 0 then .next (trapNow { cause := 1, sub := 1, fetch := true } s)
      else if !vec then .next (trapNow { cause := 1, sub := 3, pfxOnly := true } s)
      else .next { s with turn := some k }

/-- UNALLOCATED_OPCODE: ILLEG subcode 1 (R67, R77). -/
def execUnallocatedOpcode (s : State) : Out := .next (trapNow (illeg 1) s)

/-- EMUL_MAJOR: EMUL with subcode major - 0x38 (R81); the word stands in the event's units. -/
def execEmulMajor (s : State) : Out := .next (trapNow (trapOf 2 (fld s.args.a 1 6 - 0x38) 0) s)

/-- FETCH_BEYOND_CODE_IMAGE: ILLEG subcode 1 as a trap of the fetch (R90, R336). -/
def execFetchBeyondCodeImage (s : State) : Out := .next (trapNow { cause := 1, sub := 1, fetch := true } s)

/-- WRITE_BUFFER_RETIRE: in a cycle in which core a issues nothing its oldest buffered row retires (R38). -/
def execWriteBufferRetire (s : State) : Out :=
  let k := s.args.a
  let c := coreOf s k
  if s.cycle < c.busy then .next s
  else
    let s := setCore s k (retireIdle c (s.cycle + 1))
    .next (if (coreOf s k).buf.isEmpty then s else evAt (s.cycle + 1) 2 .writeBufferRetire { a := k } s)

end Sys2Proof.Machine
end

