-- ==== Sys2Proof/Machine/LocalMem.lean ====
section
/-!
DEFINITION. LocalMem: local loads and stores and the region checks of local memory (04 R99 to R102, 01 R18).
-/

namespace Sys2Proof.Machine

/-- INFO of a local address (Table 18.4); a barista's addresses have 16 bits (R331). -/
def localInfo (c : Core) (ea : Nat) : Nat := ea % (if c.bar then 2 ^ 16 else 2 ^ 15)

/-- The n bytes from ea hold a protected word of slot i: status word and PC save, SPFLOOR, SPCEIL (R30). -/
def hitsProtected (c : Core) (i ea n : Nat) : Bool :=
  [offStatus, offPcSave, offFloor, offCeil].any fun o =>
    let p := slotBase c i + o
    decide (ea < p + 4) && decide (p < ea + n)

/-- The region tests of Table 1.1 for n bytes at ea (R18, R100); a barista has 64 KiB and a window that stores may reach (R331). -/
def regionTrap (c : Core) (ea n : Nat) (store : Bool) : Option Trap :=
  let info := localInfo c ea
  if c.bar then
    if 0x10000 ≤ ea then some (trapOf 4 1 info)
    else if store ∧ hitsProtected c 0 ea n then some (trapOf 4 4 info)
    else none
  else if 0x6000 ≤ ea then some (trapOf 4 1 info)
  else if store ∧ ea < 0x400 then some (trapOf 4 2 info)
  else if c.lmscr.toNat ≤ ea then some (trapOf 4 3 info)
  else if store ∧ (upTo (slotCount c)).any (fun i => hitsProtected c i ea n) then some (trapOf 4 4 info)
  else none

/-- Alignment, then region (R100). -/
def localTrap (c : Core) (ea n : Nat) (store : Bool) : Option Trap :=
  if ea % n ≠ 0 then some (trapOf 3 1 (localInfo c ea)) else regionTrap c ea n store

/-- The access of size code z and sign sx: bytes (Table 4.8). -/
def accessBytes (z : Nat) : Nat := 2 ^ z

/-- A loaded value as the register receives it (Table 4.8). -/
def extendLoad (sx n v : Nat) : Nat := if sx = 1 then sext (8 * n) 32 v else v

/-- The size and sign a local load or store accepts (R99, Table 3.17): none, or the trap. -/
def localKind (store : Bool) (sx z d : Nat) : Option Trap :=
  if z = 3 ∧ sx = 1 then some (illeg 4)
  else if sx = 1 ∧ (store ∨ z = 2) then some (illeg 2)
  else if z = 3 ∧ 8 ≤ d then some (illeg 2)
  else none

/-- Address of a format M access of n bytes (R100). -/
def localAddr (c : Core) (o n a : Nat) : Nat := pat 32 ((rdW c a : Int) + sgn 14 o * n)

/-- A local load at ea (R100). -/
def loadAt (ea n sx t a d : Nat) : Local := fun c _ =>
  match localTrap c ea n false with
  | some x => .error x
  | none => eff (wrR c t d (extendLoad sx n (lmRead c ea n))) [rowW c a, rowAt ea] (rowsR c t d) 1

/-- A local store at ea (R100, R101). -/
def storeAt (ea n t a d : Nat) : Local := fun c _ =>
  match localTrap c ea n true with
  | some x => .error x
  | none => eff (lmWrite c ea n (rdR c t d)) [rowW c a, rowR c t d] [rowAt ea] 1

/-- ld (R99, R100). -/
def ldOp (o sx z a d : Nat) : Local := fun c pc =>
  match localKind false sx z d with
  | some x => .error x
  | none => loadAt (localAddr c o (accessBytes z) a) (accessBytes z) sx (if z = 3 then 1 else 0) a d c pc

/-- st (R99, R100). -/
def stOp (o sx z a d : Nat) : Local := fun c pc =>
  match localKind true sx z d with
  | some x => .error x
  | none => storeAt (localAddr c o (accessBytes z) a) (accessBytes z) (if z = 3 then 1 else 0) a d c pc

/-- The 16-bit ld.32 and st.32 with an unsigned offset in words (R71, R102). -/
def ld16Op (o a d : Nat) : Local := fun c pc => loadAt ((rdW c a + 4 * o) % 2 ^ 32) 4 0 0 a d c pc
def st16Op (o a d : Nat) : Local := fun c pc => storeAt ((rdW c a + 4 * o) % 2 ^ 32) 4 0 a d c pc

/-! The stack (R32 to R35, R103, R104). -/

/-- A stack access: it acts on local memory, or it is redirected to a global address, with SP after it. -/
inductive StackAct where
  | here (e : Eff)
  | far (va sp : Nat)

/-- SP as a signed number, SPFLOOR, SPCEIL, and OVP with bits [2:0] taken as zero (R32). -/
def spOf (c : Core) : Int := sgn 32 (lmRead c (wsBase c + offSp) 4)
def floorOf (c : Core) : Nat := lmRead c (wsBase c + offFloor) 4
def ceilOf (c : Core) : Nat := lmRead c (wsBase c + offCeil) 4
def ovpOf (c : Core) : Nat := lmRead c (wsBase c + offOvp) 8 / 8 * 8

/-- The type of push and pop: bytes moved, or the trap (R103, Table 3.17). -/
def stackKind (t r : Nat) : Option Trap :=
  if t = 1 ∧ 8 ≤ r then some (illeg 2) else if 2 ≤ t then some (illeg 4) else none
def stackBytes (t : Nat) : Nat := if t = 0 then 4 else 8

/-- The redirected access of n bytes at sp (R32): a barista has no global access (R331). -/
def redirect (c : Core) (sp new : Int) : TrapOr StackAct :=
  if c.bar ∨ ovpOf c = 0 then .error (trapOf 12 1 (pat 32 sp))
  else .ok (.far (pat 64 ((ovpOf c : Int) + sp - floorOf c)) (pat 32 new))

/-- push (R32). -/
def pushTry (t a : Nat) (c : Core) : TrapOr StackAct :=
  match stackKind t a with
  | some x => .error x
  | none =>
    let n := stackBytes t
    let sp := spOf c - n
    if spOf c % n ≠ 0 then .error (trapOf 3 1 (localInfo c (pat 32 (spOf c))))
    else if (floorOf c : Int) ≤ sp then
      let ea := pat 32 sp
      match regionTrap c ea n true with
      | some x => .error x
      | none =>
        let c' := lmWrite (lmWrite c ea n (rdR c t a)) (wsBase c + offSp) 4 (pat 32 sp)
        .ok (.here { core := c', rd := [rowR c t a], wr := [rowAt ea, rowAt (wsBase c + offSp)] })
    else redirect c sp sp

/-- pop (R32). -/
def popTry (t d : Nat) (c : Core) : TrapOr StackAct :=
  match stackKind t d with
  | some x => .error x
  | none =>
    let n := stackBytes t
    let sp := spOf c
    if sp % n ≠ 0 then .error (trapOf 3 1 (localInfo c (pat 32 sp)))
    else if (ceilOf c : Int) < sp + n then .error (trapOf 12 2 (pat 32 sp))
    else if (floorOf c : Int) ≤ sp then
      let ea := pat 32 sp
      match regionTrap c ea n false with
      | some x => .error x
      | none =>
        let c' := wrR (lmWrite c (wsBase c + offSp) 4 (pat 32 (sp + n))) t d (lmRead c ea n)
        .ok (.here { core := c', rd := [rowAt ea], wr := rowsR c t d ++ [rowAt (wsBase c + offSp)] })
    else redirect c sp (sp + n)

/-- What a push or pop does to a core. -/
def stackTry (i : Instr) (c : Core) : TrapOr StackAct :=
  match i with
  | .push t a => pushTry t a c
  | .pop t d => popTry t d c
  | _ => .error (illeg 1)

/-- The part of it that stays on the core. -/
def stackLocal (i : Instr) : Local := fun c _ =>
  match stackTry i c with
  | .ok (.here e) => .ok e
  | .ok (.far _ sp) => .error (trapOf 12 1 sp)
  | .error t => .error t

/-- LD (R100). -/
def execLd (o sx z a d : Nat) (s : State) : Out :=
  runLocal .members 4 (ordering (ldOp o sx z a d)) s

/-- ST (R100). -/
def execSt (o sx z a d : Nat) (s : State) : Out :=
  runLocal .members 4 (ordering (stOp o sx z a d)) s

/-- LD_32_16 (R102). -/
def execLd3216 (o a d : Nat) (s : State) : Out :=
  runLocal .members 2 (ordering (ld16Op o a d)) s

/-- ST_32_16 (R102). -/
def execSt3216 (o a d : Nat) (s : State) : Out :=
  runLocal .members 2 (ordering (st16Op o a d)) s

end Sys2Proof.Machine
end

