-- ==== Sys2Proof/Machine/Alu.lean ====
section
/-!
DEFINITION. Alu: integer register operations, immediates, constants and bit fields (04 R88 to R98, R115).
-/

namespace Sys2Proof.Machine

/-! The functions of Table 4.1, on n-bit patterns (R89, R91, R92). -/

def aluAdd (n a b : Nat) : Nat := (a + b) % 2 ^ n
def aluSub (n a b : Nat) : Nat := pat n ((a : Int) - b)
def aluMul (n a b : Nat) : Nat := a * b % 2 ^ n
def aluMulh (n a b : Nat) : Nat := pat n (sgn n a * sgn n b / (2 : Int) ^ n)
def aluMulhn (n a b : Nat) : Nat := a * b / 2 ^ n
/-- Quotient truncated toward zero; all ones for a zero divisor; the most negative value over -1 is itself (R46). -/
def aluDiv (n a b : Nat) : Nat := if b = 0 then 2 ^ n - 1 else pat n (Int.tdiv (sgn n a) (sgn n b))
def aluDivn (n a b : Nat) : Nat := if b = 0 then 2 ^ n - 1 else a / b
def aluRem (n a b : Nat) : Nat := if b = 0 then a else pat n (Int.tmod (sgn n a) (sgn n b))
def aluRemn (_n a b : Nat) : Nat := if b = 0 then a else a % b
def aluAnd (_n a b : Nat) : Nat := Nat.land a b
def aluOr (_n a b : Nat) : Nat := Nat.lor a b
def aluXor (_n a b : Nat) : Nat := Nat.xor a b
def aluNot (n a : Nat) : Nat := 2 ^ n - 1 - a
def aluAndn (n a b : Nat) : Nat := Nat.land a (aluNot n b)
def aluOrn (n a b : Nat) : Nat := Nat.lor a (aluNot n b)
/-- Shift amounts: the low log2(n) bits of B (R46, R92). -/
def aluShl (n a b : Nat) : Nat := a * 2 ^ (b % n) % 2 ^ n
def aluShr (n a b : Nat) : Nat := a / 2 ^ (b % n)
def aluSra (n a b : Nat) : Nat := pat n (sgn n a / (2 : Int) ^ (b % n))
def aluRotl (n a b : Nat) : Nat := a * 2 ^ (b % n) % 2 ^ n + a / 2 ^ (n - b % n)
def aluMin (n a b : Nat) : Nat := if sgn n a ≤ sgn n b then a else b
def aluMax (n a b : Nat) : Nat := if sgn n b ≤ sgn n a then a else b
def aluMinn (_n a b : Nat) : Nat := if a ≤ b then a else b
def aluMaxn (_n a b : Nat) : Nat := if b ≤ a then a else b
def aluSlt (n a b : Nat) : Nat := if sgn n a < sgn n b then 1 else 0
def aluSltn (_n a b : Nat) : Nat := if a < b then 1 else 0
def aluClz (n a : Nat) : Nat := n - bitLen a
def aluCtz (n a : Nat) : Nat := lowBit n a
def aluPopc (n a : Nat) : Nat := popCount n a
def aluBswap (n a : Nat) : Nat := (upTo (n / 8)).foldl (fun v i => v * 256 + fld a (8 * i) 8) 0

/-! The shapes of the integer instructions. -/

/-- The field checks of a type field and the register fields it governs (R67, R69, R79): with type 1 bit 3 of a pair field is reserved,
and a type above 1 is a bad operand. -/
def typeCheck (t : Nat) (regs : List Nat) : Option Trap :=
  if 2 ≤ t then some (illeg 4) else if t = 1 ∧ regs.any (8 ≤ ·) then some (illeg 2) else none

/-- d ← a func b, major 0x01 (R91). cost is the base cost for type 0 and type 1 (Table 4.16). -/
def regOp (f : Nat → Nat → Nat → Nat) (cost : Nat × Nat) (t b a d : Nat) : Local := fun c _ =>
  match typeCheck t [b, a, d] with
  | some x => .error x
  | none =>
    eff (wrR c t d (f (width t) (rdR c t a) (rdR c t b))) [rowR c t a, rowR c t b] (rowsR c t d) (if t = 0 then cost.1 else cost.2)

/-- d ← func a, with field b reserved (R91). -/
def regOp1 (f : Nat → Nat → Nat) (t a d : Nat) : Local := fun c _ =>
  match typeCheck t [a, d] with
  | some x => .error x
  | none => eff (wrR c t d (f (width t) (rdR c t a))) [rowR c t a] (rowsR c t d) 1

/-- d ← a func k[k8], major 0x04 (R97). -/
def conOp (f : Nat → Nat → Nat → Nat) (cost : Nat × Nat) (t k a d : Nat) : Local := fun c _ =>
  match typeCheck t [a, d] with
  | some x => .error x
  | none =>
    if t = 1 ∧ k % 2 = 1 then .error (illeg 4)
    else eff (wrR c t d (f (width t) (rdR c t a) (rdK c t k))) [rowR c t a, rowK k] (rowsR c t d) (if t = 0 then cost.1 else cost.2)

/-- sel: d ← a if W(c) is not zero, else b; the condition is a w register in both types (R92). -/
def selOp (m t b a d : Nat) : Local := fun c _ =>
  match typeCheck t [b, a, d] with
  | some x => .error x
  | none =>
    eff (wrR c t d (if rdW c m ≠ 0 then rdR c t a else rdR c t b)) [rowR c t a, rowR c t b, rowW c m] (rowsR c t d) 1

/-- ldk: d ← k[k8] (R97). -/
def ldkOp (t k d : Nat) : Local := fun c _ =>
  match typeCheck t [d] with
  | some x => .error x
  | none =>
    if t = 1 ∧ k % 2 = 1 then .error (illeg 4) else eff (wrR c t d (rdK c t k)) [rowK k] (rowsR c t d) 1

/-- wd ← wa (16-bit func4 8, R94). -/
def movOp (a d : Nat) : Local := fun c _ => eff (wrW c d (rdW c a)) [rowW c a] (rowsW c d) 1

/-- add immediate: wd ← wa + imm, the immediate of n bits signed (R95). -/
def addImmOp (n ix a d : Nat) : Local := fun c _ =>
  eff (wrW c d ((rdW c a + sext n 32 ix) % 2 ^ 32)) [rowW c a] (rowsW c d) 1

/-- lih: wd ← imm17 at bits [31:15] (R96). -/
def lihOp (ix d : Nat) : Local := fun c _ => eff (wrW c d (ix * 2 ^ 15 % 2 ^ 32)) [] (rowsW c d) 1

/-- bext and bins: the width field holds w - 1 (R98). -/
def bextOp (w p a d : Nat) : Local := fun c _ =>
  if 32 < p + (w + 1) then .error (illeg 4)
  else eff (wrW c d (fld (rdW c a) p (w + 1))) [rowW c a] (rowsW c d) 1

def binsOp (w p a d : Nat) : Local := fun c _ =>
  if 32 < p + (w + 1) then .error (illeg 4)
  else eff (wrW c d (setFld (rdW c d) p (w + 1) (rdW c a))) [rowW c a, rowW c d] (rowsW c d) 1

/-- ADD (R91). -/
def execAdd (t b a d : Nat) (s : State) : Out :=
  runLocal .members 4 (regOp aluAdd (1, 1) t b a d) s

/-- SUB (R91). -/
def execSub (t b a d : Nat) (s : State) : Out :=
  runLocal .members 4 (regOp aluSub (1, 1) t b a d) s

/-- MUL (R91). -/
def execMul (t b a d : Nat) (s : State) : Out :=
  runLocal .members 4 (regOp aluMul (2, 4) t b a d) s

/-- MULH (R91). -/
def execMulh (t b a d : Nat) (s : State) : Out :=
  runLocal .members 4 (regOp aluMulh (2, 6) t b a d) s

/-- MULHN (R91). -/
def execMulhn (t b a d : Nat) (s : State) : Out :=
  runLocal .members 4 (regOp aluMulhn (2, 6) t b a d) s

/-- DIV (R91). -/
def execDiv (t b a d : Nat) (s : State) : Out :=
  runLocal .members 4 (regOp aluDiv (18, 34) t b a d) s

/-- DIVN (R91). -/
def execDivn (t b a d : Nat) (s : State) : Out :=
  runLocal .members 4 (regOp aluDivn (18, 34) t b a d) s

/-- REM (R91). -/
def execRem (t b a d : Nat) (s : State) : Out :=
  runLocal .members 4 (regOp aluRem (18, 34) t b a d) s

/-- REMN (R91). -/
def execRemn (t b a d : Nat) (s : State) : Out :=
  runLocal .members 4 (regOp aluRemn (18, 34) t b a d) s

/-- AND (R91). -/
def execAnd (t b a d : Nat) (s : State) : Out :=
  runLocal .members 4 (regOp aluAnd (1, 1) t b a d) s

/-- OR (R91). -/
def execOr (t b a d : Nat) (s : State) : Out :=
  runLocal .members 4 (regOp aluOr (1, 1) t b a d) s

/-- XOR (R91). -/
def execXor (t b a d : Nat) (s : State) : Out :=
  runLocal .members 4 (regOp aluXor (1, 1) t b a d) s

/-- ANDN (R91). -/
def execAndn (t b a d : Nat) (s : State) : Out :=
  runLocal .members 4 (regOp aluAndn (1, 1) t b a d) s

/-- ORN (R91). -/
def execOrn (t b a d : Nat) (s : State) : Out :=
  runLocal .members 4 (regOp aluOrn (1, 1) t b a d) s

/-- SHL (R91). -/
def execShl (t b a d : Nat) (s : State) : Out :=
  runLocal .members 4 (regOp aluShl (1, 1) t b a d) s

/-- SHR (R91). -/
def execShr (t b a d : Nat) (s : State) : Out :=
  runLocal .members 4 (regOp aluShr (1, 1) t b a d) s

/-- SRA (R91). -/
def execSra (t b a d : Nat) (s : State) : Out :=
  runLocal .members 4 (regOp aluSra (1, 1) t b a d) s

/-- ROTL (R91). -/
def execRotl (t b a d : Nat) (s : State) : Out :=
  runLocal .members 4 (regOp aluRotl (1, 1) t b a d) s

/-- MIN (R91). -/
def execMin (t b a d : Nat) (s : State) : Out :=
  runLocal .members 4 (regOp aluMin (1, 1) t b a d) s

/-- MAX (R91). -/
def execMax (t b a d : Nat) (s : State) : Out :=
  runLocal .members 4 (regOp aluMax (1, 1) t b a d) s

/-- MINN (R91). -/
def execMinn (t b a d : Nat) (s : State) : Out :=
  runLocal .members 4 (regOp aluMinn (1, 1) t b a d) s

/-- MAXN (R91). -/
def execMaxn (t b a d : Nat) (s : State) : Out :=
  runLocal .members 4 (regOp aluMaxn (1, 1) t b a d) s

/-- SLT (R91). -/
def execSlt (t b a d : Nat) (s : State) : Out :=
  runLocal .members 4 (regOp aluSlt (1, 1) t b a d) s

/-- SLTN (R91). -/
def execSltn (t b a d : Nat) (s : State) : Out :=
  runLocal .members 4 (regOp aluSltn (1, 1) t b a d) s

/-- SEL (R92). -/
def execSel (c t b a d : Nat) (s : State) : Out :=
  runLocal .members 4 (selOp c t b a d) s

/-- CLZ (R91). -/
def execClz (t a d : Nat) (s : State) : Out :=
  runLocal .members 4 (regOp1 aluClz t a d) s

/-- CTZ (R91). -/
def execCtz (t a d : Nat) (s : State) : Out :=
  runLocal .members 4 (regOp1 aluCtz t a d) s

/-- POPC (R91). -/
def execPopc (t a d : Nat) (s : State) : Out :=
  runLocal .members 4 (regOp1 aluPopc t a d) s

/-- BSWAP (R91). -/
def execBswap (t a d : Nat) (s : State) : Out :=
  runLocal .members 4 (regOp1 aluBswap t a d) s

/-- ADD_16 (R94). -/
def execAdd16 (a d : Nat) (s : State) : Out :=
  runLocal .members 2 (regOp aluAdd (1, 1) 0 a d d) s

/-- SUB_16 (R94). -/
def execSub16 (a d : Nat) (s : State) : Out :=
  runLocal .members 2 (regOp aluSub (1, 1) 0 a d d) s

/-- AND_16 (R94). -/
def execAnd16 (a d : Nat) (s : State) : Out :=
  runLocal .members 2 (regOp aluAnd (1, 1) 0 a d d) s

/-- OR_16 (R94). -/
def execOr16 (a d : Nat) (s : State) : Out :=
  runLocal .members 2 (regOp aluOr (1, 1) 0 a d d) s

/-- XOR_16 (R94). -/
def execXor16 (a d : Nat) (s : State) : Out :=
  runLocal .members 2 (regOp aluXor (1, 1) 0 a d d) s

/-- SHL_16 (R94). -/
def execShl16 (a d : Nat) (s : State) : Out :=
  runLocal .members 2 (regOp aluShl (1, 1) 0 a d d) s

/-- SHR_16 (R94). -/
def execShr16 (a d : Nat) (s : State) : Out :=
  runLocal .members 2 (regOp aluShr (1, 1) 0 a d d) s

/-- SRA_16 (R94). -/
def execSra16 (a d : Nat) (s : State) : Out :=
  runLocal .members 2 (regOp aluSra (1, 1) 0 a d d) s

/-- MOV_16 (R94). -/
def execMov16 (a d : Nat) (s : State) : Out :=
  runLocal .members 2 (movOp a d) s

/-- MIN_16 (R94). -/
def execMin16 (a d : Nat) (s : State) : Out :=
  runLocal .members 2 (regOp aluMin (1, 1) 0 a d d) s

/-- MAX_16 (R94). -/
def execMax16 (a d : Nat) (s : State) : Out :=
  runLocal .members 2 (regOp aluMax (1, 1) 0 a d d) s

/-- MINN_16 (R94). -/
def execMinn16 (a d : Nat) (s : State) : Out :=
  runLocal .members 2 (regOp aluMinn (1, 1) 0 a d d) s

/-- MAXN_16 (R94). -/
def execMaxn16 (a d : Nat) (s : State) : Out :=
  runLocal .members 2 (regOp aluMaxn (1, 1) 0 a d d) s

/-- MUL_16 (R94). -/
def execMul16 (a d : Nat) (s : State) : Out :=
  runLocal .members 2 (regOp aluMul (2, 4) 0 a d d) s

/-- SLT_16 (R94). -/
def execSlt16 (a d : Nat) (s : State) : Out :=
  runLocal .members 2 (regOp aluSlt (1, 1) 0 a d d) s

/-- SLTN_16 (R94). -/
def execSltn16 (a d : Nat) (s : State) : Out :=
  runLocal .members 2 (regOp aluSltn (1, 1) 0 a d d) s

/-- ADD_IMMEDIATE (R95). -/
def execAddImmediate (ix a d : Nat) (s : State) : Out :=
  runLocal .members 4 (addImmOp 17 ix a d) s

/-- ADD_IMMEDIATE_16 (R95). -/
def execAddImmediate16 (ix d : Nat) (s : State) : Out :=
  runLocal .members 2 (addImmOp 8 ix d d) s

/-- LIH (R96). -/
def execLih (ix d : Nat) (s : State) : Out :=
  runLocal .members 4 (lihOp ix d) s

/-- ADD_K (R97). -/
def execAddK (t k a d : Nat) (s : State) : Out :=
  runLocal .members 4 (conOp aluAdd (1, 1) t k a d) s

/-- SUB_K (R97). -/
def execSubK (t k a d : Nat) (s : State) : Out :=
  runLocal .members 4 (conOp aluSub (1, 1) t k a d) s

/-- MUL_K (R97). -/
def execMulK (t k a d : Nat) (s : State) : Out :=
  runLocal .members 4 (conOp aluMul (2, 4) t k a d) s

/-- MULH_K (R97). -/
def execMulhK (t k a d : Nat) (s : State) : Out :=
  runLocal .members 4 (conOp aluMulh (2, 6) t k a d) s

/-- MULHN_K (R97). -/
def execMulhnK (t k a d : Nat) (s : State) : Out :=
  runLocal .members 4 (conOp aluMulhn (2, 6) t k a d) s

/-- DIV_K (R97). -/
def execDivK (t k a d : Nat) (s : State) : Out :=
  runLocal .members 4 (conOp aluDiv (18, 34) t k a d) s

/-- DIVN_K (R97). -/
def execDivnK (t k a d : Nat) (s : State) : Out :=
  runLocal .members 4 (conOp aluDivn (18, 34) t k a d) s

/-- REM_K (R97). -/
def execRemK (t k a d : Nat) (s : State) : Out :=
  runLocal .members 4 (conOp aluRem (18, 34) t k a d) s

/-- REMN_K (R97). -/
def execRemnK (t k a d : Nat) (s : State) : Out :=
  runLocal .members 4 (conOp aluRemn (18, 34) t k a d) s

/-- AND_K (R97). -/
def execAndK (t k a d : Nat) (s : State) : Out :=
  runLocal .members 4 (conOp aluAnd (1, 1) t k a d) s

/-- OR_K (R97). -/
def execOrK (t k a d : Nat) (s : State) : Out :=
  runLocal .members 4 (conOp aluOr (1, 1) t k a d) s

/-- XOR_K (R97). -/
def execXorK (t k a d : Nat) (s : State) : Out :=
  runLocal .members 4 (conOp aluXor (1, 1) t k a d) s

/-- ANDN_K (R97). -/
def execAndnK (t k a d : Nat) (s : State) : Out :=
  runLocal .members 4 (conOp aluAndn (1, 1) t k a d) s

/-- ORN_K (R97). -/
def execOrnK (t k a d : Nat) (s : State) : Out :=
  runLocal .members 4 (conOp aluOrn (1, 1) t k a d) s

/-- SHL_K (R97). -/
def execShlK (t k a d : Nat) (s : State) : Out :=
  runLocal .members 4 (conOp aluShl (1, 1) t k a d) s

/-- SHR_K (R97). -/
def execShrK (t k a d : Nat) (s : State) : Out :=
  runLocal .members 4 (conOp aluShr (1, 1) t k a d) s

/-- SRA_K (R97). -/
def execSraK (t k a d : Nat) (s : State) : Out :=
  runLocal .members 4 (conOp aluSra (1, 1) t k a d) s

/-- ROTL_K (R97). -/
def execRotlK (t k a d : Nat) (s : State) : Out :=
  runLocal .members 4 (conOp aluRotl (1, 1) t k a d) s

/-- MIN_K (R97). -/
def execMinK (t k a d : Nat) (s : State) : Out :=
  runLocal .members 4 (conOp aluMin (1, 1) t k a d) s

/-- MAX_K (R97). -/
def execMaxK (t k a d : Nat) (s : State) : Out :=
  runLocal .members 4 (conOp aluMax (1, 1) t k a d) s

/-- MINN_K (R97). -/
def execMinnK (t k a d : Nat) (s : State) : Out :=
  runLocal .members 4 (conOp aluMinn (1, 1) t k a d) s

/-- MAXN_K (R97). -/
def execMaxnK (t k a d : Nat) (s : State) : Out :=
  runLocal .members 4 (conOp aluMaxn (1, 1) t k a d) s

/-- SLT_K (R97). -/
def execSltK (t k a d : Nat) (s : State) : Out :=
  runLocal .members 4 (conOp aluSlt (1, 1) t k a d) s

/-- SLTN_K (R97). -/
def execSltnK (t k a d : Nat) (s : State) : Out :=
  runLocal .members 4 (conOp aluSltn (1, 1) t k a d) s

/-- LDK (R97). -/
def execLdk (t k d : Nat) (s : State) : Out :=
  runLocal .members 4 (ldkOp t k d) s

/-- LDK_16 (R97). -/
def execLdk16 (k d : Nat) (s : State) : Out :=
  runLocal .members 2 (ldkOp 0 k d) s

/-- BEXT (R98). -/
def execBext (w p a d : Nat) (s : State) : Out :=
  runLocal .members 4 (bextOp w p a d) s

/-- BINS (R98). -/
def execBins (w p a d : Nat) (s : State) : Out :=
  runLocal .members 4 (binsOp w p a d) s

end Sys2Proof.Machine
end

