-- ==== Sys2Proof/Machine/Fp.lean ====
section
/-!
DEFINITION. Fp: the number formats (02 R42 to R45, R56), rounding (R43, R47, R50), arithmetic, conversions (R52 to R55), the dot
product (R60 to R64). A finite value is held exactly, as a sign, a natural number and a power of two.
-/

namespace Sys2Proof.Machine

/-- The value of a floating-point pattern; zero is a finite value with m = 0. -/
inductive Num where
  /-- A NaN, signalling or quiet (R45). -/
  | nan (sig : Bool)
  | inf (neg : Bool)
  /-- (-1)^neg × m × 2^e. -/
  | fin (neg : Bool) (m : Nat) (e : Int)
deriving DecidableEq, Repr

/-- A floating-point format (Table 2.1, Table 2.2). -/
structure Fmt where
  width : Nat
  frac : Nat
  bias : Nat
  /-- Largest finite pattern, infinity (none for E4M3), canonical NaN. -/
  top : Nat
  inf : Option Nat
  nan : Nat
deriving DecidableEq, Repr

def fmtF32 : Fmt := ⟨32, 23, 127, 0x7F7FFFFF, some 0x7F800000, 0x7FC00000⟩
def fmtBf16 : Fmt := ⟨16, 7, 127, 0x7F7F, some 0x7F80, 0x7FC0⟩
def fmtF16 : Fmt := ⟨16, 10, 15, 0x7BFF, some 0x7C00, 0x7E00⟩
def fmtE4M3 : Fmt := ⟨8, 3, 7, 0x7E, none, 0x7F⟩
def fmtE5M2 : Fmt := ⟨8, 2, 15, 0x7B, some 0x7C, 0x7E⟩

/-- The format of a type code 0 to 4 (Table 2.1). -/
def fmtOf : Nat → Fmt
  | 0 => fmtF32
  | 1 => fmtBf16
  | 2 => fmtF16
  | 3 => fmtE4M3
  | _ => fmtE5M2

/-- Type classes (R117). -/
def isF (t : Nat) : Bool := decide (t ≤ 2)
def isQ (t : Nat) : Bool := t == 3 || t == 4
def isI (t : Nat) : Bool := decide (5 ≤ t) && decide (t ≤ 7)
def isN (t : Nat) : Bool := decide (8 ≤ t) && decide (t ≤ 10)
def isIN (t : Nat) : Bool := isI t || isN t
def isB (t : Nat) : Bool := t == 11

/-- Element width of a type code (Table 2.1). -/
def typeWidth : Nat → Nat
  | 0 => 32
  | 5 => 32
  | 8 => 32
  | 1 => 16
  | 2 => 16
  | 6 => 16
  | 9 => 16
  | _ => 8

/-- Elements of a row (R116). -/
def lanesOf (t : Nat) : Nat := 256 / typeWidth t

/-- Power of two of the last place of a subnormal. -/
def Fmt.qmin (f : Fmt) : Int := 1 - (f.bias : Int) - f.frac

/-- The value of a pattern (R42 to R45). -/
def unpack (f : Fmt) (v : Nat) : Num :=
  let mag := v % 2 ^ (f.width - 1)
  let neg := bit v (f.width - 1)
  if mag ≤ f.top then
    let e := mag / 2 ^ f.frac
    let m := mag % 2 ^ f.frac
    if e = 0 then .fin neg m f.qmin else .fin neg (m + 2 ^ f.frac) (f.qmin + (e - 1))
  else if some mag = f.inf then .inf neg
  else .nan (f.inf.isSome && !bit mag (f.frac - 1))

/-- Sign bit of a format. -/
def Fmt.sign (f : Fmt) (neg : Bool) : Nat := if neg then 2 ^ (f.width - 1) else 0

/-- Whether magnitude k + rem / 2^sh rounds up (R47). -/
def roundsUp (mode : RMode) (neg : Bool) (k rem sh : Nat) : Bool :=
  match mode with
  | .rne => decide (2 ^ sh < 2 * rem) || (decide (2 * rem = 2 ^ sh) && k % 2 == 1)
  | .rtz => false
  | .rdn => neg && rem != 0
  | .rup => !neg && rem != 0
  | .rna => decide (2 ^ sh ≤ 2 * rem)

/-- m × 2^e at the quantum 2^q: the rounded count of quanta, and whether it is inexact. -/
def quantize (mode : RMode) (neg : Bool) (m : Nat) (e q : Int) : Nat × Bool :=
  if q ≤ e then (m * 2 ^ (e - q).toNat, false)
  else
    let sh := (q - e).toNat
    let k := m / 2 ^ sh
    let rem := m % 2 ^ sh
    (if roundsUp mode neg k rem sh then k + 1 else k, rem != 0)

/-- A rounded value: the magnitude as a pattern, which may lie beyond the format's largest; inexact; tiny after rounding with
unbounded exponent (R50). -/
structure Rounded where
  mag : Nat
  inexact : Bool
  tiny : Bool

/-- Round a finite nonzero magnitude to the precision of a format (R43, R50, R53). -/
def roundMag (f : Fmt) (mode : RMode) (neg : Bool) (m : Nat) (e : Int) : Rounded :=
  let x := e + bitLen m - 1
  let q := max (x - f.frac) f.qmin
  let k := quantize mode neg m e q
  let u := quantize mode neg m e (x - f.frac)
  let tiny := decide ((bitLen u.1 : Int) - 1 + (x - f.frac) < f.qmin + f.frac)
  ⟨(q - f.qmin).toNat * 2 ^ f.frac + k.1, k.2, tiny && m != 0⟩

/-- Flags of a rounded value that does not overflow (R50). -/
def roundFlags (r : Rounded) : Nat := if r.inexact then flagNX + (if r.tiny then flagUF else 0) else 0

/-- Result of an overflow in a mode (R52). -/
def overflowPat (f : Fmt) (mode : RMode) (neg : Bool) : Nat :=
  let big := f.inf.getD f.top
  f.sign neg + (match mode with
    | .rne => big
    | .rna => big
    | .rtz => f.top
    | .rdn => if neg then big else f.top
    | .rup => if neg then f.top else big)

/-- Round(type, value, mode): pattern and flags of a value in F (R43, R45, R50, R52). Producing a NaN gives the canonical NaN. -/
def packF (f : Fmt) (mode : RMode) : Num → Nat × Nat
  | .nan sig => (f.nan, if sig then flagNV else 0)
  | .inf neg => (f.sign neg + f.inf.getD f.nan, 0)
  | .fin neg m e =>
    if m = 0 then (f.sign neg, 0)
    else
      let r := roundMag f mode neg m e
      if f.top < r.mag then (overflowPat f mode neg, flagOF + flagNX) else (f.sign neg + r.mag, roundFlags r)

/-- Conversion to FP8, E4M3 or E5M2 (R53, Table 2.7). -/
def packQ (f : Fmt) (mode : RMode) (sat : Bool) : Num → Nat × Nat
  | .nan sig => (f.nan, if sig then flagNV else 0)
  | .inf neg =>
    match f.inf with
    | none => (if sat then f.sign neg + f.top else f.nan, flagNV)
    | some i => (f.sign neg + (if sat then f.top else i), 0)
  | .fin neg m e =>
    if m = 0 then (f.sign neg, 0)
    else
      let r := roundMag f mode neg m e
      if f.top < r.mag then
        (if sat then f.sign neg + f.top else match f.inf with | none => f.nan | some i => f.sign neg + i, flagOF + flagNX)
      else (f.sign neg + r.mag, roundFlags r)

/-- The signed multiple of 2^e a finite value is, for an e no greater than its own. -/
def atExp (neg : Bool) (m : Nat) (e q : Int) : Int :=
  let v : Int := (m : Int) * (2 : Int) ^ (e - q).toNat
  if neg then -v else v

/-- Sign bit of a value. -/
def Num.neg : Num → Bool
  | .nan _ => false
  | .inf s => s
  | .fin s _ _ => s

def Num.isNan : Num → Bool
  | .nan _ => true
  | _ => false

def Num.isSig : Num → Bool
  | .nan s => s
  | _ => false

/-- The value with the other sign. -/
def Num.negate : Num → Num
  | .nan s => .nan s
  | .inf s => .inf !s
  | .fin s m e => .fin (!s) m e

/-- An exact value with a sign of zero, and the flags of the operation itself. -/
abbrev Exact := Num × Nat

/-- x × y (IEEE 754-2019; R45). -/
def mulNum (x y : Num) : Exact :=
  match x, y with
  | .nan a, .nan b => (.nan false, if a || b then flagNV else 0)
  | .nan a, _ => (.nan false, if a then flagNV else 0)
  | _, .nan b => (.nan false, if b then flagNV else 0)
  | .inf s, .inf t => (.inf (s != t), 0)
  | .inf s, .fin t m _ => if m = 0 then (.nan false, flagNV) else (.inf (s != t), 0)
  | .fin s m _, .inf t => if m = 0 then (.nan false, flagNV) else (.inf (s != t), 0)
  | .fin s m e, .fin t n g => (.fin (s != t) (m * n) (e + g), 0)

/-- x + y of values that are not NaN; the sign of an exact zero sum follows the mode (IEEE 754-2019). -/
def addFin (mode : RMode) (s : Bool) (m : Nat) (e : Int) (t : Bool) (n : Nat) (g : Int) : Num :=
  if m = 0 ∧ n = 0 then .fin (if s = t then s else decide (mode = .rdn)) 0 0
  else
    let q := min e g
    let v := atExp s m e q + atExp t n g q
    if v = 0 then .fin (decide (mode = .rdn)) 0 0 else .fin (decide (v < 0)) v.natAbs q

/-- x + y (IEEE 754-2019; R45). -/
def addNum (mode : RMode) (x y : Num) : Exact :=
  match x, y with
  | .nan a, .nan b => (.nan false, if a || b then flagNV else 0)
  | .nan a, _ => (.nan false, if a then flagNV else 0)
  | _, .nan b => (.nan false, if b then flagNV else 0)
  | .inf s, .inf t => if s = t then (.inf s, 0) else (.nan false, flagNV)
  | .inf s, .fin _ _ _ => (.inf s, 0)
  | .fin _ _ _, .inf t => (.inf t, 0)
  | .fin s m e, .fin t n g => (addFin mode s m e t n g, 0)

/-- x × y + z, fused: one invalid case for a zero times an infinity whatever the addend (R45, R120). -/
def fmaNum (mode : RMode) (x y z : Num) : Exact :=
  let p := mulNum x y
  let q := addNum mode p.1 z
  (q.1, Nat.lor p.2 (Nat.lor q.2 (if z.isSig then flagNV else 0)))

/-- Round an exact result of an operation in F. -/
def roundF (f : Fmt) (mode : RMode) (x : Exact) : Nat × Nat :=
  let r := packF f mode x.1
  (r.1, Nat.lor x.2 r.2)

/-- x < y of values that are not NaN; -0 equals +0 here. -/
def ltNum (x y : Num) : Bool :=
  match x, y with
  | .inf s, .inf t => s && !t
  | .inf s, _ => s
  | _, .inf t => !t
  | .fin s m e, .fin t n g => let q := min e g; decide (atExp s m e q < atExp t n g q)
  | _, _ => false

def eqNum (x y : Num) : Bool :=
  match x, y with
  | .inf s, .inf t => s == t
  | .fin s m e, .fin t n g => let q := min e g; decide (atExp s m e q = atExp t n g q)
  | _, _ => false

/-- minimum and maximum of IEEE 754-2019, on patterns: -0 lies below +0 (R120). -/
def minF (f : Fmt) (a b : Nat) : Nat × Nat :=
  let x := unpack f a
  let y := unpack f b
  if x.isNan || y.isNan then (f.nan, if x.isSig || y.isSig then flagNV else 0)
  else if ltNum x y then (a, 0) else if ltNum y x then (b, 0) else (if x.neg then a else b, 0)

def maxF (f : Fmt) (a b : Nat) : Nat × Nat :=
  let x := unpack f a
  let y := unpack f b
  if x.isNan || y.isNan then (f.nan, if x.isSig || y.isSig then flagNV else 0)
  else if ltNum x y then (b, 0) else if ltNum y x then (a, 0) else (if x.neg then b else a, 0)

/-- The range of an integer type (Table 2.1). -/
def intMin (t : Nat) : Int := if isI t then -((2 : Int) ^ (typeWidth t - 1)) else 0
def intMax (t : Nat) : Int := if isI t then (2 : Int) ^ (typeWidth t - 1) - 1 else (2 : Int) ^ typeWidth t - 1

/-- The integer a pattern of an integer type stands for. -/
def intVal (t v : Nat) : Int := if isI t then sgn (typeWidth t) v else (v : Int)

/-- Sat(type, value) (Table 0.7). -/
def satInt (t : Nat) (i : Int) : Nat := pat (typeWidth t) (max (intMin t) (min (intMax t) i))

/-- An integer as an exact value. -/
def intNum (i : Int) : Num := .fin (decide (i < 0)) i.natAbs 0

/-- Floating point to integer (R54). -/
def toInt (t : Nat) (mode : RMode) (sat : Bool) (x : Num) : Nat × Nat :=
  let indef := 2 ^ (typeWidth t - 1)
  match x with
  | .nan _ => (if sat then 0 else indef, flagNV)
  | .inf s => (if sat then satInt t (if s then intMin t else intMax t) else indef, flagNV)
  | .fin s m e =>
    let k := quantize mode s m e 0
    let v : Int := if s then -(k.1 : Int) else k.1
    if intMin t ≤ v ∧ v ≤ intMax t then (pat (typeWidth t) v, if k.2 then flagNX else 0)
    else (if sat then satInt t v else indef, flagNV)

/-- BEAD8: units of 2^-6 of a weight byte (R56). -/
def beadUnits (v : Nat) : Int :=
  let one (s k : Nat) : Int := if k = 7 then 0 else if s = 1 then -((2 : Int) ^ (6 - k)) else (2 : Int) ^ (6 - k)
  one (fld v 7 1) (fld v 4 3) + one (fld v 3 1) (fld v 0 3)

/-- A weight as an exact value; every zero is +0 (R56, R125). -/
def beadNum (v : Nat) : Num := let u := beadUnits v; .fin (decide (u < 0)) u.natAbs (-6)

/-- One element of a conversion from type sx to type t (R52 to R55, R125). -/
def convert (sx t : Nat) (mode : RMode) (sat : Bool) (v : Nat) : Nat × Nat :=
  let to_ (x : Num) : Nat × Nat :=
    if isF t then packF (fmtOf t) mode x else if isQ t then packQ (fmtOf t) mode sat x else toInt t mode sat x
  if isB sx then
    if isIN t then (pat (typeWidth t) (beadUnits v), 0) else to_ (beadNum v)
  else if isIN sx then
    if isIN t then (if sat then satInt t (intVal sx v) else pat (typeWidth t) (intVal sx v), 0) else to_ (intNum (intVal sx v))
  else to_ (unpack (fmtOf sx) v)

/-! Dot products (R60 to R64). -/

/-- floor(log2 |t|) of a nonzero finite term. -/
def topExp (m : Nat) (e : Int) : Int := e + bitLen m - 1

/-- The result of a group and its flags: the value as an FP32 pattern (R61, R62). nanOp: some operand of the group is a NaN. -/
def groupStep (nanOp : Bool) (ts : List Num) : Nat × Nat :=
  let f := fmtF32
  let posInf := ts.any fun t => t == .inf false
  let negInf := ts.any fun t => t == .inf true
  if ts.any Num.isNan || (posInf && negInf) then (f.nan, if nanOp then 0 else flagNV)
  else if posInf then (f.inf.getD 0, 0)
  else if negInf then (f.sign true + f.inf.getD 0, 0)
  else
    let fins := ts.filterMap fun t => match t with | .fin s m e => if m = 0 then none else some (s, m, e) | _ => none
    match fins with
    | [] => (if ts.all Num.neg then f.sign true else 0, 0)
    | h :: _ =>
      let emax := fins.foldl (fun x t => max x (topExp t.2.1 t.2.2)) (topExp h.2.1 h.2.2)
      let q := emax - 31
      let trunc (t : Bool × Nat × Int) : Nat × Bool := quantize .rtz t.1 t.2.1 t.2.2 q
      let sum : Int := fins.foldl (fun x t => x + (if t.1 then -((trunc t).1 : Int) else (trunc t).1)) 0
      let cut := fins.any fun t => (trunc t).2
      if sum = 0 then (0, if cut then flagNX else 0)
      else
        let r := roundMag f .rne (decide (sum < 0)) sum.natAbs q
        if f.top < r.mag then (overflowPat f .rne (decide (sum < 0)), flagOF + flagNX)
        else (f.sign (decide (sum < 0)) + r.mag,
              if r.inexact || cut then flagNX + (if r.tiny then flagUF else 0) else 0)

/-- The groups of g terms of a list (R60); fuel bounds the count. -/
def groupsOf {α : Type} (g : Nat) : Nat → List α → List (List α)
  | 0, _ => []
  | _ + 1, [] => []
  | n + 1, l => l.take g :: groupsOf g n (l.drop g)

/-- DotFP(C, A, B, K, G) (R61): C as an FP32 pattern, the operand pairs as values, and the flags of R62. -/
def dotFP (c : Nat) (g : Nat) (pairs : List (Num × Num)) : Nat × Nat :=
  let sig := (unpack fmtF32 c).isSig || pairs.any fun p => p.1.isSig || p.2.isSig
  (groupsOf g pairs.length pairs).foldl (fun (acc : Nat × Nat) grp =>
    let run := unpack fmtF32 acc.1
    let nanOp := run.isNan || grp.any fun p => p.1.isNan || p.2.isNan
    let r := groupStep nanOp (run :: grp.map fun p => (mulNum p.1 p.2).1)
    (r.1, Nat.lor acc.2 r.2)) (c, if sig then flagNV else 0)

end Sys2Proof.Machine
end

