-- ==== Sys2Proof/Machine/Func.lean ====
section
/-!
DEFINITION. Func: the function unit (02 R59, Table 2.10). The exact value of a function is enclosed by integer arithmetic with 800
fraction bits. A BF16 or FP16 result is that value correctly rounded with RNE. An FP32 result is one of its two neighbours: the
neighbour is a free value of Config, fixed for each function and argument (log 4).
-/

namespace Sys2Proof.Machine

/-- Fraction bits of the fixed-point numbers used here. -/
def fxBits : Nat := 800
def fxOne : Int := (2 : Int) ^ fxBits

/-- Product of fixed-point numbers. -/
def fxMul (a b : Int) : Int := a * b / fxOne

/-- k = n, n - 1, ..., 1. -/
def downFrom (n : Nat) : List Nat := (upTo n).reverse.map (· + 1)

/-- e^r for |r| at most 1, by the series of 200 terms. -/
def fxExp (r : Int) : Int := (downFrom 200).foldl (fun (acc : Int) (k : Nat) => fxOne + fxMul r acc / k) fxOne

/-- atanh y for |y| at most 1/3. -/
def fxAtanh (y : Int) : Int :=
  let y2 := fxMul y y
  fxMul y ((upTo 260).reverse.foldl (fun (acc : Int) (k : Nat) => fxOne / (2 * k + 1) + fxMul y2 acc) 0)

/-- atan of 1/n. -/
def fxAtanInv (n : Int) : Int :=
  let y := fxOne / n
  let y2 := fxOne / (n * n)
  fxMul y ((upTo 260).reverse.foldl (fun (acc : Int) (k : Nat) => fxOne / (2 * k + 1) - fxMul y2 acc) 0)

def fxLn2 : Int := 2 * fxAtanh (fxOne / 3)
def fxPi : Int := 16 * fxAtanInv 5 - 4 * fxAtanInv 239

/-- sin r and cos r for |r| at most 1. -/
def fxSin (r : Int) : Int :=
  let r2 := fxMul r r
  fxMul r ((downFrom 100).foldl (fun (acc : Int) (k : Nat) => fxOne - fxMul r2 acc / ((2 * k) * (2 * k + 1))) fxOne)
def fxCos (r : Int) : Int :=
  let r2 := fxMul r r
  (downFrom 100).foldl (fun (acc : Int) (k : Nat) => fxOne - fxMul r2 acc / ((2 * k - 1) * (2 * k))) fxOne

/-- A dyadic number as a fixed-point number. -/
def toFx (neg : Bool) (m : Nat) (e : Int) : Int :=
  let p := e + fxBits
  let v : Int := if 0 ≤ p then (m : Int) * (2 : Int) ^ p.toNat else (m : Int) / (2 : Int) ^ (-p).toNat
  if neg then -v else v

/-- A value that is not a dyadic number, enclosed: it lies strictly between m × 2^e and (m + 1) × 2^e in magnitude, which is all that
rounding needs; held as the midpoint. -/
def between2 (neg : Bool) (m : Nat) (e : Int) : Num := .fin neg (2 * m + 1) (e - 1)

/-- The same from a fixed-point number, scaled by 2^k. -/
def ofFx (v : Int) (k : Int) : Num := between2 (decide (v < 0)) v.natAbs (k - fxBits)

/-- e^x as a mantissa and a power of two, for a fixed-point x of magnitude at most 2^12. -/
def fxExpPair (x : Int) : Int × Int :=
  let k := x / fxLn2
  (fxExp (x - k * fxLn2), k)

/-- Just below 1. -/
def belowOne (neg : Bool) : Num := between2 neg (2 ^ fxBits - 1) (-(fxBits : Int))

/-- Far above every format's range, and far below it. -/
def huge : Num := between2 false 1 2000
def minute : Num := between2 false 1 (-9000)

/-- |x| is at least n. -/
def atLeastN (m : Nat) (e : Int) (n : Nat) : Bool := decide (n * 2 ^ (-(min e 0)).toNat ≤ m * 2 ^ (max e 0).toNat)

/-- e^x and 2^x of a nonzero x; 2^x of an integer is exact. -/
def fnExp (neg : Bool) (m : Nat) (e : Int) : Num :=
  if atLeastN m e 1000 then (if neg then minute else huge)
  else let p := fxExpPair (toFx neg m e); ofFx p.1 p.2

def fnExp2 (neg : Bool) (m : Nat) (e : Int) : Num :=
  if atLeastN m e 1000 then (if neg then minute else huge)
  else
    let x := toFx neg m e
    let k := x / fxOne
    let f := x - k * fxOne
    if f = 0 then .fin false 1 k else ofFx (fxExp (fxMul f fxLn2)) k

/-- ln of m × 2^e as a fixed-point number, and whether m is a power of two. -/
def fxLog (m : Nat) (e : Int) : Int × Int × Bool :=
  let k := e + bitLen m - 1
  let y : Int := (m : Int) * (2 : Int) ^ fxBits / (2 : Int) ^ (bitLen m - 1)
  (2 * fxAtanh ((y - fxOne) * fxOne / (y + fxOne)), k, decide (m = 2 ^ (bitLen m - 1)))

def fnLog (m : Nat) (e : Int) : Num :=
  let l := fxLog m e
  ofFx (l.1 + l.2.1 * fxLn2) 0

def fnLog2 (m : Nat) (e : Int) : Num :=
  let l := fxLog m e
  if l.2.2 then intNum l.2.1 else ofFx (l.1 * fxOne / fxLn2 + l.2.1 * fxOne) 0

/-- 1 / (m × 2^e), exact for a power of two. -/
def fnRcp (neg : Bool) (m : Nat) (e : Int) : Num :=
  let q := 2 ^ (fxBits + bitLen m) / m
  if q * m = 2 ^ (fxBits + bitLen m) then .fin neg q (-e - fxBits - bitLen m) else between2 neg q (-e - fxBits - bitLen m)

/-- sqrt and 1 / sqrt of m × 2^e, with the power of two made even; exact where the root is. -/
def evenExp (m : Nat) (e : Int) : Nat × Int := if e % 2 = 0 then (m, e) else (2 * m, e - 1)

def fnSqrt (m : Nat) (e : Int) : Num :=
  let q := evenExp m e
  let n := q.1 * 2 ^ (2 * fxBits)
  let r := Nat.sqrt n
  if r * r = n then .fin false r (q.2 / 2 - fxBits) else between2 false r (q.2 / 2 - fxBits)

def fnRsqrt (m : Nat) (e : Int) : Num :=
  let q := evenExp m e
  let n := 2 ^ (2 * fxBits) / q.1
  let r := Nat.sqrt n
  if r * r * q.1 = 2 ^ (2 * fxBits) then .fin false r (-(q.2 / 2) - fxBits) else between2 false r (-(q.2 / 2) - fxBits)

/-- The quadrant and the remainder of x modulo pi / 2, for a nonzero x of any format. -/
def reduce (neg : Bool) (m : Nat) (e : Int) : Int × Int :=
  let x := toFx neg m e
  let h := fxPi / 2
  let k := (2 * x + h) / (2 * h)
  (k % 4, x - k * h)

def fnSin (neg : Bool) (m : Nat) (e : Int) : Num :=
  let q := reduce neg m e
  ofFx (if q.1 = 0 then fxSin q.2 else if q.1 = 1 then fxCos q.2 else if q.1 = 2 then -(fxSin q.2) else -(fxCos q.2)) 0

def fnCos (neg : Bool) (m : Nat) (e : Int) : Num :=
  let q := reduce neg m e
  ofFx (if q.1 = 0 then fxCos q.2 else if q.1 = 1 then -(fxSin q.2) else if q.1 = 2 then -(fxCos q.2) else fxSin q.2) 0

/-- e^-y for y = c × |x| at most 2^12 as a fixed-point number. -/
def fxExpNeg (c : Int) (m : Nat) (e : Int) : Int :=
  let p := fxExpPair (-(c * toFx false m e))
  p.1 / (2 : Int) ^ (-p.2).toNat

def fnTanh (neg : Bool) (m : Nat) (e : Int) : Num :=
  if atLeastN m e 200 then belowOne neg
  else
    let t := fxExpNeg 2 m e
    let v := (fxOne - t) * fxOne / (fxOne + t)
    if v < fxOne then ofFx (if neg then -v else v) 0 else belowOne neg

def fnSigmoid (neg : Bool) (m : Nat) (e : Int) : Num :=
  if neg then
    if atLeastN m e 1000 then minute
    else
      let p := fxExpPair (toFx true m e)
      let t := p.1 / (2 : Int) ^ (-p.2).toNat
      ofFx (p.1 * fxOne / (fxOne + t)) p.2
  else if atLeastN m e 400 then belowOne false
  else ofFx (fxOne * fxOne / (fxOne + fxExpNeg 1 m e)) 0

/-- erf x = 2 / sqrt(pi) × e^(-x^2) × the sum of 2^n x^(2n+1) / (1 × 3 × ... × (2n+1)). -/
def fnErf (neg : Bool) (m : Nat) (e : Int) : Num :=
  if atLeastN m e 8 then belowOne neg
  else
    let x := toFx false m e
    let x2 := fxMul x x
    let sum := fxMul x ((downFrom 700).foldl (fun (acc : Int) (k : Nat) => fxOne + 2 * fxMul x2 acc / (2 * k + 1)) fxOne)
    let p := fxExpPair (-x2)
    let g := p.1 / (2 : Int) ^ (-p.2).toNat
    let root : Int := Nat.sqrt (fxPi.toNat * 2 ^ fxBits)
    let v := 2 * fxMul g sum * fxOne / root
    if v < fxOne then ofFx (if neg then -v else v) 0 else belowOne neg

/-- The function of a nonzero finite argument, func 0x00 to 0x0B of major 0x1C (Table 3.16); none where it is invalid. -/
def fnValue (fn : Nat) (neg : Bool) (m : Nat) (e : Int) : Option Num :=
  match fn with
  | 0x00 => some (fnExp2 neg m e)
  | 0x01 => some (fnExp neg m e)
  | 0x02 => if neg then none else some (if m * 2 ^ (max e 0).toNat = 2 ^ (-(min e 0)).toNat then .fin false 0 0 else fnLog2 m e)
  | 0x03 => if neg then none else some (if m * 2 ^ (max e 0).toNat = 2 ^ (-(min e 0)).toNat then .fin false 0 0 else fnLog m e)
  | 0x04 => some (fnRcp neg m e)
  | 0x05 => if neg then none else some (fnRsqrt m e)
  | 0x06 => if neg then none else some (fnSqrt m e)
  | 0x07 => some (fnSin neg m e)
  | 0x08 => some (fnCos neg m e)
  | 0x09 => some (fnTanh neg m e)
  | 0x0A => some (fnSigmoid neg m e)
  | _ => some (fnErf neg m e)

/-- The function at an infinity or a zero (Table 2.10). -/
def fnSpecial (f : Fmt) (fn : Nat) (inf neg : Bool) : Nat × Nat :=
  let one := f.bias * 2 ^ f.frac
  let half := (f.bias - 1) * 2 ^ f.frac
  let infP := f.inf.getD 0
  let zero (s : Bool) := f.sign s
  let invalid := (f.nan, flagNV)
  match fn with
  | 0x00 => if inf then (if neg then 0 else infP, 0) else (one, 0)
  | 0x01 => if inf then (if neg then 0 else infP, 0) else (one, 0)
  | 0x02 => if inf then (if neg then invalid else (infP, 0)) else (f.sign true + infP, flagDZ)
  | 0x03 => if inf then (if neg then invalid else (infP, 0)) else (f.sign true + infP, flagDZ)
  | 0x04 => if inf then (zero neg, 0) else (f.sign neg + infP, flagDZ)
  | 0x05 => if inf then (if neg then invalid else (0, 0)) else (f.sign neg + infP, flagDZ)
  | 0x06 => if inf then (if neg then invalid else (infP, 0)) else (zero neg, 0)
  | 0x07 => if inf then invalid else (zero neg, 0)
  | 0x08 => if inf then invalid else (one, 0)
  | 0x0A => if inf then (if neg then 0 else one, 0) else (half, 0)
  | _ => if inf then (f.sign neg + one, 0) else (zero neg, 0)

/-- An FP32 result by faithful rounding: exact when representable, else the neighbour Config names (R59). Its flags are those of the result
returned: the largest finite value in the place of a value out of range sets NX alone, and zero sets UF (DESIGN CHOICE, log 72). -/
def faithful (key arg : Nat) (x : Num) : Nat × Nat :=
  let f := fmtF32
  match x with
  | .fin neg m e =>
    if m = 0 then (f.sign neg, 0)
    else
      let r := roundMag f (if Config.upperNeighbour key arg then .rup else .rdn) neg m e
      if !r.inexact && decide (r.mag ≤ f.top) then (f.sign neg + r.mag, 0)
      else if f.top < r.mag then
        if Config.upperNeighbour key arg != neg then (f.sign neg + f.inf.getD 0, flagOF + flagNX) else (f.sign neg + f.top, flagNX)
      else (f.sign neg + r.mag, flagNX + (if r.mag < 2 ^ f.frac then flagUF else 0))
  | _ => (f.nan, 0)

/-- The function unit on one element of type t in F (R59). -/
def funcUnit (fn t v : Nat) : Nat × Nat :=
  let f := fmtOf t
  match unpack f v with
  | .nan sig => (f.nan, if sig then flagNV else 0)
  | .inf neg => fnSpecial f fn true neg
  | .fin neg m e =>
    if m = 0 then fnSpecial f fn false neg
    else
      match fnValue fn neg m e with
      | none => (f.nan, flagNV)
      | some x => if t = 0 then faithful fn v x else packF f .rne x

end Sys2Proof.Machine
end

