-- ==== Sys2Proof/Machine/Vector.lean ====
section
/-!
DEFINITION. Vector: vector instructions on registers, the function unit, vexpr and mask operations (05 R116 to R128, R132 to R136, R139).
-/

namespace Sys2Proof.Machine

/-- The fields of the prefix that precedes the instruction, or their absent values (R76, Table 3.14). -/
def pfxMask (c : Core) : Nat := match c.pfx with | some w => fld w 7 3 | none => 0
def pfxZ (c : Core) : Nat := match c.pfx with | some w => fld w 10 1 | none => 0
def pfxRound (c : Core) : Nat := match c.pfx with | some w => fld w 11 3 | none => 0
def pfxVc (c : Core) : Nat := match c.pfx with | some w => fld w 14 4 | none => 0

/-- The prefix fields an instruction accepts: mask, zero, round, vc (R118). -/
structure Accepts where
  m : Bool := false
  z : Bool := false
  r : Bool := false
  c : Bool := false

/-- Checks 3 to 5 of Table 3.1 for a vector instruction: a reserved field, a prefix field it does not accept, a bad operand. -/
def vectorCheck (c : Core) (acc : Accepts) (res bad : Bool) : Option Trap :=
  if res then some (illeg 2)
  else if (pfxMask c != 0 && !acc.m) || (pfxZ c != 0 && !acc.z) || (pfxRound c != 0 && !acc.r) || (pfxVc c != 0 && !acc.c) then
    some (illeg 3)
  else if bad || decide (6 ≤ pfxRound c) then some (illeg 4)
  else none

/-- Rounding mode: the prefix's, else FMODE's (R48, R76). -/
def roundMode (c : Core) : RMode := if pfxRound c = 0 then fmode c else rmode (pfxRound c - 1)

/-- The mask of the active elements and its row (R118). -/
def activeMask (c : Core) : Nat := rdM c (pfxMask c)
def maskRows (c : Core) : List Nat := rowsM c (pfxMask c)

/-- The fourth operand: vc with a prefix, vd without (R76, R118). -/
def fourth (c : Core) (d : Nat) : Nat := if c.pfx.isSome then pfxVc c else d

/-- Element i of w bits (R116). -/
def lane (w v i : Nat) : Nat := fld v (w * i) w

/-- A row from its elements, element 0 first. -/
def joinLanes (w : Nat) (xs : List Nat) : Nat := xs.foldr (fun x acc => x % 2 ^ w + 2 ^ w * acc) 0

/-- The flags of a list of results, together (R119). -/
def orFlags (xs : List (Nat × Nat)) : Nat := xs.foldl (fun f x => Nat.lor f x.2) 0

/-- The element rule of R118: k elements of w bits, the mask of the active ones, z, the old destination, the operation. -/
def elements (w k mask z old : Nat) (f : Nat → Nat × Nat) : Nat × Nat :=
  let xs := (upTo k).map fun i => if bit mask i then f i else if z = 1 then (0, 0) else (lane w old i, 0)
  (joinLanes w (xs.map Prod.fst), orFlags xs)

/-- An element-wise instruction on vd: rows read beside the mask's, base cost, operation on element numbers (R118, R119). -/
def vectorEff (c : Core) (w d : Nat) (rd : List Nat) (cost : Nat) (f : Nat → Nat × Nat) : TrapOr Eff :=
  let q := elements w (256 / w) (activeMask c) (pfxZ c) (rdV c d) f
  eff (raise (wrV c d q.1) q.2) (rd ++ maskRows c) (rowV c d :: rowsFstat c q.2) cost

/-! Element operations of Tables 5.1 and 5.13. -/

def addE (t : Nat) (mode : RMode) (sat : Bool) (a b : Nat) : Nat × Nat :=
  let f := fmtOf t
  if isF t then roundF f mode (addNum mode (unpack f a) (unpack f b))
  else let v := intVal t a + intVal t b; (if sat then satInt t v else pat (typeWidth t) v, 0)

def subE (t : Nat) (mode : RMode) (sat : Bool) (a b : Nat) : Nat × Nat :=
  let f := fmtOf t
  if isF t then roundF f mode (addNum mode (unpack f a) (unpack f b).negate)
  else let v := intVal t a - intVal t b; (if sat then satInt t v else pat (typeWidth t) v, 0)

def mulE (t : Nat) (mode : RMode) (a b : Nat) : Nat × Nat :=
  let f := fmtOf t
  if isF t then roundF f mode (mulNum (unpack f a) (unpack f b)) else (pat (typeWidth t) (intVal t a * intVal t b), 0)

/-- a × b + c with the signs of the product and of the addend given (vfma, vfms, vfnma). -/
def fmaE (t : Nat) (mode : RMode) (np nc : Bool) (a b c : Nat) : Nat × Nat :=
  let f := fmtOf t
  if isF t then
    let x := unpack f a
    let z := unpack f c
    roundF f mode (fmaNum mode (if np then x.negate else x) (unpack f b) (if nc then z.negate else z))
  else
    let p := intVal t a * intVal t b
    let z := intVal t c
    (pat (typeWidth t) ((if np then -p else p) + (if nc then -z else z)), 0)

def minE (t a b : Nat) : Nat × Nat :=
  if isF t then minF (fmtOf t) a b else (if intVal t a ≤ intVal t b then a else b, 0)
def maxE (t a b : Nat) : Nat × Nat :=
  if isF t then maxF (fmtOf t) a b else (if intVal t b ≤ intVal t a then a else b, 0)

/-- abs and neg: on F they change the sign bit alone (R45, R120). -/
def absE (t : Nat) (sat : Bool) (a : Nat) : Nat × Nat :=
  let w := typeWidth t
  if isF t then (a % 2 ^ (w - 1), 0)
  else let v := ((intVal t a).natAbs : Int); (if sat then satInt t v else pat w v, 0)
def negE (t : Nat) (sat : Bool) (a : Nat) : Nat × Nat :=
  let w := typeWidth t
  if isF t then ((a + 2 ^ (w - 1)) % 2 ^ w, 0)
  else let v := -intVal t a; (if sat then satInt t v else pat w v, 0)

/-! Shapes. -/

def arithTypes (t : Nat) : Bool := isF t || isIN t
def anyType (t : Nat) : Bool := decide (t ≤ 11)

/-- A two-operand instruction of major 0x16 (Table 5.1). satVariant: variant 1 is .sat for I and N; otherwise the variant is reserved. -/
def arith2 (satVariant rounds : Bool) (cost : Nat) (op : Nat → RMode → Bool → Nat → Nat → Nat × Nat) (v t b a d : Nat) : Local := fun c _ =>
  match vectorCheck c { m := true, z := true, r := rounds && isF t } (!satVariant && v != 0)
      (!arithTypes t || (satVariant && (decide (2 ≤ v) || (v == 1 && isF t)))) with
  | some x => .error x
  | none =>
    let w := typeWidth t
    vectorEff c w d [rowV c a, rowV c b] cost fun i => op t (roundMode c) (v == 1) (lane w (rdV c a) i) (lane w (rdV c b) i)

/-- vfma, vfms and vfnma (R120). -/
def arith3 (np nc : Bool) (t b a d : Nat) : Local := fun c _ =>
  match vectorCheck c { m := true, z := true, r := isF t, c := true } false (!arithTypes t) with
  | some x => .error x
  | none =>
    let w := typeWidth t
    let e := fourth c d
    vectorEff c w d [rowV c a, rowV c b, rowV c e] 2 fun i =>
      fmaE t (roundMode c) np nc (lane w (rdV c a) i) (lane w (rdV c b) i) (lane w (rdV c e) i)

/-- vabs and vneg: types F and I (Table 5.1). -/
def arith1 (op : Nat → Bool → Nat → Nat × Nat) (v t a d : Nat) : Local := fun c _ =>
  match vectorCheck c { m := true, z := true } false (!(isF t || isI t) || decide (2 ≤ v) || (v == 1 && isF t)) with
  | some x => .error x
  | none => let w := typeWidth t; vectorEff c w d [rowV c a] 1 fun i => op t (v == 1) (lane w (rdV c a) i)

/-- The bitwise instructions of major 0x17 (R121). -/
def bitwise (op : Nat → Nat → Nat → Nat) (t b a d : Nat) : Local := fun c _ =>
  match vectorCheck c { m := true, z := true } false (!isIN t) with
  | some x => .error x
  | none =>
    let w := typeWidth t
    vectorEff c w d [rowV c a, rowV c b] 1 fun i => (op w (lane w (rdV c a) i) (lane w (rdV c b) i), 0)

/-- The shifts: the amount is an element of vb, or W(b) for variant 1 (R121). -/
def vshift (op : Nat → Nat → Nat → Nat) (v t b a d : Nat) : Local := fun c _ =>
  match vectorCheck c { m := true, z := true } false (!isIN t || decide (2 ≤ v)) with
  | some x => .error x
  | none =>
    let w := typeWidth t
    vectorEff c w d [rowV c a, if v = 1 then rowW c b else rowV c b] 1 fun i =>
      (op w (lane w (rdV c a) i) (if v = 1 then rdW c b else lane w (rdV c b) i), 0)

/-- One compare of vcmp (Table 5.4): the outcome and the flags. -/
def cmpE (cond t a b : Nat) : Bool × Nat :=
  if isF t then
    let x := unpack (fmtOf t) a
    let y := unpack (fmtOf t) b
    let un := x.isNan || y.isNan
    let sig := if x.isSig || y.isSig then flagNV else 0
    let any := if un then flagNV else 0
    match cond with
    | 0 => (!un && eqNum x y, sig)
    | 1 => (un || !eqNum x y, sig)
    | 2 => (!un && ltNum x y, any)
    | 3 => (!un && (ltNum x y || eqNum x y), any)
    | 4 => (!un && ltNum y x, any)
    | 5 => (!un && (ltNum y x || eqNum x y), any)
    | _ => (un, sig)
  else
    let x := intVal t a
    let y := intVal t b
    match cond with
    | 0 => (decide (x = y), 0)
    | 1 => (decide (x ≠ y), 0)
    | 2 => (decide (x < y), 0)
    | 3 => (decide (x ≤ y), 0)
    | 4 => (decide (y < x), 0)
    | _ => (decide (y ≤ x), 0)

/-- vcmp: bits of mask md; bits above the elements are zero (R122). The old mask is read where some element is inactive and z is 0. -/
def vcmpOp (cond t b a d : Nat) : Local := fun c _ =>
  match vectorCheck c { m := true, z := true } false (!arithTypes t || decide (7 ≤ cond) || (cond == 6 && !isF t)) with
  | some x => .error x
  | none =>
    let w := typeWidth t
    let k := lanesOf t
    let mask := activeMask c
    let old := rdM c d
    let xs := (upTo k).map fun i =>
      if bit mask i then let r := cmpE cond t (lane w (rdV c a) i) (lane w (rdV c b) i); (b2n r.1, r.2)
      else if pfxZ c = 1 then (0, 0) else (b2n (bit old i), 0)
    let fl := orFlags xs
    let keeps := pfxZ c == 0 && mask % 2 ^ k != 2 ^ k - 1
    eff (raise (wrM c d (joinLanes 1 (xs.map Prod.fst))) fl)
      ([rowV c a, rowV c b] ++ maskRows c ++ if keeps then [rowM c d] else []) (rowsM c d ++ rowsFstat c fl) 1

/-- vsel (R123). -/
def vselOp (m t b a d : Nat) : Local := fun c _ =>
  match vectorCheck c { m := true, z := true } false (!anyType t) with
  | some x => .error x
  | none =>
    let w := typeWidth t
    vectorEff c w d [rowV c a, rowV c b, rowM c m] 1 fun i =>
      (if bit (rdM c m) i then lane w (rdV c a) i else lane w (rdV c b) i, 0)

/-- The type combinations a conversion refuses (R125), whatever the part. -/
def cvtBad (sx t sat : Nat) : Bool :=
  !anyType sx || decide (11 ≤ t) || sx == t || (isB sx && !(isF t || t == 5 || t == 6)) || (sat == 1 && (isF t || isB sx))

/-- vcvt from type t to type b, part p (R124, R125). -/
def vcvtOp (p sat t b a d : Nat) : Local := fun c _ =>
  let ks := lanesOf t
  let kd := lanesOf b
  let r := max (kd / ks) (ks / kd)
  match vectorCheck c { m := true, z := true, r := true } false (cvtBad t b sat || decide (if r = 1 then p ≠ 0 else r ≤ p)) with
  | some x => .error x
  | none =>
    let ws := typeWidth t
    let wd := typeWidth b
    let lo := if ks < kd then p * ks else 0
    let n := if ks < kd then ks else kd
    let from_ := if kd < ks then p * kd else 0
    let xs := (upTo kd).map fun j =>
      if lo ≤ j ∧ j < lo + n then
        if bit (activeMask c) j then convert t b (roundMode c) (sat == 1) (lane ws (rdV c a) (from_ + j - lo))
        else if pfxZ c = 1 then (0, 0) else (lane wd (rdV c d) j, 0)
      else (lane wd (rdV c d) j, 0)
    let fl := orFlags xs
    eff (raise (wrV c d (joinLanes wd (xs.map Prod.fst))) fl) (rowV c a :: maskRows c) (rowV c d :: rowsFstat c fl) 1

/-- A move of major 0x1A: which element, from its sources (Table 5.7). -/
def moveOp (bad : Bool) (t d : Nat) (cost : Nat) (rd : Core → List Nat) (f : Core → Nat → Nat) : Local := fun c _ =>
  match vectorCheck c { m := true, z := true } false (!anyType t || bad) with
  | some x => .error x
  | none => vectorEff c (typeWidth t) d (rd c) cost fun i => (f c i, 0)

def vmovOp (t a d : Nat) : Local := moveOp false t d 1 (fun c => [rowV c a]) fun c i => lane (typeWidth t) (rdV c a) i
def vsplatOp (t a d : Nat) : Local := moveOp false t d 1 (fun c => [rowW c a]) fun c _ => rdW c a % 2 ^ typeWidth t
def vbcastOp (h t j a d : Nat) : Local :=
  moveOp (decide (lanesOf t ≤ h * 16 + j)) t d 1 (fun c => [rowV c a]) fun c _ => lane (typeWidth t) (rdV c a) (h * 16 + j)
def vpermOp (t b a d : Nat) : Local :=
  moveOp false t d 2 (fun c => [rowV c a, rowV c b]) fun c i =>
    lane (typeWidth t) (rdV c a) (lane (typeWidth t) (rdV c b) i % lanesOf t)
def vrotOp (h t j a d : Nat) : Local :=
  moveOp (decide (lanesOf t ≤ h * 16 + j)) t d 1 (fun c => [rowV c a]) fun c i =>
    lane (typeWidth t) (rdV c a) ((i + (h * 16 + j)) % lanesOf t)
def vzipOp (v t b a d : Nat) : Local :=
  moveOp (decide (2 ≤ v)) t d 1 (fun c => [rowV c a, rowV c b]) fun c i =>
    lane (typeWidth t) (rdV c (if i % 2 = 0 then a else b)) (v * (lanesOf t / 2) + i / 2)
def vunzipOp (v t b a d : Nat) : Local :=
  moveOp (decide (2 ≤ v)) t d 1 (fun c => [rowV c a, rowV c b]) fun c i =>
    let h := lanesOf t / 2
    if i < h then lane (typeWidth t) (rdV c a) (2 * i + v) else lane (typeWidth t) (rdV c b) (2 * (i - h) + v)

/-- One node of the reduction tree (R127); an empty element takes no part. -/
def combine (op : Nat → Nat → Nat × Nat) (x y : Option Nat) (fl : Nat) : Option Nat × Nat :=
  match x, y with
  | none, y => (y, fl)
  | x, none => (x, fl)
  | some x, some y => let r := op x y; (some r.1, Nat.lor fl r.2)

/-- One level of the tree: neighbours combined (R127). -/
def treeLevel (op : Nat → Nat → Nat × Nat) : List (Option Nat) → Nat → List (Option Nat) × Nat
  | x :: y :: rest, fl =>
    let r := combine op x y fl
    let q := treeLevel op rest r.2
    (r.1 :: q.1, q.2)
  | xs, fl => (xs, fl)

/-- The reduction tree over n levels. -/
def tree (op : Nat → Nat → Nat × Nat) : Nat → List (Option Nat) → Nat → List (Option Nat) × Nat
  | 0, xs, fl => (xs, fl)
  | n + 1, xs, fl => let q := treeLevel op xs fl; tree op n q.1 q.2

/-- vred: the active elements of va into wd (R127). Integers are first extended to 32 bits. -/
def vredOp (v t a d : Nat) : Local := fun c _ =>
  match vectorCheck c { m := true, r := isF t } false (!arithTypes t || decide (3 ≤ v)) with
  | some x => .error x
  | none =>
    let w := typeWidth t
    let k := lanesOf t
    let t32 := if isF t then t else if isI t then 5 else 8
    let op (x y : Nat) : Nat × Nat :=
      match v with
      | 0 => addE t32 (roundMode c) false x y
      | 1 => minE t32 x y
      | _ => maxE t32 x y
    let xs := (upTo k).map fun i =>
      if bit (activeMask c) i then
        let x := lane w (rdV c a) i
        some (if isF t then x else pat 32 (intVal t x))
      else none
    let q := tree op (Nat.log2 k) xs 0
    let res := ((nth none q.1 0).getD 0)
    eff (raise (wrW c d res) q.2) (rowV c a :: maskRows c) (rowsW c d ++ rowsFstat c q.2) (1 + Nat.log2 k)

/-- One lane of vdot (R128). -/
def dotLane (t c a b : Nat) : Nat × Nat :=
  let w := typeWidth t
  let ks := upTo (32 / w)
  if t = 7 then (pat 32 (ks.foldl (fun (x : Int) i => x + intVal 7 (lane 8 a i) * intVal 7 (lane 8 b i)) (c : Int)), 0)
  else dotFP c 16 (ks.map fun i => (unpack (fmtOf t) (lane w a i), unpack (fmtOf t) (lane w b i)))

/-- vdot (R128). -/
def vdotOp (t b a d : Nat) : Local := fun c _ =>
  match vectorCheck c { m := true, z := true, c := true } false (!(isF t || isQ t || t == 7)) with
  | some x => .error x
  | none =>
    let e := fourth c d
    vectorEff c 32 d [rowV c a, rowV c b, rowV c e] 2 fun j =>
      dotLane t (lane 32 (rdV c e) j) (lane 32 (rdV c a) j) (lane 32 (rdV c b) j)

/-- vfn (R132): RNE always; 4 cycles for f32, 2 for the 16-bit formats (Table 5.17). -/
def vfnOp (fn t a d : Nat) : Local := fun c _ =>
  match vectorCheck c { m := true, z := true } false (!isF t) with
  | some x => .error x
  | none =>
    let w := typeWidth t
    vectorEff c w d [rowV c a] (if t = 0 then 4 else 2) fun i => funcUnit fn t (lane w (rdV c a) i)

/-! vexpr (R133 to R136). -/

/-- Tokens of an expression up to its end (R133). -/
def tokensFrom (v : Nat) : Nat → List Nat
  | 0 => []
  | n + 1 => let tok := fld v (4 * (15 - n)) 4; if tok = 15 then [] else tok :: tokensFrom v n
def tokens (v : Nat) : List Nat := tokensFrom v 16

/-- Operands an operator pops (Table 5.10). -/
def tokNeed (tok : Nat) : Nat := if tok = 8 then 3 else if 11 ≤ tok then 1 else 2

/-- The check of R134, from a depth. -/
def exprOk : List Nat → Nat → Bool
  | [], depth => depth == 1
  | tok :: ts, depth =>
    if tok ≤ 4 then decide (depth + 1 ≤ 4) && exprOk ts (depth + 1)
    else decide (tokNeed tok ≤ depth) && exprOk ts (depth + 1 - tokNeed tok)

def opCount (ts : List Nat) : Nat := ts.countP fun t => decide (5 ≤ t)
def constCount (ts : List Nat) : Nat := ts.countP fun t => t == 4

/-- Evaluate the tokens on a stack, top first, with the constants still to come and the flags so far (R136). -/
def evalExpr (t : Nat) (mode : RMode) (inp : Nat → Nat) : List Nat → List Nat → List Nat → Nat → Nat × Nat
  | [], _, stack, fl => (nth 0 stack 0, fl)
  | 4 :: ts, ks, stack, fl => evalExpr t mode inp ts (ks.drop 1) (nth 0 ks 0 :: stack) fl
  | tok :: ts, ks, stack, fl =>
    if tok ≤ 3 then evalExpr t mode inp ts ks (inp tok :: stack) fl
    else
      let x0 := nth 0 stack 0
      let x1 := nth 0 stack 1
      let x2 := nth 0 stack 2
      let r : Nat × Nat := match tok with
        | 5 => addE t mode false x1 x0
        | 6 => subE t mode false x1 x0
        | 7 => mulE t mode x1 x0
        | 8 => fmaE t mode false false x2 x1 x0
        | 9 => minE t x1 x0
        | 10 => maxE t x1 x0
        | 11 => negE t false x0
        | 12 => absE t false x0
        | 13 => funcUnit 0x04 t x0
        | _ => funcUnit 0x00 t x0
      evalExpr t mode inp ts ks (r.1 :: stack.drop (tokNeed tok)) (Nat.lor fl r.2)

/-- vexpr with its tokens in e(n) (R133 to R136). -/
def vexprOp (n t b a d : Nat) : Local := fun c _ =>
  let ts := tokens (rdE c n)
  let nc := constCount ts
  let regs := 1 + (nc + 1) / 2
  match vectorCheck c { m := true, z := true, r := isF t, c := true } false
      (!isF t || !exprOk ts 0 || decide (7 < opCount ts) || decide (8 < n + regs)) with
  | some x => .error x
  | none =>
    let w := typeWidth t
    let e := fourth c d
    let ks := (upTo nc).map fun q => fld (rdE c (n + 1 + q / 2)) (32 * (q % 2)) w
    let rd := (if ts.contains 0 then [rowV c a] else []) ++ (if ts.contains 1 then [rowV c b] else []) ++
      (if ts.contains 2 then [rowV c d] else []) ++ (if ts.contains 3 then [rowV c e] else []) ++
      (upTo regs).map fun q => rowE c (n + q)
    let cost := ts.foldl (fun k tok => k + (if 13 ≤ tok ∧ t = 0 then 3 else if 5 ≤ tok then 1 else 0)) 1
    vectorEff c w d rd cost fun i =>
      evalExpr t (roundMode c) (fun tok => lane w (rdV c (if tok = 0 then a else if tok = 1 then b else if tok = 2 then d else e)) i)
        ts ks [] 0

/-! Mask operations (R139): no prefix field is accepted. -/

def maskOp (op : Nat → Nat → Nat) (b a d : Nat) : Local := fun c _ =>
  match vectorCheck c {} false false with
  | some x => .error x
  | none => eff (wrM c d (op (rdM c a) (rdM c b) % 2 ^ 32)) [rowM c a, rowM c b] (rowsM c d) 1

def mnotOp (a d : Nat) : Local := fun c _ =>
  match vectorCheck c {} false false with
  | some x => .error x
  | none => eff (wrM c d (2 ^ 32 - 1 - rdM c a)) [rowM c a] (rowsM c d) 1

/-- mpop and mfirst: type4 gives k. -/
def mcountOp (f : Nat → Nat → Nat) (t a d : Nat) : Local := fun c _ =>
  match vectorCheck c {} false (!anyType t) with
  | some x => .error x
  | none => eff (wrW c d (f (lanesOf t) (rdM c a % 2 ^ lanesOf t))) [rowM c a] (rowsW c d) 1

def mfirstVal (k m : Nat) : Nat := if m = 0 then 2 ^ 32 - 1 else lowBit k m

def msetOp (a d : Nat) : Local := fun c _ =>
  match vectorCheck c {} false false with
  | some x => .error x
  | none => eff (wrM c d (rdW c a)) [rowW c a] (rowsM c d) 1

/-- VADD (R120). -/
def execVadd (v t b a d : Nat) (s : State) : Out :=
  runLocal .members 4 (arith2 true true 1 addE v t b a d) s

/-- VSUB (R120). -/
def execVsub (v t b a d : Nat) (s : State) : Out :=
  runLocal .members 4 (arith2 true true 1 subE v t b a d) s

/-- VMUL (R120). -/
def execVmul (t b a d : Nat) (s : State) : Out :=
  runLocal .members 4 (arith2 false true 2 (fun t m _ => mulE t m) 0 t b a d) s

/-- VFMA (R120). -/
def execVfma (t b a d : Nat) (s : State) : Out :=
  runLocal .members 4 (arith3 false false t b a d) s

/-- VFMS (R120). -/
def execVfms (t b a d : Nat) (s : State) : Out :=
  runLocal .members 4 (arith3 false true t b a d) s

/-- VFNMA (R120). -/
def execVfnma (t b a d : Nat) (s : State) : Out :=
  runLocal .members 4 (arith3 true false t b a d) s

/-- VMIN (R120). -/
def execVmin (t b a d : Nat) (s : State) : Out :=
  runLocal .members 4 (arith2 false false 1 (fun t _ _ => minE t) 0 t b a d) s

/-- VMAX (R120). -/
def execVmax (t b a d : Nat) (s : State) : Out :=
  runLocal .members 4 (arith2 false false 1 (fun t _ _ => maxE t) 0 t b a d) s

/-- VABS (R120). -/
def execVabs (v t a d : Nat) (s : State) : Out :=
  runLocal .members 4 (arith1 absE v t a d) s

/-- VNEG (R120). -/
def execVneg (v t a d : Nat) (s : State) : Out :=
  runLocal .members 4 (arith1 negE v t a d) s

/-- VAND (R121). -/
def execVand (t b a d : Nat) (s : State) : Out :=
  runLocal .members 4 (bitwise aluAnd t b a d) s

/-- VOR (R121). -/
def execVor (t b a d : Nat) (s : State) : Out :=
  runLocal .members 4 (bitwise aluOr t b a d) s

/-- VXOR (R121). -/
def execVxor (t b a d : Nat) (s : State) : Out :=
  runLocal .members 4 (bitwise aluXor t b a d) s

/-- VANDN (R121). -/
def execVandn (t b a d : Nat) (s : State) : Out :=
  runLocal .members 4 (bitwise aluAndn t b a d) s

/-- VSHL (R121). -/
def execVshl (v t b a d : Nat) (s : State) : Out :=
  runLocal .members 4 (vshift aluShl v t b a d) s

/-- VSHR (R121). -/
def execVshr (v t b a d : Nat) (s : State) : Out :=
  runLocal .members 4 (vshift aluShr v t b a d) s

/-- VSRA (R121). -/
def execVsra (v t b a d : Nat) (s : State) : Out :=
  runLocal .members 4 (vshift aluSra v t b a d) s

/-- VCMP (R122). -/
def execVcmp (c t b a d : Nat) (s : State) : Out :=
  runLocal .members 4 (vcmpOp c t b a d) s

/-- VSEL (R123). -/
def execVsel (m t b a d : Nat) (s : State) : Out :=
  runLocal .members 4 (vselOp m t b a d) s

/-- VCVT (R124). -/
def execVcvt (p sx t b a d : Nat) (s : State) : Out :=
  runLocal .members 4 (vcvtOp p sx t b a d) s

/-- VMOV (R126). -/
def execVmov (t a d : Nat) (s : State) : Out :=
  runLocal .members 4 (vmovOp t a d) s

/-- VSPLAT (R126). -/
def execVsplat (t a d : Nat) (s : State) : Out :=
  runLocal .members 4 (vsplatOp t a d) s

/-- VBCAST (R126). -/
def execVbcast (h t j a d : Nat) (s : State) : Out :=
  runLocal .members 4 (vbcastOp h t j a d) s

/-- VPERM (R126). -/
def execVperm (t b a d : Nat) (s : State) : Out :=
  runLocal .members 4 (vpermOp t b a d) s

/-- VROT (R126). -/
def execVrot (h t j a d : Nat) (s : State) : Out :=
  runLocal .members 4 (vrotOp h t j a d) s

/-- VZIP (R126). -/
def execVzip (v t b a d : Nat) (s : State) : Out :=
  runLocal .members 4 (vzipOp v t b a d) s

/-- VUNZIP (R126). -/
def execVunzip (v t b a d : Nat) (s : State) : Out :=
  runLocal .members 4 (vunzipOp v t b a d) s

/-- VRED (R127). -/
def execVred (v t a d : Nat) (s : State) : Out :=
  runLocal .members 4 (vredOp v t a d) s

/-- VDOT (R128). -/
def execVdot (t b a d : Nat) (s : State) : Out :=
  runLocal .members 4 (vdotOp t b a d) s

/-- VFN_EXP2 (R132). -/
def execVfnExp2 (t a d : Nat) (s : State) : Out :=
  runLocal .members 4 (vfnOp 0 t a d) s

/-- VFN_EXP (R132). -/
def execVfnExp (t a d : Nat) (s : State) : Out :=
  runLocal .members 4 (vfnOp 1 t a d) s

/-- VFN_LOG2 (R132). -/
def execVfnLog2 (t a d : Nat) (s : State) : Out :=
  runLocal .members 4 (vfnOp 2 t a d) s

/-- VFN_LOG (R132). -/
def execVfnLog (t a d : Nat) (s : State) : Out :=
  runLocal .members 4 (vfnOp 3 t a d) s

/-- VFN_RCP (R132). -/
def execVfnRcp (t a d : Nat) (s : State) : Out :=
  runLocal .members 4 (vfnOp 4 t a d) s

/-- VFN_RSQRT (R132). -/
def execVfnRsqrt (t a d : Nat) (s : State) : Out :=
  runLocal .members 4 (vfnOp 5 t a d) s

/-- VFN_SQRT (R132). -/
def execVfnSqrt (t a d : Nat) (s : State) : Out :=
  runLocal .members 4 (vfnOp 6 t a d) s

/-- VFN_SIN (R132). -/
def execVfnSin (t a d : Nat) (s : State) : Out :=
  runLocal .members 4 (vfnOp 7 t a d) s

/-- VFN_COS (R132). -/
def execVfnCos (t a d : Nat) (s : State) : Out :=
  runLocal .members 4 (vfnOp 8 t a d) s

/-- VFN_TANH (R132). -/
def execVfnTanh (t a d : Nat) (s : State) : Out :=
  runLocal .members 4 (vfnOp 9 t a d) s

/-- VFN_SIGMOID (R132). -/
def execVfnSigmoid (t a d : Nat) (s : State) : Out :=
  runLocal .members 4 (vfnOp 10 t a d) s

/-- VFN_ERF (R132). -/
def execVfnErf (t a d : Nat) (s : State) : Out :=
  runLocal .members 4 (vfnOp 11 t a d) s

/-- VEXPR (R133). -/
def execVexpr (e t b a d : Nat) (s : State) : Out :=
  runLocal .members 4 (vexprOp e t b a d) s

/-- MAND (R139). -/
def execMand (b a d : Nat) (s : State) : Out :=
  runLocal .members 4 (maskOp Nat.land b a d) s

/-- MOR (R139). -/
def execMor (b a d : Nat) (s : State) : Out :=
  runLocal .members 4 (maskOp Nat.lor b a d) s

/-- MXOR (R139). -/
def execMxor (b a d : Nat) (s : State) : Out :=
  runLocal .members 4 (maskOp Nat.xor b a d) s

/-- MNOT (R139). -/
def execMnot (a d : Nat) (s : State) : Out :=
  runLocal .members 4 (mnotOp a d) s

/-- MPOP (R139). -/
def execMpop (t a d : Nat) (s : State) : Out :=
  runLocal .members 4 (mcountOp popCount t a d) s

/-- MFIRST (R139). -/
def execMfirst (t a d : Nat) (s : State) : Out :=
  runLocal .members 4 (mcountOp mfirstVal t a d) s

/-- MSET (R139). -/
def execMset (a d : Nat) (s : State) : Out :=
  runLocal .members 4 (msetOp a d) s

end Sys2Proof.Machine
end

