-- ==== Sys2Proof/Machine/Curve.lean ====
section
/-!
DEFINITION. Curve: curve keys (06 R143 to R158).
-/

namespace Sys2Proof.Machine

/-- Bits of an axis for d dimensions (Table 6.1). -/
def axisBits (d : Nat) : Nat := 64 / d

/-- A key with its unused bits cleared (R143). -/
def keyOf (d v : Nat) : Nat := v % 2 ^ (d * axisBits d)

/-- Ax(K, i): bit j of axis i is key bit j × d + i (R143). -/
def ax (d k i : Nat) : Nat := (upTo (axisBits d)).foldl (fun v j => v + fld k (j * d + i) 1 * 2 ^ j) 0

/-- Key(c_0, ..., c_{d-1}) (R143). -/
def mkKey (d : Nat) (c : Nat → Nat) : Nat :=
  (upTo d).foldl (fun v i => (upTo (axisBits d)).foldl (fun v j => v + fld (c i) j 1 * 2 ^ (j * d + i)) v) 0

/-- A box by its corners (R145). -/
abbrev Box := Nat × Nat

/-- The key lies in the box (R145). -/
def inBox (d : Nat) (b : Box) (k : Nat) : Bool :=
  (upTo d).all fun i => decide (ax d b.1 i ≤ ax d k i) && decide (ax d k i ≤ ax d b.2 i)

/-- The common part of two boxes, none where it is empty. -/
def meet (d : Nat) (b c : Box) : Option Box :=
  let lo i := max (ax d b.1 i) (ax d c.1 i)
  let hi i := min (ax d b.2 i) (ax d c.2 i)
  if (upTo d).all fun i => decide (lo i ≤ hi i) then some (mkKey d lo, mkKey d hi) else none

/-- The keys that agree with k above bit p and hold bit p as given: they form a box (R144). -/
def pfxBox (k p v : Nat) : Box := let base := k / 2 ^ (p + 1) * 2 ^ (p + 1) + v * 2 ^ p; (base, base + 2 ^ p - 1)

/-- The smallest key of the box strictly greater than k (R152): it shares with k all bits above some clear bit p of k. -/
def nextKey (d : Nat) (b : Box) (k : Nat) : Option Nat :=
  (upTo (d * axisBits d)).findSome? fun p => if bit k p then none else (meet d b (pfxBox k p 1)).map Prod.fst

/-- The largest key of the box strictly less than k (R152). -/
def prevKey (d : Nat) (b : Box) (k : Nat) : Option Nat :=
  (upTo (d * axisBits d)).findSome? fun p => if bit k p then (meet d b (pfxBox k p 0)).map Prod.snd else none

/-- The smallest key of the box that is at least k. -/
def firstKey (d : Nat) (b : Box) (k : Nat) : Option Nat := if inBox d b k then some k else nextKey d b k

/-- The boxes that together hold every key outside a box: one axis below its low or above its high coordinate. -/
def outside (d : Nat) (b : Box) : List Box :=
  let top := 2 ^ axisBits d - 1
  (upTo d).foldr (fun i xs =>
    (if 0 < ax d b.1 i then [(0, mkKey d fun j => if j = i then ax d b.1 i - 1 else top)] else []) ++
    (if ax d b.2 i < top then [(mkKey d fun j => if j = i then ax d b.2 i + 1 else 0, mkKey d fun _ => top)] else []) ++ xs) []

/-- The last key of the run that begins at a key of the box (R155). -/
def runEnd (d : Nat) (b : Box) (k : Nat) : Nat :=
  let outs := (outside d b).filterMap fun o => nextKey d o k
  match outs with
  | [] => 2 ^ (d * axisBits d) - 1
  | x :: xs => xs.foldl min x - 1

/-- At most n runs of the keys of the box from a key, and the key that begins a further run (R155). -/
def runsFrom (d : Nat) (b : Box) : Nat → Option Nat → List (Nat × Nat) × Option Nat
  | _, none => ([], none)
  | 0, some k => ([], some k)
  | n + 1, some k =>
    let e := runEnd d b k
    let q := runsFrom d b n (nextKey d b e)
    ((k, e) :: q.1, q.2)

/-- Every key of a box in curve order, at most n of them (R152, R199). -/
def keysFrom (d : Nat) (b : Box) : Nat → Option Nat → List Nat
  | _, none => []
  | 0, some _ => []
  | n + 1, some k => k :: keysFrom d b n (nextKey d b k)

/-! Shapes. -/

/-- The checks of a curve-key instruction (R145): x pair fields, a box field, the type field. -/
def curveCheck (t : Nat) (pairs : List Nat) (box : Option Nat) (bad : Bool) : Option Trap :=
  if pairs.any (8 ≤ ·) || (box.any (8 ≤ ·)) then some (illeg 2)
  else if t == 7 || box == some 7 || bad then some (illeg 4)
  else none

/-- A key operand, its unused bits taken as zero. -/
def rdKey (c : Core) (t n : Nat) : Nat := keyOf (t + 2) (rdX c n)
def rdBox (c : Core) (t b : Nat) : Box := (rdKey c t b, rdKey c t (b + 1))
def boxRows (c : Core) (b : Nat) : List Nat := [rowX c b, rowX c (b + 1)]

/-- xd, then wc (R146). -/
def keyEff (c : Core) (x d w wc : Nat) (rd : List Nat) (cost : Nat) : TrapOr Eff :=
  eff (wrW (wrX c d x) w wc) rd (rowX c d :: rowsW c w) cost

/-- Sums or differences of two keys by axis, with the mask of the axes that carry or borrow (R150). -/
def keyAdd (d : Nat) (sub : Bool) (a b : Nat) : Nat × Nat :=
  let n : Int := (2 : Int) ^ axisBits d
  let s (i : Nat) : Int := if sub then (ax d a i : Int) - ax d b i else (ax d a i : Int) + ax d b i
  (mkKey d fun i => (s i % n).toNat, (upTo d).foldl (fun m i => m + (if n ≤ s i ∨ s i < 0 then 2 ^ i else 0)) 0)

def ckMkOp (m t a d : Nat) : Local := fun c _ =>
  match curveCheck t [d] none false with
  | some x => .error x
  | none =>
    let n := t + 2
    let v (i : Nat) := lane 32 (rdV c a) i
    keyEff c (mkKey n v) d m ((upTo n).foldl (fun o i => o + (if 2 ^ axisBits n ≤ v i then 2 ^ i else 0)) 0) [rowV c a] 1

def ckAxOp (t ix a d : Nat) : Local := fun c _ =>
  match curveCheck t [a] none (decide (t + 2 ≤ ix)) with
  | some x => .error x
  | none => eff (wrW c d (ax (t + 2) (rdX c a) ix)) [rowX c a] (rowsW c d) 1

def ckAddOp (sub : Bool) (m t b a d : Nat) : Local := fun c _ =>
  match curveCheck t [b, a, d] none false with
  | some x => .error x
  | none =>
    let q := keyAdd (t + 2) sub (rdKey c t a) (rdKey c t b)
    keyEff c q.1 d m q.2 [rowX c a, rowX c b] 1

/-- A test of two keys into wd (R151). -/
def ckTestOp (f : Nat → Nat → Nat → Nat) (t b a d : Nat) : Local := fun c _ =>
  match curveCheck t [b, a] none false with
  | some x => .error x
  | none => eff (wrW c d (f (t + 2) (rdKey c t a) (rdKey c t b))) [rowX c a, rowX c b] (rowsW c d) 1

def cmpKeys (_d a b : Nat) : Nat := if a < b then 2 ^ 32 - 1 else if a = b then 0 else 1
def domKeys (d a b : Nat) : Nat := b2n ((upTo d).all fun i => decide (ax d a i ≤ ax d b i))

def ckInboxOp (t b a d : Nat) : Local := fun c _ =>
  match curveCheck t [a] (some b) false with
  | some x => .error x
  | none => eff (wrW c d (b2n (inBox (t + 2) (rdBox c t b) (rdKey c t a)))) (rowX c a :: boxRows c b) (rowsW c d) 1

/-- ck.next and ck.prev (R152). -/
def ckStepOp (f : Nat → Box → Nat → Option Nat) (m t b a d : Nat) : Local := fun c _ =>
  match curveCheck t [a, d] (some b) false with
  | some x => .error x
  | none =>
    let rd := rowX c a :: boxRows c b
    match f (t + 2) (rdBox c t b) (rdKey c t a) with
    | some k => keyEff c k d m 1 rd 2
    | none => keyEff c (rdKey c t a) d m 0 rd 2

def ckClipOp (m t b a d : Nat) : Local := fun c _ =>
  match curveCheck t [a, d] (some b) false with
  | some x => .error x
  | none =>
    let n := t + 2
    let k := rdKey c t a
    let q := rdBox c t b
    let f (i : Nat) := min (max (ax n k i) (ax n q.1 i)) (ax n q.2 i)
    keyEff c (mkKey n f) d m ((upTo n).foldl (fun o i => o + (if f i = ax n k i then 0 else 2 ^ i)) 0) (rowX c a :: boxRows c b) 1

/-- ck.chk: the unused bits as they stand (R154). -/
def ckChkOp (t a d : Nat) : Local := fun c _ =>
  match curveCheck t [a] none false with
  | some x => .error x
  | none => eff (wrW c d (rdX c a / 2 ^ ((t + 2) * axisBits (t + 2)))) [rowX c a] (rowsW c d) 1

/-- The checks of ck.split on its destination of n runs at a (R156). Where several addresses fail, the trap reports the first 16-byte run in
address order, and the end beyond local memory reports a (DESIGN CHOICE, log 70). -/
def splitTrap (c : Core) (a n : Nat) : Option Trap :=
  if a % 16 ≠ 0 then some (trapOf 3 1 (localInfo c a))
  else if n = 0 then none
  else if (if c.bar then 0x10000 else 0x6000) < a + 16 * n then some (trapOf 4 1 (localInfo c a))
  else (upTo n).findSome? fun i => regionTrap c (a + 16 * i) 16 true

/-- ck.split (R155, R156): runs to local memory, the resume key to xa, MORE and the count to wd. -/
def ckSplitOp (m t b a d : Nat) : Local := fun c _ =>
  match curveCheck t [a] (some b) false with
  | some x => .error x
  | none =>
    let w := rdW c m
    let at_ := if c.bar then w % 2 ^ 16 else w % 2 ^ 15
    let n := fld w 16 16
    match splitTrap c at_ n with
    | some x => .error x
    | none =>
      let k := rdKey c t a
      let q := runsFrom (t + 2) (rdBox c t b) n (firstKey (t + 2) (rdBox c t b) k)
      let count := q.1.length
      let c' := (q.1.foldl (fun (x : Core × Nat) r => (lmWrite (lmWrite x.1 x.2 8 r.1) (x.2 + 8) 8 r.2, x.2 + 16)) (c, at_)).1
      let rows := distinct ((upTo count).map fun i => rowAt (at_ + 16 * i))
      .ok { core := wrW (wrX c' a (q.2.getD k)) d (b2n q.2.isSome * 2 ^ 31 + count),
            rd := rowX c a :: rowW c m :: boxRows c b, wr := rowX c a :: rowsW c d, bank := rows, cost := 4 + rows.length }

/-- vck.add: four keys at once, then the carry masks into mc (R157). -/
def vckAddOp (m t b a d : Nat) : Local := fun c _ =>
  match curveCheck t [] none false with
  | some x => .error x
  | none =>
    let n := t + 2
    let q := (upTo 4).map fun i => keyAdd n false (keyOf n (lane 64 (rdV c a) i)) (keyOf n (lane 64 (rdV c b) i))
    eff (wrM (wrV c d (joinLanes 64 (q.map Prod.fst))) m (joinLanes 8 (q.map Prod.snd))) [rowV c a, rowV c b]
      (rowV c d :: rowsM c m) 1

/-- CK_MK (R148). -/
def execCkMk (m t a d : Nat) (s : State) : Out :=
  runLocal .members 4 (ckMkOp m t a d) s

/-- CK_AX (R149). -/
def execCkAx (t ix a d : Nat) (s : State) : Out :=
  runLocal .members 4 (ckAxOp t ix a d) s

/-- CK_ADD (R150). -/
def execCkAdd (m t b a d : Nat) (s : State) : Out :=
  runLocal .members 4 (ckAddOp false m t b a d) s

/-- CK_SUB (R150). -/
def execCkSub (m t b a d : Nat) (s : State) : Out :=
  runLocal .members 4 (ckAddOp true m t b a d) s

/-- CK_CMP (R151). -/
def execCkCmp (t b a d : Nat) (s : State) : Out :=
  runLocal .members 4 (ckTestOp cmpKeys t b a d) s

/-- CK_DOM (R151). -/
def execCkDom (t b a d : Nat) (s : State) : Out :=
  runLocal .members 4 (ckTestOp domKeys t b a d) s

/-- CK_INBOX (R151). -/
def execCkInbox (t b a d : Nat) (s : State) : Out :=
  runLocal .members 4 (ckInboxOp t b a d) s

/-- CK_NEXT (R152). -/
def execCkNext (m t b a d : Nat) (s : State) : Out :=
  runLocal .members 4 (ckStepOp nextKey m t b a d) s

/-- CK_PREV (R152). -/
def execCkPrev (m t b a d : Nat) (s : State) : Out :=
  runLocal .members 4 (ckStepOp prevKey m t b a d) s

/-- CK_CLIP (R153). -/
def execCkClip (m t b a d : Nat) (s : State) : Out :=
  runLocal .members 4 (ckClipOp m t b a d) s

/-- CK_CHK (R154). -/
def execCkChk (t a d : Nat) (s : State) : Out :=
  runLocal .members 4 (ckChkOp t a d) s

/-- CK_SPLIT (R155). -/
def execCkSplit (m t b a d : Nat) (s : State) : Out :=
  runLocal .members 4 (ordering (ckSplitOp m t b a d)) s

/-- VCK_ADD (R157). -/
def execVckAdd (m t b a d : Nat) (s : State) : Out :=
  runLocal .members 4 (vckAddOp m t b a d) s

end Sys2Proof.Machine
end

