-- ==== Sys2Proof/Machine/Pool.lean ====
section
/-!
DEFINITION. Pool: die pools, sequence counters and the conditions watched on them (08 R168 to R170, R178, R195, 11 R226).
-/

namespace Sys2Proof.Machine

/-- Die and byte offset of a counter address (R166). -/
def ctrDie (a : Nat) : Nat := fld a 26 6
def ctrOff (a : Nat) : Nat := fld a 0 26 * 8

/-- A counter operand names a counter of the domain (R195): its die and its offset are checked, and nothing else; offsets below 0x0040_0000
are let through for unprivileged tasks too (DEDUCED, log 75). -/
def counterOk (d : Domain) (a : Nat) : Bool := dieInDom d (ctrDie a) && decide (ctrOff a < 64 * 2 ^ 20)

def poolRead (s : State) (die off n : Nat) : Nat := Memory.read (dieAt s die).pool off n
def counterWord (s : State) (a : Nat) : Nat := poolRead s (ctrDie a) (ctrOff a) 8

/-- Latency of an access to a pool from a die: at least 40 cycles on the own die (R227); from another die at least 100 (R370). -/
def poolLatency (from_ die : Nat) (s : State) : Nat := if from_ = die then atLeast 40 s else atLeast 100 s

def recOff (idx : Nat) : Nat := idx * 192
def recField (s : State) (die idx off n : Nat) : Nat := poolRead s die (recOff idx + off) n
/-- Level of a record: its priority as it stands (R171, R173). -/
def recPrio (d : Die) (idx : Nat) : Nat := fld (Memory.read d.pool (recOff idx + 4) 1) 0 3
def recNcond (s : State) (die idx : Nat) : Nat := fld (recField s die idx 4 4) 7 3

/-- A record joins the ready ones, the last in order (R172). -/
def becomeReady (die idx : Nat) (may : SigSet) (s : State) : State :=
  let s := updDie s die fun d =>
    let r := Table.get {} d.recs idx
    { d with recs := Table.set d.recs idx { r with st := 3, may := may }
             ready := d.ready ++ [idx] }
  if (Table.get {} (dieAt s die).recs idx).held then selectAt (s.cycle + 1) die s else s

/-- Slots of the domain that wait for a watch entry or a free record look again (R170, R198). -/
def resumeWatchers (die : Nat) (s : State) : State :=
  match domOfDie s die with
  | none => s
  | some m =>
    (coresOfDom s m).foldl (fun s k =>
      (upTo 8).foldl (fun s i =>
        let c := coreOf s k
        if (slotAt c i).blockedIn.isSome && stWait c i == 5 then
          evAt (s.cycle + 1) 1 .watchEntryResume { a := k, b := i } s
        else s) s) s

/-- RESUME of a record in the pool (R166, R201). -/
def setResume (pool : Mem) (idx v : Nat) : Mem := Memory.write pool (recOff idx + 0xB4) 4 v

/-- The condition of a watch is met by a counter word: the entry is freed, and who waits is told (R169, R170, R194). An entry of
pause.w stays until the boundary (R203). -/
def watchMet (w : Watch) (word : Nat) (s : State) : State :=
  match w.kind with
  | 0 =>
    let r := Table.get {} (dieAt s w.die).recs w.a
    let unmet := r.unmet.filter (· != w.b)
    let r := { r with unmet := unmet, err := if bit word 63 then Nat.lor r.err (2 ^ w.b) else r.err }
    let s := updDie s w.die fun d => { d with recs := Table.set d.recs w.a r, pool := if r.park then setResume d.pool w.a r.err else d.pool }
    if unmet.isEmpty ∧ r.st = 2 then becomeReady w.die w.a 0 s else s
  | 1 =>
    let s := updSlot s w.a w.b fun x => { x with wake := true, opA := word }
    evAt (s.cycle + 1 + Config.slack s.free) 0 .ctrWaitWake { a := w.a, b := w.b } (tick s)
  | _ => s

/-- Every watch on the written bytes of a pool is tested (R169). -/
def testWatches (die off n : Nat) (s : State) : State :=
  let hit (w : Watch) : Bool :=
    decide (off < w.off + 8) && decide (w.off < off + n) && w.kind != 2 && counterMet (poolRead s die w.off 8) w.thr
  let met := (dieAt s die).watches.filter hit
  if met.isEmpty then s
  else
    let s := updDie s die fun d => { d with watches := d.watches.filter fun w => !hit w }
    let s := met.foldl (fun s w => watchMet w (poolRead s die w.off 8) s) s
    resumeWatchers die s

/-- Bytes written to a pool, with the conditions watched there and the waits on its sectors (R169, R226, R261). -/
def poolWrite (die off n v : Nat) (s : State) : State :=
  let s := testWatches die off n (updDie s die fun d => { d with pool := Memory.write d.pool off n v })
  (upTo ((off + n + 255) / 256 - off / 256)).foldl (fun s j => wakeWaits (poolBase + die * 2 ^ 26 + (off / 256 + j) * 256) s) s

/-- A device add to a counter, and the error bit (R168). -/
def ctrAdd (a n : Nat) (s : State) : State := poolWrite (ctrDie a) (ctrOff a) 8 (counterAdd (counterWord s a) n) s
def ctrErr (a : Nat) (s : State) : State := poolWrite (ctrDie a) (ctrOff a) 8 (Nat.lor (counterWord s a) (2 ^ 63)) s

/-- Watch entries of a die that are free (R170). -/
def watchRoom (s : State) (die n : Nat) : Bool := decide ((dieAt s die).watches.length + n ≤ Config.watchEntries)

/-- Take a watch entry on the die of a counter (R170). -/
def addWatch (a : Nat) (w : Watch) (s : State) : State :=
  updDie s (ctrDie a) fun d => { d with watches := d.watches ++ [{ w with off := ctrOff a }] }

/-- The entries of a slot are freed, and who waits for one on their die looks again (R170). -/
def dropWatches (k i : Nat) (s : State) : State :=
  let mine (w : Watch) : Bool := w.kind != 0 && w.a == k && w.b == i
  let ds := (s.dies.filter fun x => x.2.watches.any mine).map Prod.fst
  let s := { s with dies := s.dies.map fun x => (x.1, { x.2 with watches := x.2.watches.filter fun w => !mine w }) }
  ds.foldl (fun s d => resumeWatchers d s) s

end Sys2Proof.Machine
end

