-- ==== Sys2Proof/Machine/Signals.lean ====
section
/-!
DEFINITION. Signals: signals and preemption regions (08 R176 to R183, R187, 09 R205 to R209), and completing or trapping a blocked
instruction (R194).
-/

namespace Sys2Proof.Machine

/-- Combine operators of valued signals and their identities (Table 8.6). -/
def combineVal (op a b : Nat) : Nat :=
  match op with
  | 1 => Nat.land a b
  | 2 => (a + b) % 2 ^ 32
  | 3 => if sgn 32 a ≤ sgn 32 b then a else b
  | 4 => if sgn 32 b ≤ sgn 32 a then a else b
  | 5 => min a b
  | 6 => max a b
  | _ => Nat.lor a b
def combineId (op : Nat) : Nat :=
  match op with
  | 1 => 2 ^ 32 - 1
  | 3 => 2 ^ 31 - 1
  | 4 => 2 ^ 31
  | 5 => 2 ^ 32 - 1
  | _ => 0

/-- The set that holds signal n alone. -/
def sigBit (n : Nat) : SigSet := BitVec.ofNat 128 (2 ^ n)

/-- Signal n is a member of a set. -/
def sigIn (s : SigSet) (n : Nat) : Bool := bit s.toNat n

/-- The status of a signal through the latest result: present, absent, or none while it is unresolved (R182). -/
def sigStatus (d : Domain) (n : Nat) : Option Bool :=
  match d.result with
  | none => none
  | some r => if sigIn r.pres n then some true else if sigIn r.maye n then none else some false

/-- The final value of a valued signal, once its MAYE bit is 0 (R183). -/
def sigValue (d : Domain) (n : Nat) : Option Nat :=
  match d.result with
  | none => none
  | some r =>
    let id_ := combineId (nth 0 d.comb n)
    if sigIn r.maye n then none else some (if sigIn r.pres n then Table.get id_ r.val n else id_)

/-- An instruction that blocks: its cost is charged, its PC stays (R194, R406). -/
def blockEff (c : Core) (wait : Nat) (ins : Instr) (rd : List Nat) (cost : Nat) : TrapOr Eff :=
  let i := curSlot c
  .ok { core := block c i wait (some ins), rd := rd, cost := cost, jump := some (slotAt c i).pc }

/-- A register function applied in the workspace of slot i, whichever workspace is current. -/
def inSlot (i : Nat) (f : Core → Core) (c : Core) : Core :=
  { f { c with wsp := BitVec.ofNat 32 (slotBase c i) } with wsp := c.wsp }

/-- A blocked instruction of len bytes completes in this cycle: its destination is written, through the write buffer, and the next
instruction of the task issues no earlier than the following cycle (R193, R194). A deposit names no rows here. -/
def resumeWith (k i len : Nat) (rows : Core → List Nat) (f : Core → Core) (s : State) : State :=
  let s := updCore s k fun c =>
    let c := lateRows (inSlot i f c) s.cycle (rows { c with wsp := BitVec.ofNat 32 (slotBase c i) })
    let x := slotAt c i
    setSlot c i { x with pc := (x.pc + len) % 2 ^ 32 }
  makeRunnable k i (s.cycle + 1) s

/-- The same where what completes it comes from another core or unit (R271, log 61). -/
def completeWait (k i len : Nat) (rows : Core → List Nat) (f : Core → Core) (s : State) : State := resumeWith k i len rows f (updCore s k l1Heard)

/-- The n cycles that an instruction costs once what it waited for is there fall at its wake (R330). -/
def payWake (k n : Nat) (s : State) : State := updCore s k fun c => { c with busy := max c.busy s.cycle + n }

/-- A task that waits takes a trap instead: it is delivered as soon as the core can take it (R338). While a handler runs, a trap of its own slot,
which holds no task, contains the domain, whatever TVEC names by then (R335, R352). -/
def trapSlot (k i : Nat) (t : Trap) (report : SigSet) (s : State) : State :=
  let s := dropWatches k i (updSlot s k i fun x => { x with trap := some t, report := report, wake := false, blockedIn := none, check := 0 })
  let c := coreOf s k
  if handlerSlot c i || (c.serving.isSome && !(slotAt c i).live) then takeTrap k i t 0 report s
  else evAt (max s.cycle c.busy) 0 .pendingTrap { a := k } s

/-- emit and emit.v (R179, R205, R206). v is the value, none for a plain emit; it is folded with the signal's operator. -/
def emitOp (d : Domain) (n : Nat) (a : Option Nat) : Local := fun c _ =>
  let i := curSlot c
  if 128 ≤ n ∨ (a.isSome ∧ 16 ≤ n) then .error (illeg 4)
  else if !bit (emsetEff c i) n then .error (trapOf 7 2 0)
  else if !sigIn (slotAt c i).may n then .error (trapOf 7 3 0)
  else
    let op := nth 0 d.comb n
    let c := { c with pres := c.pres ||| sigBit n }
    match a with
    | none => eff c [] [] 1
    | some a =>
      let old := Table.get (combineId op) c.val n
      eff { c with val := Table.set c.val n (combineVal op old (rdW c a)) } [rowW c a] [] 1

/-- test (R182, R205, R208). -/
def testOp (d : Domain) (n dd : Nat) : Local := fun c _ =>
  if 128 ≤ n then .error (illeg 4)
  else match sigStatus d n with
    | some p => eff (wrW (l1Heard c) dd (b2n p)) [] (rowsW c dd) 1
    | none => blockEff c 0 (.test n dd) [] 1

/-- tval (R183, R205, R208). -/
def tvalOp (d : Domain) (n dd : Nat) : Local := fun c _ =>
  if 16 ≤ n then .error (illeg 4)
  else match sigValue d n with
    | some v => eff (wrW (l1Heard c) dd v) [] (rowsW c dd) 1
    | none => blockEff c 0 (.tval n dd) [] 1

/-- cant and cant.all clear bits of MAYEMIT (R205, R207). -/
def cantOp (keep : SigSet) (bad : Bool) : Local := fun c _ =>
  if bad then .error (illeg 4)
  else let i := curSlot c; let x := slotAt c i; eff (setSlot c i { x with may := x.may &&& keep }) [] [] 1

/-! Regions (R187, R209). -/

/-- The words of a region entry (Table 8.9). -/
def regionAt (c : Core) (i e : Nat) : Nat := lmRead c (slotBase c i + offRegion + 8 * e) 8
def regionKind (w : Nat) : Nat := fld w 12 2
def regionSig (w : Nat) : Nat := fld w 0 7
def regionArmed (w : Nat) : Bool := bit w 15
def regionHandler (w : Nat) : Nat := fld w 32 32

/-- enter(kind, signal, handler) (R209). -/
def enterRegion (kind n h : Nat) (rd : List Nat) : Core → TrapOr Eff := fun c =>
  let i := curSlot c
  let e := stDepth c i
  if 128 ≤ n then .error (illeg 4)
  else if kind ≠ 2 ∧ h % 2 ≠ 0 then .error (trapOf 3 2 h)
  else if 8 ≤ e then .error (trapOf 13 1 0)
  else
    let at_ := slotBase c i + offRegion + 8 * e
    eff (setSt (lmWrite c at_ 8 (h * 2 ^ 32 + kind * 2 ^ 12 + n)) i 10 4 (e + 1)) rd [rowAt at_] 1

/-- rg.end (R209). -/
def rgEndOp : Local := fun c _ =>
  let i := curSlot c
  if stDepth c i = 0 then .error (illeg 4) else eff (setSt c i 10 4 (stDepth c i - 1)) [] [] 1

/-- EMIT (R206). -/
def execEmit (n : Nat) (s : State) : Out :=
  runLocal .nobody 4 (emitOp (theDom s s.cur) n none) s

/-- EMIT_16 (R72). -/
def execEmit16 (n : Nat) (s : State) : Out :=
  runLocal .nobody 2 (emitOp (theDom s s.cur) n none) s

/-- EMIT_V (R206). -/
def execEmitV (n a : Nat) (s : State) : Out :=
  runLocal .nobody 4 (emitOp (theDom s s.cur) n (some a)) s

/-- TEST (R208). -/
def execTest (n d : Nat) (s : State) : Out :=
  runLocal .nobody 4 (testOp (theDom s s.cur) n d) s

/-- TVAL (R208). -/
def execTval (n d : Nat) (s : State) : Out :=
  runLocal .nobody 4 (tvalOp (theDom s s.cur) n d) s

/-- CANT (R207). -/
def execCant (n : Nat) (s : State) : Out :=
  runLocal .nobody 4 (cantOp (~~~ sigBit n) (decide (128 ≤ n))) s

/-- CANT_ALL (R205). -/
def execCantAll (s : State) : Out :=
  runLocal .nobody 4 (cantOp 0 false) s

/-- RG_ABORT (R209). -/
def execRgAbort (n a : Nat) (s : State) : Out :=
  runLocal .nobody 4 (fun c _ => enterRegion 0 n (rdW c a) [rowW c a] c) s

/-- RG_ABORTS (R209). -/
def execRgAborts (n a : Nat) (s : State) : Out :=
  runLocal .nobody 4 (fun c _ => enterRegion 1 n (rdW c a) [rowW c a] c) s

/-- RG_SUSP (R209). -/
def execRgSusp (n : Nat) (s : State) : Out :=
  runLocal .nobody 4 (fun c _ => enterRegion 2 n 0 [] c) s

/-- RG_END (R209). -/
def execRgEnd (s : State) : Out :=
  runLocal .nobody 4 (rgEndOp) s

end Sys2Proof.Machine
end

