-- ==== Sys2Proof/Machine/Tasks.lean ====
section
/-!
DEFINITION. Tasks: continuation records, the distributor, and the instructions that create, park, pause and end tasks or wait on counters
(08 R161 to R174, 09 R193 to R204, R216).
-/

namespace Sys2Proof.Machine

/-! Records in the pool (R166). -/

/-- Cores of an affinity level; 0 for a level that does not exist (Table 8.4). -/
def levelCores (lv : Nat) : Nat :=
  match lv with
  | 0 => 1
  | 1 => 8
  | 2 => 128
  | 3 => 512
  | 4 => 16384
  | _ => 0

/-- Fields of a record, from its 192 bytes (Table 8.4). -/
def imgFld (m : Mem) (off n : Nat) : Nat := Memory.read m off n
def imgPrio (m : Mem) : Nat := fld (imgFld m 4 4) 0 3
def imgPriv (m : Mem) : Bool := bit (imgFld m 4 4) 3
def imgDims (m : Mem) : Nat := fld (imgFld m 4 4) 4 3
def imgNcond (m : Mem) : Nat := fld (imgFld m 4 4) 7 3
def imgNlive (m : Mem) : Nat := fld (imgFld m 4 4) 10 5
def imgLevel (m : Mem) : Nat := fld (imgFld m 8 4) 0 3
def imgUnit (m : Mem) : Nat := fld (imgFld m 8 4) 8 24
def imgFirst (m : Mem) : Nat := imgUnit m * levelCores (imgLevel m)
def imgDie (m : Mem) : Nat := dieOfCore (imgFirst m)
def imgCtr (m : Mem) (j : Nat) : Nat := imgFld m (0x30 + 16 * j) 4
def imgThr (m : Mem) (j : Nat) : Nat := imgFld m (0x38 + 16 * j) 8

/-- The EMSET of a record as it acts (R176). -/
def imgEmset (m : Mem) : Nat := let e := imgFld m 0x20 16; if imgPriv m then e else e % 2 ^ 120

/-- The record that a record area holds. -/
def recImg (s : State) (die idx : Nat) : Mem := Memory.slice (dieAt s die).pool (recOff idx) (recOff idx + 192)

/-- The 192 bytes from a local address. -/
def readImage (c : Core) (a : Nat) : Mem := Memory.slice c.lm a (a + 192)

/-- The image lies on a row, wholly in regions that permit loads (R197). -/
def imagePlace (c : Core) (a : Nat) : Option Trap :=
  if a % 32 ≠ 0 then some (trapOf 3 1 (localInfo c a))
  else (upTo 6).findSome? fun j => regionTrap c (a + 32 * j) 32 false

/-- The fields that spawn and park both take from an image are valid (R197, R200). -/
def imageFields (d : Domain) (m : Mem) : Bool :=
  levelCores (imgLevel m) != 0 && dieInDom d (imgDie m) && decide (imgNcond m ≤ 4) && decide (imgNlive m ≤ 16) &&
  (upTo (imgNcond m)).all fun j => counterOk d (imgCtr m j)

/-- The checks of an image (R197). -/
def imageTrap (d : Domain) (c : Core) (a : Nat) : Option Trap :=
  match imagePlace c a with
  | some t => some t
  | none =>
    let m := readImage c a
    if !imageFields d m || (imgDims m == 7 && imgFld m 0x10 8 != 0) then some (illeg 4)
    else if imgPriv m && !isPriv c then some (trapOf 8 3 0)
    else none

/-- A record as the device writes it: reserved fields, bypass count and RESUME zero (R197). -/
def cleanImage (m : Mem) : Mem :=
  let m := Memory.write m 4 4 (imgFld m 4 4 % 2 ^ 15)
  let m := Memory.write m 8 4 (setFld (imgFld m 8 4) 3 5 0)
  let m := (upTo 4).foldl (fun m j =>
    Memory.write (Memory.write m (0x34 + 16 * j) 4 0) (0x38 + 16 * j) 8 (imgThr m j % 2 ^ 63)) m
  Memory.write m 0xB4 12 0

/-- The record image of a spawn: EMSET bits 120 to 127 are zero for an unprivileged spawner (R197). -/
def spawnImage (c : Core) (m : Mem) : Mem :=
  let m := cleanImage m
  if isPriv c then m else Memory.write m 0x20 16 (imgFld m 0x20 16 % 2 ^ 120)

/-- The record of a park (R200): CTL priority, NCOND, NLIVE, AFFINITY, HINT and conditions from the image, the rest from the task. LIVE words
at and above NLIVE keep the image's bytes (DESIGN CHOICE, log 74). -/
def parkImage (c : Core) (pc : Nat) (m : Mem) : Mem :=
  let i := curSlot c
  let ctl := imgPrio m + b2n (stPriv c i) * 2 ^ 3 + stDims c i * 2 ^ 4 + imgNcond m * 2 ^ 7 + imgNlive m * 2 ^ 10
  let m := Memory.write m 0 4 pc
  let m := Memory.write m 4 4 ctl
  let m := Memory.write m 0x0C 4 (slotAt c i).task
  let m := Memory.write m 0x10 8 (slotAt c i).tile
  let m := Memory.write m 0x20 16 (emset c i)
  let m := (upTo 16).foldl (fun m j => if j < imgNlive m then Memory.write m (0x70 + 4 * j) 4 (rdW c j) else m) m
  cleanImage (Memory.write m 0xB0 4 (lmRead c (wsBase c + offFmode) 4))

/-! Writing a record (R198). -/

/-- A record of the area that is free, searched from a place the manual leaves open (log 2). -/
def freeRec (d : Die) (from_ : Nat) : Nat :=
  let used := d.recs.length
  ((upTo (used + 1)).map fun j => (from_ + j) % Config.records).find? (fun j => (Table.find d.recs j).isNone) |>.getD 0

/-- Conditions of an image that the counters do not meet. -/
def unmetConds (s : State) (m : Mem) : List Nat :=
  (upTo (imgNcond m)).filter fun j => !counterMet (counterWord s (imgCtr m j)) (imgThr m j)

/-- Records and watch entries suffice for n records of an image (R170, R198). -/
def recordRoom (s : State) (m : Mem) (n : Nat) : Bool :=
  decide ((dieAt s (imgDie m)).recs.length + n ≤ Config.records) &&
  let un := unmetConds s m
  (upTo Config.dies).all fun d => watchRoom s d (n * un.countP fun j => ctrDie (imgCtr m j) == d)

/-- One record is written (R198), of a co-launched set (first core, size, number) or of none; RESUME of a park's record names the conditions
met by a set ERR bit (R201). Its spawn or park is instant-bound until RECORD_HELD, which comes 40 to 64 cycles after a cycle. -/
def writeRecord (m : Mem) (may : SigSet) (park : Bool) (k setBase setSize set_ after : Nat) (s : State) : State :=
  let die := imgDie m
  let idx := freeRec (dieAt s die) (Config.pick s.free)
  let un := unmetConds s m
  let err := (upTo (imgNcond m)).foldl (fun e j => if bit (counterWord s (imgCtr m j)) 63 then e + 2 ^ j else e) 0
  let t := after + between 40 64 (tick s)
  let m := if park then Memory.write m 0xB4 4 err else m
  let s := poolWrite die (recOff idx) 192 (imgFld m 0 192) (tick (tick s))
  let s := updDie s die fun d =>
    { d with recs := Table.set d.recs idx { st := 2, unmet := un, err := err, park := park, from_ := k, setBase := setBase, setSize := setSize, set_ := set_ } }
  let s := un.foldl (fun s j => addWatch (imgCtr m j) { thr := imgThr m j, kind := 0, die := die, a := idx, b := j } s) s
  let s := updCore s k fun c => { c with bound := c.bound + 1 }
  let s := if un.isEmpty then becomeReady die idx may s else s
  evAt t 0 .recordHeld { a := die, b := idx } s

/-- A new task number (R163). -/
def newTask (s : State) (k : Nat) : Nat := (theDom s k).nextTask
def takeTasks (k n : Nat) (s : State) : State :=
  match domOf s k with
  | none => s
  | some m => updDom s m fun d => { d with nextTask := (d.nextTask + n) % 2 ^ 32 }

/-- May-emit mask of a record that a spawn makes ready (R178). -/
def spawnMay (c : Core) (i : Nat) (m : Mem) : SigSet := BitVec.ofNat 128 (imgEmset m) &&& (slotAt c i).may

/-- The record of the spawn of slot i of core k, with its task number (R197). -/
def spawnRecord (s : State) (k i : Nat) : Mem := Memory.write (slotAt (coreOf s k) i).img 0x0C 4 (newTask s k)

/-- There is room for the record of the spawn of slot i of core k (R198). -/
def spawnRoom (s : State) (k i : Nat) : Bool := recordRoom s (spawnRecord s k i) 1

/-- The record of the spawn of slot i of core k is written; it is held some 40 cycles after a cycle (R197, R198). -/
def spawnWrites (k i after : Nat) (s : State) : State :=
  let m := spawnRecord s k i
  writeRecord m (spawnMay (coreOf s k) i m) false k 0 0 0 after (takeTasks k 1 s)

/-- Core of record m of a box of n keys placed on c cores from base (R199). -/
def boxCore (base c n m : Nat) : Nat := base + m * c / n

/-- The record of a key of a box (R199). -/
def boxImage (m : Mem) (core dims tile task : Nat) : Mem :=
  let m := Memory.write m 4 4 (setFld (imgFld m 4 4) 4 3 dims)
  let m := Memory.write m 8 4 (core * 2 ^ 8)
  Memory.write (Memory.write m 0x0C 4 task) 0x10 8 tile

/-- The records of a spawn.box still to be written, as far as there is room; opA holds n, opB the place of the next (R199). -/
def boxSteps (k i dims after : Nat) : Nat → State → State
  | 0, s => s
  | fuel + 1, s =>
    let c := coreOf s k
    let x := slotAt c i
    match x.keys with
    | [] => s
    | (key, task) :: ks =>
      let m := boxImage x.img (boxCore (imgFirst x.img) (levelCores (imgLevel x.img)) x.opA x.opB) dims key task
      if recordRoom s m 1 then
        let s := writeRecord m (spawnMay c i m) false k 0 0 0 after s
        boxSteps k i dims after fuel (updSlot s k i fun x => { x with keys := ks, opB := x.opB + 1 })
      else s

/-- The records of a co-launched set, all together (R199, R174). -/
def boxSet (k i dims after : Nat) (s : State) : State :=
  let x := slotAt (coreOf s k) i
  let base := imgFirst x.img
  let set_ := freshId s
  let s := x.keys.foldl (fun s (q : Nat × Nat) =>
    let y := slotAt (coreOf s k) i
    let m := boxImage x.img (boxCore base x.opA x.opA y.opB) dims q.1 q.2
    updSlot (writeRecord m (spawnMay (coreOf s k) i m) false k base x.opA set_.1 after s) k i fun x => { x with opB := x.opB + 1 }) set_.2
  updSlot s k i fun x => { x with keys := [] }

/-- A spawn.box goes on as far as it can (R199). -/
def tryBox (k i dims after : Nat) (co : Bool) (s : State) : State :=
  let x := slotAt (coreOf s k) i
  if co then
    if recordRoom s x.img x.keys.length then boxSet k i dims after s else s
  else boxSteps k i dims after x.keys.length s

/-! Slots. -/

/-- The queues that slot i owns are free for the next task that polls them (R220). -/
def dropQueues (c : Core) (i : Nat) : Core :=
  { c with queues := c.queues.map fun q => if q.owner = some i then { q with owner := none } else q }

/-- The slot is free to the distributor from the next cycle (R171). Its status word reads halted, so that an image tells it from a slot that
holds a task (log 8). -/
def freeSlot (k i : Nat) (s : State) : State :=
  let s := updCore s k fun c => setSlot (setSt c i 0 3 stHalted) i {}
  if isBarista k then s else selectAt (s.cycle + 1) (dieOfCore k) s

/-- The task of slot i is halted (R202): its slot is freed at once if nothing is outstanding. -/
def haltSlot (k i : Nat) (s : State) : State :=
  let s := updCore s k fun c => setSlot (setSt (setSt (dropQueues c i) i 0 3 stHalted) i 3 3 0) i
    { slotAt c i with may := 0, blockedIn := none, trap := none }
  if (slotAt (coreOf s k) i).outst = 0 then freeSlot k i s else s

/-- An operation into the workspace of slot i ends (R200, R202). -/
def opEnds (k i : Nat) (s : State) : State :=
  let s := updSlot s k i fun x => { x with outst := x.outst - 1 }
  let c := coreOf s k
  if (slotAt c i).live && stState c i == stHalted && (slotAt c i).outst == 0 then evAt s.cycle 3 .slotFreeAfterDrain { a := k, b := i } s else s

/-- There is room for the record of the park of slot i of core k (R200). -/
def parkRoom (s : State) (k i : Nat) : Bool := recordRoom s (slotAt (coreOf s k) i).img 1

/-- The park of slot i of core k writes its record and frees the slot (R200). -/
def parkWrites (k i after : Nat) (s : State) : State :=
  freeSlot k i (updCore (writeRecord (slotAt (coreOf s k) i).img 0 true k 0 0 0 after s) k fun c => dropQueues c i)

/-- The pause.w of slot i takes its watch entry and pauses, if an entry is free (R203). -/
def tryPauseW (k i : Nat) (s : State) : Option State :=
  let x := slotAt (coreOf s k) i
  if watchRoom s (ctrDie x.opA) 1 then
    let s := addWatch x.opA { thr := x.opB, kind := 2, a := k, b := i } s
    some (updCore s k fun c => setSlot (setSt (setSt c i 0 3 stPaused) i 3 3 0) i
      { slotAt c i with pauseW := true, pauseMet := false, may := 0, blockedIn := none, wake := false })
  else none

/-- A mark of an image, in the WAIT field of a paused or frozen task, which Table 8.1 leaves without a meaning there: the task waits in pause.w (2),
and its condition held at the boundary (6) (R203, log 8). -/
def pauseMark (x : Slot) : Nat := if x.pauseW then (if x.pauseMet then 6 else 2) else 0

/-- Slot i of a core as an image has it: the PC save, and the mark of a task in pause.w (R30, R341, R351, log 8). -/
def savedSlot (i : Nat) (c : Core) : Core :=
  let x := slotAt c i
  let c := bankWrite c (slotBase c i + offPcSave) 4 x.pc
  if stState c i = stPaused ∨ stState c i = stFrozen then setSt c i 3 3 (pauseMark x) else c

/-- The task of a slot that an image has filled waits in pause.w again if it is marked so, with the operands of the instruction at its PC, where a
watch entry is free; else it comes to its pause.w again (R203, log 8). -/
def resumePauseW (k i : Nat) (s : State) : State :=
  let c := coreOf s k
  let x := slotAt c i
  let mark := stWait c i
  if stState c i ≠ stPaused ∧ stState c i ≠ stFrozen then s
  else
    let s := updCore s k fun c => setSt c i 3 3 0
    let w := imageWord (imageOf s k) x.pc
    let here : Core := { c with wsp := BitVec.ofNat 32 (slotBase c i) }
    match decodeWord (8 * w.1) w.2 with
    | .ok (.pauseW a d) =>
      if (mark = 2 ∨ mark = 6) ∧ watchRoom s (ctrDie (rdW here a)) 1 then
        addWatch (rdW here a) { thr := rdX here d, kind := 2, a := k, b := i }
          (updSlot s k i fun x => { x with pauseW := true, pauseMet := decide (mark = 6), opA := rdW here a, opB := rdX here d })
      else s
    | _ => s

/-- The ctr.wait of slot i, with a counter value at hand (R216): it completes, takes a watch entry, or waits for one with WAIT 5. -/
def tryCtrWait (k i d : Nat) (s : State) : State :=
  let x := slotAt (coreOf s k) i
  let v := counterWord s x.opA
  if counterMet v x.opB then completeWait k i 4 (fun c => [rowX c d]) (fun c => wrX c d v) s
  else if watchRoom s (ctrDie x.opA) 1 then
    updCore (addWatch x.opA { thr := x.opB, kind := 1, a := k, b := i } s) k fun c => setSt c i 3 3 2
  else updCore s k fun c => setSt c i 3 3 5

/-! The instructions of major 0x11 (R197 to R204). -/

/-- The current task blocks in an instruction with a WAIT code; its operands are kept. -/
def blockIn (ins : Instr) (wait cost : Nat) (rd : List Nat) (keep : Slot → Slot) (s : State) : State :=
  complete 4 (fun c =>
    let i := curSlot c
    let c := block c i wait (some ins)
    { core := setSlot c i (keep (slotAt c i)), rd := rd, cost := cost, jump := some (slotAt c i).pc }) s

def spawnAct (a d : Nat) (s : State) : State :=
  let k := s.cur
  let c := coreOf s k
  let i := curSlot c
  let img := spawnImage c (readImage c (rdW c a))
  let s1 := updSlot s k i fun x => { x with img := img }
  if spawnRoom s1 k i then
    let n := newTask s k
    let s2 := complete 4 (fun c => { core := wrW c d n, rd := [rowW c a], wr := rowsW c d, cost := 8 }) s1
    spawnWrites k i (coreOf s2 k).busy s2
  else blockIn (.spawn a d) 5 8 [rowW c a] id (updCore s1 k fun c => { c with bound := c.bound + 1 })

/-- The keys of a box, at most n of them. -/
def boxKeys (c : Core) (t b n : Nat) : List Nat :=
  let box := rdBox c t b
  keysFrom (t + 2) box n (firstKey (t + 2) box 0)

def boxTrap (d : Domain) (f co b a : Nat) (c : Core) : Option Trap :=
  if f = 7 ∨ b = 7 then some (illeg 4)
  else match imageTrap d c (rdW c a) with
    | some t => some t
    | none =>
      let m := readImage c (rdW c a)
      let n := (boxKeys c f b 65537).length
      if imgLevel m ≠ 2 ∧ imgLevel m ≠ 3 then some (illeg 4)
      else if 65536 < n ∨ (co = 1 ∧ n ≠ levelCores (imgLevel m)) then some (illeg 4)
      else none

/-- spawn.box. The 40 to 64 cycles of its records count from the end of its cost: R198 counts from the completion, which a blocked spawn.box with
CO = 0 has not reached when R199 has its first records written, so that those count from issue + 8 + n + E + F and the later ones from the wake that
writes them (DESIGN CHOICE, log 84). -/
def boxAct (f co b a d : Nat) (s : State) : State :=
  let k := s.cur
  let c := coreOf s k
  let i := curSlot c
  let ks := boxKeys c f b 65537
  let n := ks.length
  let t0 := newTask s k
  let keys := (ks.zip (upTo n)).map fun q => (q.1, (t0 + q.2) % 2 ^ 32)
  let img := spawnImage c (readImage c (rdW c a))
  let rd := [rowW c a, rowX c b, rowX c (b + 1)]
  let s := takeTasks k n (updSlot s k i fun x => { x with img := img, keys := keys, opA := n, opB := 0 })
  let whole (c : Core) : Eff := { core := wrW c d n, rd := rd, wr := rowsW c d, cost := 8 + n }
  let s := tryBox k i f (s.cycle + (finish s.cycle 4 (whole (coreOf s k))).2) (decide (co = 1)) s
  if (slotAt (coreOf s k) i).keys.isEmpty then complete 4 whole s
  else blockIn (.spawnBox f co b a d) 5 (8 + n) rd id (updCore s k fun c => { c with bound := c.bound + 1 })

def parkTrap (d : Domain) (a : Nat) (c : Core) : Option Trap :=
  let i := curSlot c
  if stDepth c i ≠ 0 then some (trapOf 13 2 0)
  else if (slotAt c i).outst ≠ 0 then some (trapOf 11 1 0)
  else match imagePlace c (rdW c a) with
    | some t => some t
    | none => if imageFields d (readImage c (rdW c a)) then none else some (illeg 4)

def parkAct (a d : Nat) (s : State) : State :=
  let k := s.cur
  let c := coreOf s k
  let i := curSlot c
  let img := parkImage c ((insPc c + 4) % 2 ^ 32) (readImage c (rdW c a))
  let rows := rowW c a :: ((upTo (imgNlive img)).drop 1).map (rowW c)
  let s1 := updSlot s k i fun x => { x with img := img }
  if parkRoom s1 k i then
    let s2 := complete 4 (fun c => { core := c, rd := rows, cost := 8, jump := some 0 }) s1
    parkWrites k i (coreOf s2 k).busy s2
  else blockIn (.park a d) 5 8 rows id (updCore s1 k fun c => { c with bound := c.bound + 1 })

/-- pause: the task's part of the instant ends (R202). -/
def pauseEff (c : Core) : Core := let i := curSlot c; setSlot (setSt c i 0 3 stPaused) i { slotAt c i with may := 0 }
def pauseOp : Local := fun c _ => eff (pauseEff c) [] [] 1

/-- halt: PC and cost, then the slot (R202). -/
def haltAct (len : Nat) (s : State) : State :=
  let i := curSlot (coreOf s s.cur)
  haltSlot s.cur i (complete len (fun c => { core := c }) s)

/-- yield ends the turn; with no other runnable task the core issues nothing in the next 2 cycles (R204). -/
def yieldOp : Local := fun c _ =>
  let alone := (upTo 8).all fun i => i == curSlot c || !canRun c i
  .ok { core := c, post := fun c => if alone then { c with busy := c.busy + 2 } else c }

/-- A counter operand (R195). -/
def ctrTrap (s : State) (a d : Nat) (c : Core) (_pc : Nat) : Option Trap :=
  if 8 ≤ d then some (illeg 2) else if counterOk (theDom s s.cur) (rdW c a) then none else some (illeg 4)

def pauseWAct (a d : Nat) (s : State) : State :=
  let k := s.cur
  let c := coreOf s k
  let i := curSlot c
  let rd := [rowW c a, rowX c d]
  if counterMet (counterWord s (rdW c a)) (rdX c d) then complete 4 (fun c => { core := l1Heard c, rd := rd, cost := 2 }) s
  else
    let keep (x : Slot) : Slot := { x with opA := rdW c a, opB := rdX c d }
    match tryPauseW k i (updSlot s k i keep) with
    | some s => complete 4 (fun c => { core := c, rd := rd, cost := 2, jump := some (slotAt c i).pc }) (updSlot s k i fun x => { x with blockedIn := some (.pauseW a d) })
    | none => blockIn (.pauseW a d) 5 2 rd keep s

/-- ctr.wait blocks until the counter's value returns (R216). -/
def ctrWaitAct (a d : Nat) (s : State) : State :=
  let k := s.cur
  let c := coreOf s k
  let i := curSlot c
  let at_ := rdW c a
  let t := s.cycle + poolLatency (dieOfCore k) (ctrDie at_) s
  let s := blockIn (.ctrWait a d) 2 2 [rowW c a, rowX c d] (fun x => { x with opA := at_, opB := rdX c d }) (tick s)
  evAt t 0 .ctrReadReturn { a := k, b := i } (updCore s k fun c => { c with bound := c.bound + 1 })

/-- The core's contribution of a blocked spawn, spawn.box or park ends; its records carry their own. -/
def unbind (k : Nat) (s : State) : State := updCore s k fun c => { c with bound := c.bound - 1 }

/-- A task that waits for a record or a watch entry looks again (R170, R198). -/
def resumeWait5 (k i : Nat) (s : State) : State :=
  let c := coreOf s k
  let x := slotAt c i
  if stWait c i ≠ 5 then s
  else match x.blockedIn with
    | some (.spawn _ d) =>
      if spawnRoom s k i then
        let n := newTask s k
        unbind k (completeWait k i 4 (fun c => rowsW c d) (fun c => wrW c d n) (spawnWrites k i s.cycle s))
      else s
    | some (.spawnBox f co _ _ d) =>
      let s := tryBox k i f s.cycle (decide (co = 1)) s
      let x := slotAt (coreOf s k) i
      if x.keys.isEmpty then unbind k (completeWait k i 4 (fun c => rowsW c d) (fun c => wrW c d x.opA) s) else s
    | some (.park _ _) => if parkRoom s k i then unbind k (parkWrites k i s.cycle s) else s
    | some (.pauseW _ _) =>
      match tryPauseW k i s with
      | some s => updSlot s k i fun y => { y with blockedIn := x.blockedIn }
      | none => s
    | some (.ctrWait _ d) => tryCtrWait k i d s
    | _ => s

/-! The distributor (R171 to R174). -/

/-- Slots of a core that the distributor may bind to: neither the handler slot nor one in which a handler still runs (R24, R171, R334). -/
def freeSlots (c : Core) : List Nat :=
  (upTo (slotCount c)).filter fun i =>
    !(slotAt c i).live && !(slotAt c i).reserved && !(tvecEn c && slotBase c i == tvecBase c) && !handlerSlot c i

/-- The cores from base that may differ in their slots: those in use and one of the others. -/
def candidateCores (s : State) (base n : Nat) : List Nat :=
  let used := (s.cores.filter fun q => decide (base ≤ q.1) && decide (q.1 < base + n)).map Prod.fst
  let rest := ((upTo (used.length + 1)).map (base + ·)).filter fun k => decide (k < base + n) && !used.contains k
  used ++ rest.take 1

/-- The core with the most free slots, the lowest on a tie; none without a free slot (R171). -/
def bestCore (s : State) (base n : Nat) : Option Nat :=
  (candidateCores s base n).foldl (fun b k =>
    let f := (freeSlots (coreOf s k)).length
    match b with
    | none => if f = 0 then none else some k
    | some j => let g := (freeSlots (coreOf s j)).length; if g < f ∨ (g = f ∧ k < j) then some k else b) none

/-- The records of a co-launched set that are ready and held, by the number of the set. -/
def setReady (d : Die) (set_ : Nat) : List Nat :=
  (d.recs.filter fun q => q.2.setSize != 0 && q.2.set_ == set_ && q.2.st == 3 && q.2.held).map Prod.fst

/-- The records of a set form one group: the first n of its records in the order of their cores. -/
def setCores (s : State) (die : Nat) (rs : List Nat) : List Nat := rs.map fun j => imgFirst (recImg s die j)

/-- A ready record can be placed now (R171); a co-launched set when every core of it has a free slot (R174). -/
def placeable (s : State) (die idx : Nat) : Bool :=
  let d := dieAt s die
  let r := Table.get {} d.recs idx
  if !r.held then false
  else if r.setSize = 0 then
    let m := recImg s die idx
    (bestCore s (imgFirst m) (levelCores (imgLevel m))).isSome
  else
    let cs := setCores s die (setReady d r.set_)
    (upTo r.setSize).all fun j => cs.contains (r.setBase + j) && !(freeSlots (coreOf s (r.setBase + j))).isEmpty

/-- The physical address of a virtual one through the second-level TLB of a die alone (R172). -/
def tlbProbe (d : Die) (va : Nat) : Option Nat :=
  (d.tlb.find? fun t => decide (t.va ≤ va) && decide (va < t.va + t.size)).map fun t => t.frame + (va - t.va)

/-- The HINT of a record hits the L2 of the die (R172). -/
def hintHits (s : State) (die idx : Nat) : Bool :=
  let h := recField s die idx 0x18 8
  let d := dieAt s die
  h != 0 && match tlbProbe d h with
    | none => false
    | some pa => decide (pa < 3 * 2 ^ 40) && (Table.find d.l2 (pa / 1024)).any fun l => l.valid != 0

def recBypass (s : State) (die idx : Nat) : Nat := fld (recField s die idx 4 4) 15 4
def bumpBypass (die idx : Nat) (s : State) : State :=
  let ctl := recField s die idx 4 4
  poolWrite die (recOff idx + 4) 4 (setFld ctl 15 4 (min 8 (fld ctl 15 4 + 1))) s

/-- The placeable records that may be selected: up to the oldest whose bypass count has reached 8 (R172). -/
def notBehind (s : State) (die : Nat) : List Nat → List Nat
  | [] => []
  | j :: js => if 8 ≤ recBypass s die j then [j] else j :: notBehind s die js

/-- The record selected from the 8 oldest placeable records of a level (R172). -/
def choose (s : State) (die : Nat) (pl : List Nat) : Option Nat :=
  let cs := notBehind s die pl
  match cs.find? (hintHits s die) with
  | some j => some j
  | none => cs.head?

/-- The ready records of a level, oldest first: those whose priority it is now (R171 to R173). -/
def levelReady (d : Die) (lv : Nat) : List Nat := d.ready.filter fun j => recPrio d j == lv

/-- The first n elements of a list that a test accepts. -/
def firstFew (p : Nat → Bool) : Nat → List Nat → List Nat
  | 0, _ => []
  | _, [] => []
  | n + 1, j :: js => if p j then j :: firstFew p n js else firstFew p (n + 1) js

/-- The level that a selection takes from, with its 8 oldest placeable records, among which it chooses (R171, R172): each ready record stands at
the priority it has now (R173). -/
def selectLevel (s : State) (die : Nat) : Option (Nat × List Nat) :=
  let rs := (dieAt s die).ready.map fun j => (recPrio (dieAt s die) j, j)
  (upTo 8).findSome? fun lv =>
    match firstFew (placeable s die) 8 ((rs.filter fun q => q.1 == lv).map Prod.snd) with
    | [] => none
    | pl => some (lv, pl)

/-- Records leave the ready list: they are selected, at the priority of a level (R173). -/
def takeReady (die lv : Nat) (js : List Nat) (s : State) : State :=
  updDie s die fun d =>
    let recs := js.foldl (fun t j => Table.set t j { Table.get {} t j with st := 4, prio := lv }) d.recs
    { d with recs := recs, ready := d.ready.filter fun j => !js.contains j }

/-- Reserve a free slot of core k; which one the manual leaves open (log 2). -/
def reserveSlot (k : Nat) (s : State) : State × Nat :=
  let fs := freeSlots (coreOf s k)
  let i := nth 0 fs (Config.pick s.free % max 1 fs.length)
  (updSlot (tick s) k i fun x => { x with reserved := true }, i)

/-- The domain of a die is held: its distributor selects and binds nothing (R350). -/
def dieHeld (s : State) (die : Nat) : Bool := match domOfDie s die with | some m => (domAt s m).held | none => false

/-- A record of the die is selected and not bound yet. -/
def selecting (d : Die) : Bool := d.recs.any fun q => q.2.st == 4

/-- Record j is selected for slot i. -/
def setPlace (die j i : Nat) (s : State) : State :=
  updDie s die fun d => { d with recs := Table.set d.recs j { Table.get {} d.recs j with slot := i } }

/-- A free slot of core k is reserved for record j of the die. -/
def reserveFor (die j k : Nat) (s : State) : State := let q := reserveSlot k s; setPlace die j q.2 q.1

/-- DISTRIBUTOR_SELECT: the distributor of die a selects one record, which is bound 44 to 64 cycles later, or begins a co-launched placement
once every earlier selection is bound, which binds its set within 64 + c cycles (R167, R171 to R174). -/
def selectOne (die : Nat) (s : State) : State :=
  if dieHeld s die then s else
  match (dieAt s die).placing, selectLevel s die with
  | some _, _ => s
  | none, none => s
  | none, some (lv, pl) =>
    match choose s die pl with
    | none => s
    | some j =>
      let r := Table.get {} (dieAt s die).recs j
      if r.setSize ≠ 0 ∧ selecting (dieAt s die) then s
      else
        let older := (levelReady (dieAt s die) lv).takeWhile (· != j)
        let s := older.foldl (fun s j => bumpBypass die j s) s
        if r.setSize = 0 then
          let m := recImg s die j
          match bestCore s (imgFirst m) (levelCores (imgLevel m)) with
          | none => s
          | some k =>
            let s := reserveFor die j k (takeReady die lv [j] s)
            selectAt (s.cycle + 1) die (evAt (s.cycle + between 44 64 s) 0 .recordBind { a := die, b := j, c := k } (tick s))
        else
          let js := setReady (dieAt s die) r.set_
          let s := takeReady die lv js s
          let s := js.foldl (fun s j => reserveFor die j (imgFirst (recImg s die j)) s) s
          evAt (s.cycle + between 44 (64 + r.setSize) s) 0 .coLaunchPlacement { a := die, b := r.set_ }
            (updDie (tick s) die fun d => { d with placing := some r.set_ })

/-- Status word of a bound task (Table 8.1). -/
def bindStatus (m : Mem) (prio : Nat) (cerr : Bool) : Nat :=
  b2n (imgPriv m) * 2 ^ 6 + prio * 2 ^ 7 + imgDims m * 2 ^ 14 + b2n cerr * 2 ^ 21

/-- The workspace of slot i as binding writes it (R30, R167): bytes not named are free values (log 3). -/
def bindWorkspace (c : Core) (i seed : Nat) (m : Mem) (status : Nat) : Core :=
  let b := slotBase c i
  let put (c : Core) (off n v : Nat) := bankWrite c (b + off) n v
  let c := { c with buf := c.buf.filter fun r => !(decide (b / 32 ≤ r) && decide (r < b / 32 + 32))
                    lm := (upTo 0x400).foldl (fun l j => Memory.put l (b + j) (Config.freeByte (seed * 2 ^ 16 + j))) c.lm }
  let c := (upTo (imgNlive m)).foldl (fun c j => if j = 0 then c else put c (4 * j) 4 (imgFld m (0x70 + 4 * j) 4)) c
  let c := put c 0x40 16 0
  let c := put c offStatus 4 status
  let c := put c offPcSave 4 (evenPc (imgFld m 0 4))
  let c := put c offSp 4 (b + slotSize c)
  let c := put c offFloor 4 (b + 0x400)
  let c := put c offOvp 8 0
  let c := put c offEmset 16 (imgFld m 0x20 16)
  let c := put c offFstat 4 0
  let c := put c offFmode 4 (imgFld m 0xB0 4)
  put c offCeil 4 (b + slotSize c)

/-- A core that no task issues on moves to the slot that is bound: the two cycles of its WSP change are part of the time from selection to
first issue (R31, R167). -/
def moveToBound (i : Nat) (c : Core) : Core :=
  let o := curSlot c
  if o = i ∨ c.serving.isSome ∨ c.gangSize ≠ 0 ∨ (upTo 8).any (canRun c) then c
  else
    let c := if (slotAt c o).live then bankWrite c (slotBase c o + offPcSave) 4 (slotAt c o).pc else c
    { c with wsp := BitVec.ofNat 32 (slotBase c i), busy := c.busy + 2, moved := false }

/-- A record that is bound leaves an affinity level that none has, so that an image tells the records that wait (log 8). -/
def freeRecord (pool : Mem) (idx : Nat) : Mem := Memory.write pool (recOff idx + 8) 4 (setFld (Memory.read pool (recOff idx + 8) 4) 0 3 7)

/-- A record is bound to slot i of core k (R167, R201): its task is runnable, and its record and entry are free. -/
def bindRecord (die idx k i : Nat) (s : State) : State :=
  let r := Table.get {} (dieAt s die).recs idx
  let m := recImg s die idx
  let pc := evenPc (imgFld m 0 4)
  let s := updCore s k fun c =>
    let c := bindWorkspace (moveToBound i (l1Heard c)) i s.free m (bindStatus m r.prio (decide (r.err ≠ 0)))
    let d := fld (imageWord (imageOf s k) ((pc + 2 ^ 32 - 4) % 2 ^ 32)).2 7 4
    let c := if r.park then inSlot i (fun c => wrW c d (imgFld m 0xB4 4)) c else c
    setSlot c i { live := true, pc := pc, task := imgFld m 0x0C 4, tile := imgFld m 0x10 8, may := r.may, fresh := true,
                  setBase := r.setBase, setSize := r.setSize }
  let s := updDie (tick s) die fun d => { d with recs := Table.erase d.recs idx, pool := freeRecord d.pool idx }
  resumeWatchers die (makeRunnable k i s.cycle s)

/-- The slot selected for a record on core k may be bound: it is not that of a handler installed meanwhile (R334). -/
def slotStands (c : Core) (i : Nat) : Bool := (slotAt c i).reserved && !(tvecEn c && slotBase c i == tvecBase c) && !handlerSlot c i

/-- A selected record is bound to its slot on core k; if a handler has taken the slot, to another free one of its affinity set, as soon as
there is one (R167, R171, R334). -/
def bindSelected (die idx k : Nat) (s : State) : State :=
  let i := (Table.get {} (dieAt s die).recs idx).slot
  if slotStands (coreOf s k) i then bindRecord die idx k i s
  else
    let m := recImg s die idx
    let s := updSlot s k i fun x => { x with reserved := false }
    match bestCore s (imgFirst m) (levelCores (imgLevel m)) with
    | some k =>
      let s := reserveFor die idx k s
      bindRecord die idx k (Table.get {} (dieAt s die).recs idx).slot s
    | none => evAt (s.cycle + 1) 0 .recordBind { a := die, b := idx, c := k } (setPlace die idx 8 s)

/-- RECORD_BIND: the record b of die a, selected for core c, is bound (R167, R173). -/
def execRecordBind (s : State) : Out :=
  .next (selectAt (s.cycle + 1) s.args.a (bindSelected s.args.a s.args.b s.args.c s))

/-- RECORD_HELD: record b of die a is held by the distributor; the spawn or park is no longer instant-bound (R198). -/
def execRecordHeld (s : State) : Out :=
  let die := s.args.a
  let r := Table.get {} (dieAt s die).recs s.args.b
  let s1 := unbind r.from_ (updDie s die fun d => { d with recs := Table.set d.recs s.args.b { r with held := true } })
  .next (if r.st = 3 then selectAt (s.cycle + 1) die s1 else s1)

/-- DISTRIBUTOR_SELECT (R171, R172). -/
def execDistributorSelect (s : State) : Out := .next (selectOne s.args.a s)

/-- CO_LAUNCH_PLACEMENT: every member of the set that die a places is bound, and the distributor is free again (R174). -/
def execCoLaunchPlacement (s : State) : Out :=
  let die := s.args.a
  let js := ((dieAt s die).recs.filter fun q => q.2.st == 4 && q.2.set_ == s.args.b && q.2.setSize != 0).map Prod.fst
  let s := js.foldl (fun s j => bindSelected die j (imgFirst (recImg s die j)) s) s
  .next (selectAt (s.cycle + 1) die (updDie s die fun d => { d with placing := none }))

/-- WATCH_ENTRY_RESUME: slot b of core a looks again for a record or a watch entry (R170). -/
def execWatchEntryResume (s : State) : Out := .next (resumeWait5 s.args.a s.args.b s)

/-- SLOT_FREE_AFTER_DRAIN: slot b of core a is freed, its last operation complete (R202). -/
def execSlotFreeAfterDrain (s : State) : Out :=
  let c := coreOf s s.args.a
  .next (if (slotAt c s.args.b).live && stState c s.args.b == stHalted && (slotAt c s.args.b).outst == 0 then freeSlot s.args.a s.args.b s else s)

/-- CTR_READ_RETURN: the counter read of slot b of core a returns (R216). -/
def execCtrReadReturn (s : State) : Out :=
  let k := s.args.a
  match (slotAt (coreOf s k) s.args.b).blockedIn with
  | some (.ctrWait _ d) => .next (tryCtrWait k s.args.b d (unbind k s))
  | _ => .next (unbind k s)

/-- CTR_WAIT_WAKE: the counter met the wait of slot b of core a, which completes with the value that met it (R216). -/
def execCtrWaitWake (s : State) : Out :=
  let k := s.args.a
  let x := slotAt (coreOf s k) s.args.b
  match x.blockedIn with
  | some (.ctrWait _ d) => .next (completeWait k s.args.b 4 (fun c => [rowX c d]) (fun c => wrX c d x.opA) s)
  | _ => .next s

/-- SPAWN (R197). -/
def execSpawn (a d : Nat) (s : State) : Out :=
  runGlobal (fun c _ => imageTrap (theDom s s.cur) c (rdW c a)) (spawnAct a d) s

/-- SPAWN_BOX (R199). -/
def execSpawnBox (f c b a d : Nat) (s : State) : Out :=
  runGlobal (fun x _ => boxTrap (theDom s s.cur) f c b a x) (boxAct f c b a d) s

/-- PARK (R200). -/
def execPark (a d : Nat) (s : State) : Out :=
  runGlobal (fun c _ => parkTrap (theDom s s.cur) a c) (parkAct a d) s

/-- HALT (R202). -/
def execHalt (s : State) : Out :=
  runGlobal (fun _ _ => none) (haltAct 4) s

/-- HALT_16 (R72). -/
def execHalt16 (s : State) : Out :=
  runGlobal (fun _ _ => none) (haltAct 2) s

/-- PAUSE (R202). -/
def execPause (s : State) : Out :=
  runLocal .nobody 4 pauseOp s

/-- PAUSE_16 (R72). -/
def execPause16 (s : State) : Out :=
  runLocal .nobody 2 pauseOp s

/-- PAUSE_W (R203). -/
def execPauseW (a d : Nat) (s : State) : Out :=
  runGlobal (ctrTrap s a d) (pauseWAct a d) s

/-- YIELD (R204). -/
def execYield (s : State) : Out :=
  runLocal .nobody 4 yieldOp s

/-- YIELD_16 (R72). -/
def execYield16 (s : State) : Out :=
  runLocal .nobody 2 yieldOp s

/-- CTR_WAIT (R216). -/
def execCtrWait (a d : Nat) (s : State) : Out :=
  runGlobal (ctrTrap s a d) (ctrWaitAct a d) s

end Sys2Proof.Machine
end

