-- ==== Sys2Proof/Machine/Sync.lean ====
section
/-!
DEFINITION. Sync: gangs, barriers and queue registers (08 R175, 09 R210 to R220).
-/

namespace Sys2Proof.Machine

/-! Gangs (R175, R210, R211). -/

def formTrap (n : Nat) (s : State) : Option Trap :=
  if 4 ≤ n ∨ s.cur % 8 % 2 ^ n ≠ 0 then some (illeg 4) else none

/-- gang.form blocks. Table 9.13 gives its cost from when the gang forms; blocking costs 1 cycle at issue (DESIGN CHOICE, log 83). -/
def formAct (n d : Nat) (s : State) : State := tryGangs s.cur (blockIn (.gangForm n d) 3 1 [] id s)

/-- A member of a gang that forms (R210): its workspace becomes current, its status names the gang, its register receives its index. Its
gang.form costs 2 cycles and those of its register's row from here (R221). -/
def joinGang (s : State) (lead size : Nat) (m : Nat × Nat) : State :=
  let j := m.1 - lead
  let g := if size = 2 then 1 else if size = 4 then 2 else 3
  updCore s m.1 fun c =>
    let o := curSlot c
    let c := if (slotAt c o).live ∧ o ≠ m.2 then bankWrite c (slotBase c o + offPcSave) 4 (slotAt c o).pc else c
    let x := slotAt c m.2
    let d := match x.blockedIn with | some (.gangForm _ d) => d | _ => 0
    let c := { l1Heard c with wsp := BitVec.ofNat 32 (slotBase c m.2), gangBase := lead, gangSize := size, moved := false, armed := none }
    let c := setSt (setSt c m.2 22 6 (b2n (j == 0) + j * 2 + g * 2 ^ 4)) m.2 0 6 (if j = 0 then stRunnable else stFollower)
    let c := lateRows { wrW c d j with busy := max c.busy (s.cycle + 2) } s.cycle (rowsW c d)
    setSlot c m.2 { x with blockedIn := none, wake := false, pc := (x.pc + 4) % 2 ^ 32 }

/-- GANG_FORMED: the gang of core a forms if its members are still present; it issues once the costliest of them may (R210, R141, R221). -/
def gangFormed (lead g : Nat) (s : State) : State :=
  match gangReady s lead g with
  | none => tryGangs lead ((upTo (2 ^ g)).foldl (fun s j => updCore s (lead + j) fun c => (upTo 8).foldl (fun c i =>
      match (slotAt c i).blockedIn with | some (.gangForm _ _) => setSlot c i { slotAt c i with wake := false } | _ => c) c) s)
  | some ms =>
    let s := ms.foldl (fun s m => joinGang s lead (2 ^ g) m) s
    let t := ms.foldl (fun t m => max t (coreOf s m.1).busy) (s.cycle + 2)
    let s := updCore s lead fun c => { c with busy := t }
    kick lead t s

/-- gang.end: nop outside a gang (R211). -/
def gangEndAct (s : State) : State :=
  let k := s.cur
  let s := complete 4 (fun c => { core := c, cost := 2 }) s
  let s := disband k s
  kick k (coreOf s k).busy s

/-! Barriers (R212 to R215). -/

/-- Cores of the unit of a barrier; its first core; cycles from issue to application (R212, R213). -/
def barCores (sx : Nat) : Nat := if sx = 0 then 8 else 128
def barFirst (sx k : Nat) : Nat := k / barCores sx * barCores sx
def barDelay (sx : Nat) : Nat := if sx = 0 then 1 else 3
def barCost (sx : Nat) : Nat := if sx = 0 then 2 else 4

/-- The barrier of scope sx and number ix of core k's rod or frame; at launch P is the unit's core count (R212). -/
def barOf (s : State) (sx ix k : Nat) : Barrier :=
  let d : Barrier := { parts := barCores sx }
  if sx = 0 then nth d (rodOf s (rodOfCore k)).bars ix else nth d (Table.get [] s.frames (frameOfCore k)) ix
def setBar (sx ix k : Nat) (b : Barrier) (s : State) : State :=
  let d : Barrier := { parts := barCores sx }
  if sx = 0 then updRod s (rodOfCore k) fun r => { r with bars := setNth d r.bars ix b }
  else { s with frames := Table.set s.frames (frameOfCore k) (setNth d (Table.get [] s.frames (frameOfCore k)) ix b) }

def barTrap (sx ix : Nat) : Option Trap := if sx = 0 ∧ 4 ≤ ix then some (illeg 4) else none

def initTrap (sx ix a : Nat) (c : Core) : Option Trap :=
  if rdW c a = 0 ∨ barCores sx < rdW c a then some (illeg 4) else barTrap sx ix

/-- An operation on its way to a barrier: inits apply before arrivals, each in increasing core index (R213). -/
def barSend (sx : Nat) (x : Args) (init : Bool) (s : State) : State :=
  pushAt (s.cycle + barDelay sx) 2 (if init then x.a else Config.allCores + x.a) (.ev .barrierApply x) s

/-- The units of an application: core, slot, the barrier with the operation (0 init, 1 bar.arr, 2 bar.arrw), P or the register. -/
def barArgs (k i sx ix op v : Nat) : Args := { a := k, b := i, c := ix + sx * 16 + op * 32, d := v }

def initAct (sx ix a : Nat) (s : State) : State :=
  let c := coreOf s s.cur
  barSend sx (barArgs s.cur (curSlot c) sx ix 0 (rdW c a)) true
    (complete 4 (fun c => { core := c, rd := [rowW c a], cost := barCost sx }) s)

def arrAct (sx ix d : Nat) (s : State) : State :=
  barSend sx (barArgs s.cur (curSlot (coreOf s s.cur)) sx ix 1 d) false
    (complete 4 (fun c => { core := c, wr := rowsW c d, cost := barCost sx }) s)

/-- bar.arrw stays at its PC until its arrival is applied. -/
def arrwAct (sx ix d : Nat) (s : State) : State :=
  barSend sx (barArgs s.cur (curSlot (coreOf s s.cur)) sx ix 2 d) false
    (complete 4 (fun c => { core := c, wr := rowsW c d, cost := barCost sx, jump := some (slotAt c (curSlot c)).pc }) s)

/-- bar.wait passes or blocks. Table 9.13 gives its cost when passed; one that blocks costs 1 cycle at issue and none at its release
(DESIGN CHOICE, log 83). -/
def barWaitAct (sx ix a : Nat) (s : State) : State :=
  let c := coreOf s s.cur
  let t := rdW c a
  if phasePassed (barOf s sx ix s.cur).phase.toNat t then complete 4 (fun c => { core := l1Heard c, rd := [rowW c a], cost := barCost sx }) s
  else blockIn (.barWait sx ix a) 3 1 [rowW c a] (fun x => { x with opA := t }) s

/-- The barrier that a blocked task waits on. -/
def waitsOn (i : Option Instr) (sx ix : Nat) : Bool :=
  match i with
  | some (.barWait sx' ix' _) => sx' == sx && ix' == ix
  | some (.barArrw sx' ix' _) => sx' == sx && ix' == ix
  | _ => false

/-- A phase change in this cycle releases the waiters it passes (R214, R215). -/
def releaseWaiters (sx ix k : Nat) (s : State) : State :=
  let ph := (barOf s sx ix k).phase.toNat
  (upTo (barCores sx)).foldl (fun s j =>
    let q := barFirst sx k + j
    if (Table.find s.cores q).isNone then s
    else (upTo 8).foldl (fun s i =>
      let c := coreOf s q
      let x := slotAt c i
      if !x.wake && waitsOn x.blockedIn sx ix && phasePassed ph x.opA then
        evAt (s.cycle + barDelay sx) 0 .barrierRelease { a := q, b := i } (updSlot s q i fun x => { x with wake := true })
      else s) s) s

/-- An arrival: the barrier after it, the ticket, whether the phase moves (R213). -/
def arrive (b : Barrier) : Barrier × Nat × Bool :=
  if b.parts ≤ b.arrivals + 1 then ({ b with arrivals := 0, phase := b.phase + 1 }, b.phase.toNat, true)
  else ({ b with arrivals := b.arrivals + 1 }, b.phase.toNat, false)

/-- BARRIER_APPLY: an init or an arrival of slot b of core a is applied (R213); a bar.arrw passes or blocks on its ticket (R215). -/
def barApply (x : Args) (s : State) : State :=
  let sx := x.c / 16 % 2
  let ix := x.c % 16
  let b := barOf s sx ix x.a
  if x.c / 32 = 0 then setBar sx ix x.a { b with parts := x.d, arrivals := 0 } s
  else
    let q := arrive b
    let s := setBar sx ix x.a q.1 s
    let s := if q.2.2 then releaseWaiters sx ix x.a s else s
    let s := updCore s x.a (inSlot x.b fun c => wrW c x.d q.2.1)
    if x.c / 32 = 1 then s
    else if q.2.2 then updSlot (updCore s x.a l1Heard) x.a x.b fun y => { y with pc := (y.pc + 4) % 2 ^ 32 }
    else updCore s x.a fun c =>
      let c := block c x.b 3 (some (.barArrw sx ix x.d))
      setSlot c x.b { slotAt c x.b with opA := q.2.1 }

/-! Queue registers (R217 to R220). -/

def queueAt (c : Core) (q : Nat) : QueueReg := nth {} c.queues q
def setQueue (c : Core) (q : Nat) (r : QueueReg) : Core := { c with queues := setNth {} c.queues q r }

/-- A put may reserve an entry in a cycle (R218): a poll's entry is free from the next one. -/
def queueRoom (r : QueueReg) (cycle : Nat) : Bool :=
  decide (r.words.length + r.reserved + (if r.freedAt = some cycle then 1 else 0) < 8)

/-- A put of word v of core k to queue q of core t, if an entry is free: it lands at the end of cycle c + 3, instant-bound until then
(R218, R219). -/
def tryPut (k t q v : Nat) (s : State) : Option State :=
  if queueRoom (queueAt (coreOf s t) q) s.cycle then
    let s := updCore s t fun c => setQueue c q { queueAt c q with reserved := (queueAt c q).reserved + 1 }
    let s := updCore s k fun c => { c with bound := c.bound + 1 }
    some (evAt (s.cycle + 3) 2 .queueWordLand { a := k, b := t, c := q, d := v } s)
  else none

/-- A word that slot i of core k may take from queue q, with the state after the poll (R218, R220). -/
def tryPoll (k q : Nat) (s : State) : Option (State × Nat) :=
  match (queueAt (coreOf s k) q).words with
  | [] => none
  | v :: vs => some (updCore s k fun c => setQueue c q { queueAt c q with words := vs, freedAt := some s.cycle }, v)

/-- Slot i of core k retries its put or poll in the next cycle (R218). -/
def retryNext (k i : Nat) (s : State) : State :=
  evAt (s.cycle + 1) 1 .qPutRetry { a := k, b := i } (updSlot s k i fun x => { x with wake := true })

/-- A put of slot i of core k that found no entry of queue q of core t looks again in the next cycle where one was polled in this cycle; else
the next poll has it look again (R218). -/
def retryPut (k i t q : Nat) (s : State) : State :=
  if (queueAt (coreOf s t) q).freedAt = some s.cycle then retryNext k i s else updSlot s k i fun x => { x with wake := false }

/-- Blocked puts to queue q of core t retry in the cycle after a poll (R218). -/
def retryPuts (t q : Nat) (s : State) : State :=
  (upTo 128).foldl (fun s j =>
    let k := t / 128 * 128 + j
    if (Table.find s.cores k).isNone then s
    else (upTo 8).foldl (fun s i =>
      let x := slotAt (coreOf s k) i
      match x.blockedIn with
      | some (.qPut q' _ _) =>
        if q' = q ∧ x.opB = t then retryNext k i s else s
      | _ => s) s) s

/-- A poll of a queue that another task owns (R220). -/
def pollTrap (q : Nat) (c : Core) : Option Trap :=
  match (queueAt c q).owner with
  | none => none
  | some o => if o = curSlot c then none else some (trapOf 11 2 q)

def own (q i : Nat) (c : Core) : Core := setQueue c q { queueAt c q with owner := some i }

def putTrap (d : Nat) (k : Nat) (c : Core) : Option Trap :=
  if rdW c d < Config.cores ∧ rdW c d / 128 = k / 128 then none else some (illeg 4)

def putAct (q a d : Nat) (s : State) : State :=
  let k := s.cur
  let c := coreOf s k
  let t := rdW c d
  let v := rdW c a
  let rd := [rowW c a, rowW c d]
  match tryPut k t q v s with
  | some s => complete 4 (fun c => { core := c, rd := rd }) s
  | none => retryPut k (curSlot c) t q (blockIn (.qPut q a d) 4 1 rd (fun x => { x with opA := v, opB := t }) s)

def pollAct (q d : Nat) (s : State) : State :=
  let k := s.cur
  let s := updCore s k fun c => own q (curSlot c) c
  match tryPoll k q s with
  | some (s, v) => retryPuts k q (complete 4 (fun c => { core := wrW (l1Heard c) d v, wr := rowsW c d }) s)
  | none => blockIn (.qPoll q d) 4 1 [] id s

def pollNbAct (q a d : Nat) (s : State) : State :=
  let k := s.cur
  let s := updCore s k fun c => own q (curSlot c) c
  match tryPoll k q s with
  | some (s, v) => retryPuts k q (complete 4 (fun c => { core := wrW (wrW (l1Heard c) d v) a 1, wr := rowsW c d ++ rowsW c a }) s)
  | none => complete 4 (fun c => { core := wrW c a 0, wr := rowsW c a }) s

/-- QUEUE_WORD_LAND: word d of core a lands in queue c of core b (R218); a blocked poll there retries in the next cycle. -/
def wordLand (x : Args) (s : State) : State :=
  let s := updCore s x.b fun c =>
    let r := queueAt c x.c
    setQueue c x.c { r with words := r.words ++ [x.d], reserved := r.reserved - 1 }
  let s := updCore s x.a fun c => { c with bound := c.bound - 1 }
  (upTo 8).foldl (fun s i =>
    let y := slotAt (coreOf s x.b) i
    match y.blockedIn with
    | some (.qPoll q _) =>
      if q = x.c ∧ !y.wake then retryNext x.b i s else s
    | _ => s) s

/-- Q_PUT_RETRY: slot b of core a, blocked in a put or a poll, tries again (R218). -/
def retryQueue (k i : Nat) (s : State) : State :=
  let x := slotAt (coreOf s k) i
  match x.blockedIn with
  | some (.qPut q _ _) =>
    match tryPut k x.opB q x.opA s with
    | some s => completeWait k i 4 (fun _ => []) id s
    | none => retryPut k i x.opB q s
  | some (.qPoll q d) =>
    match tryPoll k q s with
    | some (s, v) => retryPuts k q (completeWait k i 4 (fun c => rowsW c d) (fun c => wrW c d v) s)
    | none => updSlot s k i fun x => { x with wake := false }
  | _ => s

/-- GANG_FORM (R210). -/
def execGangForm (n d : Nat) (s : State) : Out :=
  runGlobal (fun _ _ => formTrap n s) (formAct n d) s

/-- GANG_END (R211). -/
def execGangEnd (s : State) : Out :=
  .next (gangEndAct s)

/-- GANG_FORMED: the gang that core a leads, of code b, forms (R210). -/
def execGangFormed (s : State) : Out :=
  .next (gangFormed s.args.a s.args.b s)

/-- BAR_INIT (R213). -/
def execBarInit (sx ix a : Nat) (s : State) : Out :=
  runGlobal (fun c _ => initTrap sx ix a c) (initAct sx ix a) s

/-- BAR_ARR (R215). -/
def execBarArr (sx ix d : Nat) (s : State) : Out :=
  runGlobal (fun _ _ => barTrap sx ix) (arrAct sx ix d) s

/-- BAR_WAIT (R214). -/
def execBarWait (sx ix a : Nat) (s : State) : Out :=
  runGlobal (fun _ _ => barTrap sx ix) (barWaitAct sx ix a) s

/-- BAR_ARRW (R215). -/
def execBarArrw (sx ix d : Nat) (s : State) : Out :=
  runGlobal (fun _ _ => barTrap sx ix) (arrwAct sx ix d) s

/-- BARRIER_APPLY (R213). -/
def execBarrierApply (s : State) : Out :=
  .next (barApply s.args s)

/-- BARRIER_RELEASE: slot b of core a, which the phase has passed, completes its wait (R215). -/
def execBarrierRelease (s : State) : Out :=
  .next (if (slotAt (coreOf s s.args.a) s.args.b).wake then completeWait s.args.a s.args.b 4 (fun _ => []) id s else s)

/-- Q_PUT (R217). -/
def execQPut (q a d : Nat) (s : State) : Out :=
  runGlobal (fun c _ => putTrap d s.cur c) (putAct q a d) s

/-- Q_POLL (R217). -/
def execQPoll (q d : Nat) (s : State) : Out :=
  runGlobal (fun c _ => pollTrap q c) (pollAct q d) s

/-- Q_POLL_NB (R217). -/
def execQPollNb (q a d : Nat) (s : State) : Out :=
  runGlobal (fun c _ => pollTrap q c) (pollNbAct q a d) s

/-- QUEUE_WORD_LAND: word d of core a lands in queue c of core b (R218). -/
def execQueueWordLand (s : State) : Out :=
  .next (wordLand s.args s)

/-- Q_PUT_RETRY: slot b of core a tries its put or poll again (R218). -/
def execQPutRetry (s : State) : Out :=
  .next (retryQueue s.args.a s.args.b s)

end Sys2Proof.Machine
end

