-- ==== Sys2Proof/Machine/Crema.lean ====
section
/-!
DEFINITION. Crema: rounds, the resolution of signals, the closing and opening of instants, preemption regions (08 R177 to R192, 09 R203,
R208, 18 R350, 22 R391, R393).
-/

namespace Sys2Proof.Machine

/-! Contributions (Table 8.7). -/

/-- Cycles of a round: 48 on one die, 96 across dies (R159). -/
def roundLength (d : Domain) : Nat := if (diesOf d.mask).length = 1 then 48 else 96

/-- The signal that a blocked task tests, or examines in a region check (TST lane). -/
def testedSig (c : Core) (i : Nat) : Option Nat :=
  let x := slotAt c i
  match x.blockedIn with
  | some (.test n _) => some n
  | some (.tval n _) => some n
  | none => if stState c i = stBlocked ∧ stWait c i = 1 ∧ c.serving ≠ some i then some (regionSig (regionAt c i x.check)) else none
  | _ => none

/-- A task blocked in fq.take counts as paused (R348). -/
def inFqTake (x : Slot) : Bool := match x.blockedIn with | some (.fqTake _ _) => true | _ => false

/-- The contribution of slot i of a core. -/
def slotRound (c : Core) (r : Round) (i : Nat) : Round :=
  let x := slotAt c i
  if !x.live then r
  else
    let st := stState c i
    let r := { r with outs := r.outs || x.wake }
    if x.trap.isSome then { r with allp := false, run := true, maye := r.maye ||| x.may }
    else if st = stRunnable ∨ x.fresh then { r with allp := false, run := true, maye := r.maye ||| x.may }
    else if st = stFollower then { r with allp := false, maye := r.maye ||| x.may }
    else if st = stBlocked then
      let r := { r with allp := r.allp && inFqTake x, maye := r.maye ||| x.may }
      match testedSig c i with
      | some n => { r with tst := r.tst ||| sigBit n }
      | none => r
    else r

/-- Values of the signals combined, signal by signal (R176). -/
def mergeVals (comb : List Nat) (a b : List (Nat × Nat)) : List (Nat × Nat) :=
  b.foldl (fun t q =>
    let op := nth 0 comb q.1
    Table.set t q.1 (combineVal op (Table.get (combineId op) t q.1) q.2)) a

/-- The signal that a handler tests, in its own slot, which holds no task (R182, R183). -/
def handlerTests (c : Core) : SigSet :=
  match c.serving, (slotAt c (curSlot c)).blockedIn with
  | some _, some (.test n _) => sigBit n
  | some _, some (.tval n _) => sigBit n
  | _, _ => 0

/-- The contribution of a core; a handler that runs keeps RUN at 1 (R338). -/
def coreRound (comb : List Nat) (c : Core) (r : Round) : Round :=
  let r := (upTo 8).foldl (slotRound c) r
  let busy := c.serving.isSome
  { r with pres := r.pres ||| c.pres, val := mergeVals comb r.val c.val, outs := r.outs || decide (0 < c.bound)
           run := r.run || busy, allp := r.allp && !busy, tst := r.tst ||| handlerTests c }

/-- The contribution of a distributor: records that are ready and unbound (R178, R180). -/
def dieRound (d : Die) (r : Round) : Round :=
  d.recs.foldl (fun r q => if 3 ≤ q.2.st then { r with allp := false, run := true, maye := r.maye ||| q.2.may } else r) r

/-- The combination of every contribution of domain m. -/
def roundOf (s : State) (m : Nat) : Round :=
  let d := domAt s m
  let r := (coresOfDom s m).foldl (fun r k => coreRound d.comb (coreOf s k) r) { pres := d.injected }
  (diesOf d.mask).foldl (fun r n => dieRound (dieAt s n) r) r

/-! The check stage (R189). -/

inductive CheckEnd where
  | wait (e : Nat)
  | abort (e h : Nat)
  | freeze (e : Nat)
  | pass

/-- The entries from e on, examined through the latest result. -/
def checkFrom (d : Domain) (c : Core) (i : Nat) : Nat → Nat → CheckEnd
  | 0, _ => .pass
  | fuel + 1, e =>
    if stDepth c i ≤ e then .pass
    else
      let w := regionAt c i e
      if regionKind w = 1 ∨ regionKind w = 2 then
        match sigStatus d (regionSig w) with
        | none => .wait e
        | some true => if regionKind w = 1 then .abort e (regionHandler w) else .freeze e
        | some false => checkFrom d c i fuel (e + 1)
      else checkFrom d c i fuel (e + 1)

/-- A region abort: DEPTH and PC, and the wait of pause.w is abandoned (R188, R189, R203). -/
def abortTo (k i e h : Nat) (s : State) : State :=
  dropWatches k i (updCore s k fun c => setSlot (setSt c i 10 4 e) i { slotAt c i with pc := evenPc h, pauseW := false, blockedIn := none })

/-- The check stage of slot i of core k, from the entry it has reached; a task that goes on may issue from cycle t. A task in pause.w goes
on only if its condition held (R189, R203). -/
def checkStage (m k i t : Nat) (s : State) : State :=
  let d := domAt s m
  let s := updCore s k fun c => setSt c i 17 1 0
  let c := coreOf s k
  let x := slotAt c i
  match checkFrom d c i 9 x.check with
  | .wait e => updCore s k fun c => setSlot (setSt (setSt c i 0 3 stBlocked) i 3 3 1) i { slotAt c i with check := e, blockedIn := none }
  | .abort e h => makeRunnable k i t (abortTo k i e h s)
  | .freeze e =>
    updCore s k fun c => setSlot (setSt (setSt (setSt c i 17 1 1) i 18 3 e) i 0 6 stFrozen) i { slotAt c i with may := 0, blockedIn := none }
  | .pass =>
    if !x.pauseW then makeRunnable k i t s
    else if x.pauseMet then
      makeRunnable k i t (dropWatches k i (updSlot (updCore s k l1Heard) k i fun x => { x with pauseW := false, pc := (x.pc + 4) % 2 ^ 32 }))
    else updCore s k fun c => setSlot (setSt c i 0 6 stPaused) i { slotAt c i with may := 0 }

/-- Slot i of core k looks at a new result: a test, a tval or a region check that is resolved completes (R182, R183, R189). -/
def resolveSlot (m k i : Nat) (s : State) : State :=
  let d := domAt s m
  let c := coreOf s k
  let x := slotAt c i
  match x.blockedIn with
  | some (.test n dd) => match sigStatus d n with | some p => completeWait k i 4 (fun c => rowsW c dd) (fun c => wrW c dd (b2n p)) s | none => s
  | some (.tval n dd) => match sigValue d n with | some v => completeWait k i 4 (fun c => rowsW c dd) (fun c => wrW c dd v) s | none => s
  | none =>
    if x.live && x.trap.isNone && c.serving != some i && stState c i == stBlocked && stWait c i == 1 then checkStage m k i (s.cycle + 1) s else s
  | _ => s

/-- Every slot of every core of a domain that passes a test. -/
def slotsWhere (p : Core → Nat → Bool) (m : Nat) (f : Nat → Nat → State → State) (s : State) : State :=
  (coresOfDom s m).foldl (fun s k => (upTo 8).foldl (fun s i => if p (coreOf s k) i then f k i s else s) s) s

/-- Every slot that holds a task, of every core of a domain. -/
def eachSlot (m : Nat) (f : Nat → Nat → State → State) (s : State) : State := slotsWhere (fun c i => (slotAt c i).live) m f s

/-- Every slot in which a test can wait for a signal: those of tasks and that of a handler, which R182 and R183 serve alike. -/
def eachTester (m : Nat) (f : Nat → Nat → State → State) (s : State) : State :=
  slotsWhere (fun c i => (slotAt c i).live || handlerSlot c i) m f s

/-! Causality (R186, R406). -/

/-- The round resolves a signal that is tested, after the result before it: a signal that stood present there is waited for only by a tval,
which its final value resolves (R182, R183, R186, log 68). -/
def resolvesSome (before : Option Round) (r : Round) : Bool :=
  let was (n : Nat) : Bool := match before with | some b => sigIn b.pres n | none => false
  (upTo 128).any fun n => sigIn r.tst n && ((sigIn r.pres n && !was n) || !sigIn r.maye n)

/-- A wait of slot i that sleeps is given up with its instruction (R67). -/
def dropWaits (k i : Nat) (s : State) : State :=
  let mine (x : Acc) : Bool := x.core == k && x.slot == i && x.kind == .wait && x.stage == .sleep
  let n := (s.accs.filter fun q => mine q.2).length
  updSlot { s with accs := s.accs.filter fun q => !mine q.2 } k i fun x => { x with outst := x.outst - n }

/-- A task blocked in its check stage leaves it, with its PC where it would resume: behind a pause.w whose condition held (R203, R406). -/
def leaveCheck (x : Slot) : Slot :=
  { x with pauseW := false, pauseMet := false, check := 0, pc := if x.pauseW && x.pauseMet then (x.pc + 4) % 2 ^ 32 else x.pc }

/-- Every blocked task of core k takes CAUSAL subcode 1: the lowest slot now, the others in turn (R186, R338). -/
def causalCore (k : Nat) (report : SigSet) (s : State) : State :=
  let c := coreOf s k
  let is := (upTo 8).filter fun i => let x := slotAt c i; x.live && stState c i == stBlocked && !inFqTake x && x.trap.isNone
  let s := is.foldl (fun s i =>
    let s := dropWatches k i (updSlot s k i fun x => { leaveCheck x with trap := some (trapOf 7 1 0), report := report, blockedIn := none })
    dropWaits k i s) s
  match is with
  | [] => s
  | i :: _ => takeTrap k i (trapOf 7 1 0) 0 report s

def causalFault (m : Nat) (r : Round) (s : State) : State :=
  let report := r.tst &&& r.maye &&& ~~~ r.pres
  (coresOfDom s m).foldl (fun s k => if (domAt s m).ended then s else causalCore k report s) s

/-! Rounds (R181). -/

/-- ROUND_SAMPLE: every contribution of domain a is sampled; the result is due L cycles later. -/
def sampleRound (m : Nat) (s : State) : State :=
  let d := domAt s m
  if !d.isOpen then s
  else
    let s := updDom s m fun d => { d with sampled := [(d.round, roundOf s m)], round := d.round + 1 }
    evAt (s.cycle + roundLength d) 0 .roundResult { a := m } s

/-- ROUND_RESULT: the result is delivered. It closes the instant, or resolves signals, or finds a causality cycle; the next round samples
at the end of this cycle (R181 to R186). -/
def deliverRound (m : Nat) (s : State) : State :=
  match (domAt s m).sampled with
  | [] => s
  | (_, r) :: _ =>
    let before := (domAt s m).result
    let s := updDom s m fun d => { d with result := some r, sampled := [] }
    if r.allp && !r.outs then
      evAt s.cycle 3 .instantBoundary { a := m } (updDom s m fun d => { d with isOpen := false, last := r.pres })
    else
      let s := eachTester m (resolveSlot m) s
      let s := if !r.run && !r.outs && !r.allp && !resolvesSome before r then causalFault m r s else s
      if (domAt s m).ended then s else evAt s.cycle 3 .roundSample { a := m } s

/-! Boundaries (R184, R188, R350, R391). -/

/-- The weak stage of a paused or frozen task: the outermost armed weak abort whose signal was present, below a suspension that froze the
task; then every remaining entry is armed (R188). -/
def weakStage (pres : SigSet) (k i : Nat) (s : State) : State :=
  let c := coreOf s k
  let n := stDepth c i
  let top := if stFrz c i then min n (stFrzd c i) else n
  let hit := (upTo top).find? fun e => let w := regionAt c i e; regionKind w == 0 && regionArmed w && sigIn pres (regionSig w)
  let s := match hit with | some e => abortTo k i e (regionHandler (regionAt c i e)) s | none => s
  updCore s k fun c => (upTo (stDepth c i)).foldl (fun c e =>
    let w := regionAt c i e
    if regionArmed w then c else bankWrite c (slotBase c i + offRegion + 8 * e) 8 (w + 2 ^ 15)) c

/-- What a boundary does to a task: the weak stage, then the condition of pause.w on the counter as it stands (R188, R203). -/
def boundarySlot (pres : SigSet) (k i : Nat) (s : State) : State :=
  let st := stState (coreOf s k) i
  if st ≠ stPaused ∧ st ≠ stFrozen then s
  else
    let s := weakStage pres k i s
    let x := slotAt (coreOf s k) i
    if x.pauseW then updSlot s k i fun x => { x with pauseMet := counterMet (counterWord s x.opA) x.opB } else s

/-- No job of domain m is outstanding (R351, R391). -/
def jobsDone (s : State) (m : Nat) : Bool :=
  (coresOfDom s m).all (fun k => (coreOf s k).jobs.all List.isEmpty) &&
  s.flights.all (fun f => isBarista f.2.core || !bit (domAt s m).mask (dieOfCore f.2.core))

/-- Nothing is left of domain m: no resident task, no record, no job, no fault (R391). -/
def domainDone (s : State) (m : Nat) : Bool :=
  (coresOfDom s m).all (fun k => let c := coreOf s k; c.serving.isNone && (upTo 8).all fun i => !(slotAt c i).live && !(slotAt c i).reserved) &&
  (diesOf (domAt s m).mask).all (fun n => let d := dieAt s n; d.recs.isEmpty && d.fqWait.isEmpty && d.fqOf.isEmpty) && jobsDone s m

/-- INSTANT_BOUNDARY of domain a, in the delivery cycle: every L1 is invalidated, the weak stage runs, INSTANT advances; the domain then
ends, is held, or opens the next instant two cycles later (R184, R230, R275, R350, R391). -/
def boundary (m : Nat) (s : State) : State :=
  let d := domAt s m
  let s := (coresOfDom s m).foldl (fun s k => updCore s k fun c => { c with l1 := [], l1Gen := c.l1Gen + 1 }) s
  let s := eachSlot m (boundarySlot d.last) s
  let s := updDom s m fun d => { d with instant := d.instant + 1, injected := d.inject, inject := 0 }
  if domainDone s m then
    let t := (coresOfDom s m).foldl (fun t k => (coreOf s k).dirty.foldl (fun t l =>
      max t (if ownerPlace s l = some (dieOfCore k) ∨ ownerPlace s l = some theHome then 150 else 260)) t) 0
    evAt (s.cycle + t + 1) 0 .instantBoundary { a := m, b := 1 } s
  else if sigIn d.last 127 then updDom s m fun d => { d with held := true }
  else evAt (s.cycle + 2) 0 .instantOpen { a := m } s

/-- The end of domain m: its system-scope release, its report, and the wipe of its dies (R276, R391). -/
def domainEnds (m : Nat) (s : State) : State :=
  let s := (coresOfDom s m).foldl (fun s k => updCore ((coreOf s k).dirty.foldl (fun s l => cleanLine l s) s) k fun c => { c with dirty := [] }) s
  let d := domAt s m
  writeReport d.report d.fn d.number 0 0 0 ((d.instant - 1) % 2 ^ 64) 0 (stopDomain m s)

/-- MAYEMIT at an opening, and the check stage of a task that was paused or frozen (R177, R189). -/
def openSlot (m k i : Nat) (s : State) : State :=
  let st := stState (coreOf s k) i
  if st = stHalted then s
  else
    let s := updCore s k fun c => setSlot c i { slotAt c i with may := BitVec.ofNat 128 (emsetEff c i), check := 0 }
    if st = stPaused ∨ st = stFrozen then checkStage m k i s.cycle s
    else if st = stRunnable then kick k s.cycle s
    else s

/-- INSTANT_OPEN of domain a: contributions start empty, masks are EMSET, the check stage begins, round 0 samples at the end of this cycle
(R177, R178, R181, R185, R192). fresh: the opening after a launch, a release or a restore. -/
def openInstant (m : Nat) (fresh : Bool) (s : State) : State :=
  let s := updDom s m fun d =>
    { d with isOpen := true, held := false, opened := s.cycle, start := if fresh then s.cycle else s.cycle - 2, round := 0, result := none, sampled := []
             injected := if fresh then d.injected ||| d.inject else d.injected, inject := if fresh then 0 else d.inject }
  let d := domAt s m
  let s := (coresOfDom s m).foldl (fun s k => updCore s k fun c => { c with pres := 0, val := [] }) s
  let s := (diesOf d.mask).foldl (fun s n =>
    let recs := (dieAt s n).recs.map fun q => if 3 ≤ q.2.st then (q.1, { q.2 with may := BitVec.ofNat 128 (imgEmset (recImg s n q.1)) }) else q
    updDie s n fun x => { x with recs := recs }) s
  let s := eachSlot m (openSlot m) s
  let s := if fresh then (diesOf d.mask).foldl (fun s n => selectAt (s.cycle + 1) n s) s else s
  let s := if d.limit = 0 then s else evAt (d.start + d.limit * 1024) 1 .instantLimitExpiry { a := m, b := d.instant } s
  evAt s.cycle 3 .roundSample { a := m } s

/-- The detecting core of an instant limit (R192). -/
def limitCore (s : State) (m : Nat) : Nat :=
  let ks := coresOfDom s m
  let has (p : Core → Nat → Bool) (k : Nat) : Bool := (upTo 8).any fun i => p (coreOf s k) i
  match ks.find? (has canRun) with
  | some k => k
  | none => (ks.find? (has fun c i => (slotAt c i).live)).getD 0

/-- INSTANT_LIMIT_EXPIRY of domain a: instant b is still open (R192). -/
def limitExpires (m inst : Nat) (s : State) : State :=
  let d := domAt s m
  if d.isOpen ∧ d.instant = inst then contain m 7 4 (limitCore s m) 0 s else s

/-- ROUND_SAMPLE (R181). -/
def execRoundSample (s : State) : Out := .next (sampleRound s.args.a s)

/-- ROUND_RESULT (R181). -/
def execRoundResult (s : State) : Out := .next (deliverRound s.args.a s)

/-- INSTANT_BOUNDARY (R184). -/
def execInstantBoundary (s : State) : Out := .next (if s.args.b = 0 then boundary s.args.a s else domainEnds s.args.a s)

/-- INSTANT_OPEN (R184). -/
def execInstantOpen (s : State) : Out := .next (openInstant s.args.a (decide (s.args.b = 1)) s)

/-- INSTANT_LIMIT_EXPIRY (R192). -/
def execInstantLimitExpiry (s : State) : Out := .next (limitExpires s.args.a s.args.b s)

end Sys2Proof.Machine
end

