-- ==== Sys2Proof/Machine/Translate.lean ====
section
/-!
DEFINITION. Translate: page tables, walks and TLBs (11 R238 to R247).
-/

namespace Sys2Proof.Machine

/-- Index of a level (Table 11.9). -/
def walkIndex (va lev : Nat) : Nat := if lev = 0 then fld va 16 5 else fld va (21 + 9 * (lev - 1)) 9

/-- Bytes of a page whose leaf stands at a level (Table 11.9). -/
def pageSize (lev : Nat) : Nat := if lev = 0 then 2 ^ 16 else if lev = 1 then 2 ^ 21 else 2 ^ 30

/-- Fields of a leaf (Table 11.11). -/
def pteV (e : Nat) : Bool := bit e 0
def pteR (e : Nat) : Bool := bit e 2
def pteW (e : Nat) : Bool := bit e 3
def pteU (e : Nat) : Bool := bit e 4
def pteG (e : Nat) : Bool := bit e 5
def pteA (e : Nat) : Bool := bit e 6
def pteD (e : Nat) : Bool := bit e 7
def pteKind (e : Nat) : Nat := fld e 8 2
def pteHome (e : Nat) : Nat := fld e 10 6
def pteFrame (e : Nat) : Nat := fld e 16 36 * 2 ^ 16
def pteMig (e : Nat) : Bool := bit e 52

/-- A table pointer is malformed (Table 11.10): reserved bits, a table outside DRAM or not aligned for its level. -/
def badPointer (e lev : Nat) : Bool :=
  let next := fld e 8 44 * 2 ^ 8
  fld e 52 12 != 0 || fld e 2 6 != 0 || !isDram next || (decide (1 < lev) && next % 4096 != 0)

/-- A leaf is malformed (Table 11.11, R228): reserved bits, an unaligned frame, a frame in a hole or across a region end. -/
def badLeaf (e lev : Nat) : Bool :=
  let f := pteFrame e
  fld e 53 11 != 0 || f % pageSize lev != 0 || (regionOf f).isNone || regionOf f != regionOf (f + pageSize lev - 1)

/-- What an entry says at a level (R240): a fault, recoverable where V = 0 (R345); the next table; a leaf. -/
inductive EntryStep where
  | fault (recoverable : Bool)
  | table (t : Nat)
  | leaf
deriving DecidableEq, Repr

def entryStep (e lev : Nat) : EntryStep :=
  if !pteV e then .fault true
  else if bit e 1 then (if lev = 0 ∨ badPointer e lev then .fault false else .table (fld e 8 44 * 2 ^ 8))
  else if 3 ≤ lev ∨ badLeaf e lev then .fault false
  else .leaf

/-- What a walk finds: a fault, or a leaf, its address and level. -/
inductive WalkResult where
  | fault (recoverable : Bool)
  | leaf (pte addr lev : Nat)
deriving DecidableEq, Repr

/-- The walk from a table through the levels, as the entries stand now (R240). -/
def walkFrom (rd : Nat → Nat) (va : Nat) : Nat → List Nat → WalkResult
  | _, [] => .fault false
  | t, lev :: rest =>
    let addr := t + 8 * walkIndex va lev
    match entryStep (rd addr) lev with
    | .fault r => .fault r
    | .table t => walkFrom rd va t rest
    | .leaf => .leaf (rd addr) addr lev

def walk (s : State) (root va : Nat) : WalkResult := walkFrom (fun a => readLine s a 8) va root [4, 3, 2, 1, 0]

/-- Classes of access for a permission check: load 0, store 1, atomic 2. -/
abbrev AccClass := Nat
def isWrite (cls : AccClass) : Bool := cls != 0

/-- The XLATE subcode of an access that an entry denies (R240). -/
def denied (kind : Nat) (u r w : Bool) (frame : Nat) (cls : AccClass) (priv : Bool) : Option Nat :=
  if kind = 3 then some 3
  else if !u && !priv then some 2
  else if (cls == 0 && !r) || (cls == 1 && !w) || (cls == 2 && !(r && w)) then some 2
  else if isPool frame && decide (poolOff frame < 0x400000) && !priv then some 2
  else none
def deniedLeaf (e : Nat) (cls : AccClass) (priv : Bool) : Option Nat := denied (pteKind e) (pteU e) (pteR e) (pteW e) (pteFrame e) cls priv
def deniedEntry (t : TlbEntry) (cls : AccClass) (priv : Bool) : Option Nat := denied t.kind t.u t.r t.w t.frame cls priv

/-- The translation that a fill installs: a 1 GiB page as the fragment of one 2 MiB granule (R244). -/
def entryOf (e addr lev va : Nat) : TlbEntry :=
  let n := min (pageSize lev) (2 ^ 21)
  let base := va / n * n
  { va := base, size := n, frame := pteFrame e + base % pageSize lev, leaf := addr, lev := lev, kind := pteKind e, home := pteHome e
    d := pteD e, g := pteG e, u := pteU e, w := pteW e, r := pteR e }

def covers (va : Nat) (t : TlbEntry) : Bool := decide (t.va ≤ va) && decide (va < t.va + t.size)
def findTlb (l : List TlbEntry) (va : Nat) : Option TlbEntry := l.find? (covers va)

/-- The entry becomes the most recently used one. -/
def touchTlb (l : List TlbEntry) (t : TlbEntry) : List TlbEntry := t :: l.filter fun x => !(x.va == t.va && x.size == t.size)

/-- Set and slice of the second-level TLB (R244). -/
def tlbSet (t : TlbEntry) : Nat :=
  fld t.va 21 4 * 16 + (if t.size = 2 ^ 16 then Nat.xor (fld t.va 25 4) (fld t.va 16 4) else fld t.va 25 4)

/-- A fill of the second-level TLB: 16 ways in a set, the least recently used replaced (R244). -/
def fillL2Tlb (l : List TlbEntry) (t : TlbEntry) : List TlbEntry :=
  let l := touchTlb l t
  let mine := l.filter fun x => tlbSet x == tlbSet t
  if mine.length ≤ 16 then l
  else match mine.getLast? with | some v => l.filter (· != v) | none => l

/-- The translation of a rod's micro-TLB, most recently used (R243). -/
def microLookup (rod va : Nat) (s : State) : Option (TlbEntry × State) :=
  (findTlb (rodOf s rod).tlb va).map fun t => (t, updRod s rod fun r => { r with tlb := touchTlb r.tlb t })
/-- A fill of a rod's micro-TLB; a unit that has no rod has none (R243, R244). -/
def fillMicro (rod : Nat) (t : TlbEntry) (s : State) : State :=
  if Config.rods ≤ rod then s else updRod s rod fun r => { r with tlb := (touchTlb r.tlb t).take 16 }
def l2Lookup (die va : Nat) (s : State) : Option (TlbEntry × State) :=
  (findTlb (dieAt s die).tlb va).map fun t => (t, updDie s die fun d => { d with tlb := touchTlb d.tlb t })
def fillDieTlb (die : Nat) (t : TlbEntry) (s : State) : State := updDie s die fun d => { d with tlb := fillL2Tlb d.tlb t }

/-- The TLB entries of a leaf that served an access to an address hold D = 1: the rod's and the die's (R241). -/
def markDirty (rod die addr va : Nat) (s : State) : State :=
  let f (t : TlbEntry) : TlbEntry := if t.leaf = addr ∧ covers va t then { t with d := true } else t
  updRod (updDie s die fun d => { d with tlb := d.tlb.map f }) rod fun r => { r with tlb := r.tlb.map f }

/-- How a translation ends. -/
inductive Translated where
  | ok (t : TlbEntry)
  | fault (sub : Nat) (recoverable : Bool)
  | migrating
deriving DecidableEq, Repr

/-- What a leaf gives an access: it waits, is denied, or has the translation (R240, R242). -/
def leafResult (e addr lev va : Nat) (cls : AccClass) (priv : Bool) : Translated :=
  if pteMig e then .migrating
  else match deniedLeaf e cls priv with
    | some sub => .fault sub false
    | none => .ok (entryOf e addr lev va)

/-- What the re-read of a leaf gives: an entry that is no leaf of its level any more is a fault (R240, R241). -/
def rereadResult (e : Nat) (t : TlbEntry) (va : Nat) (cls : AccClass) (priv : Bool) : Translated :=
  match entryStep e t.lev with
  | .fault r => .fault 1 r
  | .table _ => .fault 1 false
  | .leaf => leafResult e t.leaf t.lev va cls priv

/-- Physical address of a virtual one through an entry. -/
def paOf (t : TlbEntry) (va : Nat) : Nat := t.frame + (va - t.va)

/-- Entries that a tlb.inv removes (R343, R386): mode 0 those that cover an address, 1 those with G = 0, 2 all. -/
def invHits (mode va : Nat) (t : TlbEntry) : Bool :=
  match mode with
  | 0 => covers va t
  | 1 => !t.g
  | _ => true

/-- Remove entries from every TLB of the dies of a mask (R246). -/
def removeTlb (mask mode va : Nat) (s : State) : State :=
  let keep (l : List TlbEntry) := l.filter fun t => !invHits mode va t
  let s := (diesOf mask).foldl (fun s n => updDie s n fun d => { d with tlb := keep d.tlb }) s
  { s with rods := s.rods.map fun q => if bit mask (q.1 / Config.rodsPerDie) then (q.1, { q.2 with tlb := keep q.2.tlb }) else q }

end Sys2Proof.Machine
end

