-- ==== Sys2Proof/Machine/Access.lean ====
section
/-!
DEFINITION. Access: how a global access goes from its issue to its completion (12 R248 to R257, R265, 20 R360 to R369): translation, store
tags, ordering, L1, requests for tokens.
-/

namespace Sys2Proof.Machine

def accAt (s : State) (id : Nat) : Acc := Table.get {} s.accs id
def putAcc (id : Nat) (x : Acc) (s : State) : State := { s with accs := Table.set s.accs id x }
def dropAcc (id : Nat) (s : State) : State := { s with accs := Table.erase s.accs id }

/-- Kinds by what they need (R240, R254, R180). -/
def AccKind.cls : AccKind → AccClass
  | .store | .uwrite => 1
  | .atomic => 2
  | _ => 0
/-- The access of a unit that is no task. -/
def AccKind.ofUnit : AccKind → Bool
  | .uread | .uwrite => true
  | _ => false
def AccKind.tagged : AccKind → Bool
  | .store | .atomic | .cln | .sst | .satomic => true
  | _ => false
def AccKind.returns : AccKind → Bool
  | .load | .wait | .atomic | .sld | .satomic => true
  | _ => false

/-- The unit that stands for the host, the move unit of a die, and the unit that performs the halo writes of a domain whose lowest die it is,
as the source of an access; they are numbered after the baristas (haloUnit: Ops). -/
def hostUnit : Nat := Config.allCores
def moveUnit (die : Nat) : Nat := Config.allCores + 1 + die

/-- The die of an access: that of its core, or of its move or halo unit. -/
def accDie (x : Acc) : Nat := if Config.allCores < x.core then (x.core - Config.allCores - 1) % Config.dies else dieOfCore x.core

/-- The domain of the die of an access. -/
def accDom (s : State) (x : Acc) : Domain := match domOfDie s (accDie x) with | some m => domAt s m | none => {}

/-- Event of an access: its core and number. -/
def accEv (t phase : Nat) (i : Instr) (id : Nat) (s : State) : State := evAt t phase i { a := (accAt s id).core, b := id } s

/-! Blocks of L1 (R229 to R231). -/

def l1Blocks (c : Core) : Nat := (0x6000 - c.lml1.toNat) / 256
def l1Addr (c : Core) (b : Nat) : Nat := c.lml1.toNat + 256 * b
def l1Find (c : Core) (sec : Nat) : Option Nat := (c.l1.find? fun q => q.1 == sec).map Prod.snd
def l1Touch (c : Core) (sec : Nat) : Core :=
  match l1Find c sec with
  | some b => { c with l1 := (sec, b) :: c.l1.filter fun q => q.1 != sec }
  | none => c

/-- One block is invalidated (R230, R264, R269). -/
def l1Drop (c : Core) (sec : Nat) : Core := { c with l1 := c.l1.filter fun q => q.1 != sec }

/-- Fills of a core that are on their way no longer enter its L1: loads of a sector, and prefetches of it or, after an invalidation, any
(R230, R264). -/
def dropFills (k sec : Nat) (all : Bool) (s : State) : State :=
  { s with accs := s.accs.map fun q =>
      if q.2.core = k ∧ ((q.2.kind = .load ∧ q.2.pa / 256 = sec) ∨ (q.2.kind = .pref ∧ (all ∨ q.2.pa / 256 = sec))) then (q.1, { q.2 with fill := false }) else q }

/-- A core's L1 block of a sector is invalidated, with what is on its way to it (R230, R264, R269). -/
def l1Invalidate (k sec : Nat) (s : State) : State := dropFills k sec true (updCore s k fun c => l1Drop c sec)

/-- The whole L1 is invalidated (R230). -/
def l1Clear (c : Core) : Core := { c with l1 := [], l1Gen := c.l1Gen + 1 }

/-- A store updates the block that holds its bytes (R230), which is then the most recently used one (R229). -/
def l1Store (c : Core) (pa n v : Nat) : Core :=
  match l1Find c (pa / 256) with
  | some b => l1Touch (bankWrite c (l1Addr c b + pa % 256) n v) (pa / 256)
  | none => c

/-- A write of another core overtakes the block of a sector (log 61). -/
def l1Passed (sec : Nat) (c : Core) : Core :=
  if (l1Find c sec).isSome ∧ (Table.find c.l1Age sec).isNone then { c with l1Age := Table.set c.l1Age sec 1 } else c

/-- A write of core k to a sector overtakes the blocks of the other cores: none of them changes (R230, log 61). -/
def overtake (k sec : Nat) (s : State) : State :=
  if s.cores.any fun q => q.1 != k && (l1Find q.2 sec).isSome then
    { s with cores := s.cores.map fun q => if q.1 = k then q else (q.1, l1Passed sec q.2) }
  else s

/-- A store of the core itself is acknowledged: R272 orders its later loads of the sector, or, after a store on an SO page, all of them behind it
(log 61). -/
def l1Stored (x : Acc) (c : Core) : Core :=
  if x.page = 0 then l1Order c else if (Table.find c.l1Age (x.pa / 256)).isSome then l1Bar (x.pa / 256) c else c

/-- A block for a fill: a free one, else that of the least recently used sector, which leaves (R229). -/
def l1Take (c : Core) (taken : List Nat) : Option (Nat × Core) :=
  match (upTo (l1Blocks c)).find? fun b => !taken.contains b && !(c.l1.any fun q => q.2 == b) with
  | some b => some (b, c)
  | none => match c.l1.getLast? with
    | some q => some (q.2, { c with l1 := c.l1.filter fun x => x.1 != q.1 })
    | none => none

/-- One row of a block is deposited (R231). -/
def l1Row (c : Core) (b row : Nat) (data : Mem) : Core :=
  let a := l1Addr c b + 32 * row
  { c with lm := setRange c.lm a 32 (Memory.slice data (32 * row) (32 * row + 32)), buf := c.buf.filter (· != a / 32) }

/-! Results. -/

/-- A value deposited into a register of slot i (R225, R251): w0 is discarded, x0 writes only w1. -/
def depositReg (c : Core) (i dest reg v : Nat) : Core :=
  let b := slotBase c i
  match dest with
  | 0 => if reg = 0 then c else bankWrite c (b + 4 * reg) 4 v
  | 1 => if reg = 0 then bankWrite c (b + 4) 4 (v / 2 ^ 32) else bankWrite c (b + 8 * reg) 8 v
  | 2 => bankWrite c (b + 0x100 + 32 * reg) 32 v
  | _ => c

/-- The task of an access still waits for it. -/
def waitsFor (s : State) (x : Acc) : Bool :=
  let y := slotAt (coreOf s x.core) x.slot
  x.blocks && !x.kind.ofUnit && y.task == x.task && y.blockedIn.isSome

/-- A gang goes on when no member's stack access is left (R141, R196); its leader's PC moves. -/
def gangGoes (k : Nat) (s : State) : State :=
  let b := (coreOf s k).gangBase
  if (gangOf s k).any fun j => let c := coreOf s j; (slotAt c (curSlot c)).blockedIn.isSome then s
  else
    let i := curSlot (coreOf s b)
    makeRunnable b i (s.cycle + 1) (updSlot s b i fun x => { x with pc := (x.pc + 4) % 2 ^ 32 })

/-- The task of an access goes on (R253). -/
def releaseTask (id : Nat) (f : Core → Core) (s : State) : State :=
  let x := accAt s id
  let s1 := putAcc id { x with blocks := false } s
  if !waitsFor s x then s1
  else if (coreOf s x.core).gangSize ≠ 0 then
    gangGoes x.core (updSlot (updCore s1 x.core (inSlot x.slot f)) x.core x.slot fun y => { y with blockedIn := none })
  else resumeWith x.core x.slot 4 (fun _ => []) f s1

/-- Accesses of the same task that are not complete and issued before (R257). -/
def earlierOpen (s : State) (id : Nat) : Bool :=
  let x := accAt s id
  s.accs.any fun q => q.1 != id && q.2.core == x.core && q.2.slot == x.slot && q.2.task == x.task && decide (q.1 < id) && q.2.kind != .pref && !q.2.kind.ofUnit

/-- An access is over: it is no longer outstanding (R255), and an SO access of its task may start (R257). -/
def finishAcc (id : Nat) (s : State) : State :=
  let x := accAt s id
  let s := dropAcc id s
  let s := if x.kind = .pref ∨ x.stage = .sleep then s else unbind x.core s
  let s := if x.kind.returns then opEnds x.core x.slot s else s
  s.accs.foldl (fun s q =>
    if q.2.stage = .order ∧ q.2.core = x.core ∧ q.2.slot = x.slot then accEv s.cycle 3 .soAccessStart q.1 s else s) s

/-! Store tags (R254, R255). -/

def tagsOut (c : Core) : Nat := (c.wseq - c.wack).toNat

/-- WACK over the complete prefix of acknowledged tags. -/
def wackOver : Nat → BitVec 16 → List Nat → BitVec 16 × List Nat
  | 0, w, l => (w, l)
  | n + 1, w, l => if l.contains (w + 1).toNat then wackOver n (w + 1) (l.filter (· != (w + 1).toNat)) else (w, l)

/-- WACK has reached a tag (R262). -/
def reached (c : Core) (t : Nat) : Bool := decide ((c.wack - BitVec.ofNat 16 t).toNat < 2 ^ 15)

/-- Time of the cleans of a system-scope release (Table 20.6). -/
def cleanTime (s : State) (die : Nat) (lines : List Nat) : Nat :=
  lines.foldl (fun t l => max t (if ownerPlace s l = some die ∨ ownerPlace s l = some theHome then 150 else 260)) 0

/-- Release fences of a core that its WACK lets go on (R262). -/
def wakeFences (k : Nat) (s : State) : State :=
  (upTo 8).foldl (fun s i =>
    let c := coreOf s k
    let x := slotAt c i
    match x.blockedIn with
    | some (.fence sc _) =>
      if x.opB == 0 && reached c x.opA then
        let t := if sc = 5 then cleanTime s (dieOfCore k) c.dirty else 0
        evAt (s.cycle + t) 3 .fenceReleaseDone { a := k, b := i } (updSlot s k i fun x => { x with opB := 1 })
      else s
    | _ => s) s

/-! Ordering before the memory is reached. -/

/-- The bytes of a tagged operation: those of the whole line for cln. -/
def accRange (x : Acc) : Nat × Nat := if x.kind = .cln then (x.pa / 1024 * 1024, 1024) else (x.pa, x.n)

/-- Own stores and atomics of a core to a sector that are not acknowledged. -/
def ownToSector (s : State) (k sec : Nat) : Bool :=
  s.accs.any fun q => q.2.core == k && (q.2.tag.isSome || q.2.stage == .tag) && (q.2.kind == .store || q.2.kind == .atomic) && q.2.pa / 256 == sec

/-- Two accesses go to one host or peer window (R382). -/
def sameWindow (x y : Acc) : Bool := isWindow x.pa && isWindow y.pa && regionOf x.pa == regionOf y.pa

/-- The access waits for writes of its own core: a load for those to its sector (R256), a write for earlier ones to its bytes (R256), an
atomic, which reads, also for those to its sector (R272); a write to a window for those to it that have not left, a unit's for the stores that
issued before it (R382); and a write on an RC page for every earlier tag (R268). -/
def ownBefore (s : State) (id : Nat) : Bool :=
  let x := accAt s id
  let c := coreOf s x.core
  let others := s.accs.filter fun q => q.1 != id && q.2.core == x.core && q.2.tag.isSome && q.2.kind != .sst && q.2.kind != .satomic
  let r := accRange x
  let place (y : Acc) : Nat := (BitVec.ofNat 16 (y.tag.getD 0) - c.wack).toNat
  match x.kind with
  | .load | .wait => ownToSector s x.core (x.pa / 256)
  | .store | .atomic | .cln =>
    (others.any fun q => q.2.kind == .store && q.2.stage != .path && sameWindow q.2 x && decide (place q.2 < place x)) ||
    (x.page == 1 && x.kind != .cln && place x != 1) ||
    others.any fun q => decide (place q.2 < place x) &&
      (decide ((accRange q.2).1 < r.1 + r.2) && decide (r.1 < (accRange q.2).1 + (accRange q.2).2) ||
        x.kind == .atomic && q.2.kind != .cln && q.2.pa / 256 == x.pa / 256)
  | .uwrite => others.any fun q => decide (q.1 < id) && q.2.kind == .store && q.2.stage != .path && sameWindow q.2 x
  | _ => false

/-- The access fills a block of L1 (R229, R230, R264). -/
def fillsL1 (x : Acc) (c : Core) : Bool :=
  (x.kind == .load || (x.kind == .pref && x.op == 1)) && x.page != 0 && isDram x.pa && decide (c.lml1.toNat < 0x6000)

/-- Cycles from a load's read to its arrival when it fills a block (R231). -/
def fillTime (x : Acc) (c : Core) : Nat := if x.kind = .load ∧ fillsL1 x c then 3 else 0

/-- The event in which an access reaches its memory. -/
def pathEv (x : Acc) : Instr := if x.kind = .pref then .prefFill else if x.kind.returns || x.kind == .uread then .globalLoadArrival else .storeAck

/-- What an access does to its core's L1 as it leaves (R230): a store updates its block, an atomic invalidates it, and no fill on its way
brings bytes older than them; the fill of a load or prefetch may enter unless an own write is on its way. -/
def leaveL1 (id : Nat) (s : State) : State :=
  let x := accAt s id
  let sec := x.pa / 256
  match x.kind with
  | .store => dropFills x.core sec false (updCore s x.core fun c => if x.page = 0 then c else l1Store c x.pa x.n x.val)
  | .atomic => l1Invalidate x.core sec s
  | .load => putAcc id { x with fill := true } (if x.page = 0 then s else updCore s x.core fun c => l1Drop c sec)
  | .pref => putAcc id { x with fill := x.fill && !ownToSector s x.core sec } s
  | _ => s

/-- The latest cycle in which a write of the same core that has left for the same window, its own or one of its jobs, or of a unit for the same
line, reaches it: a later one comes no earlier (R290, R295, R382). -/
def behindDue (s : State) (x : Acc) : Nat :=
  let write (y : Acc) : Bool := y.kind == .store || y.kind == .uwrite
  let same (y : Acc) : Bool :=
    y.core == x.core && y.stage == .path && write x && write y && (sameWindow x y || x.kind == .uwrite && y.kind == .uwrite && lineOf y.pa == lineOf x.pa)
  s.accs.foldl (fun t q => if same q.2 then max t q.2.due else t) 0

/-- A unit that acts at the home of a line: the host, a barista (R296, R383). -/
def atHome (x : Acc) : Bool := x.kind.ofUnit && x.place == theHome && !x.bypass

/-- The access reaches its memory in a cycle: its L2, or the home where it acts there. -/
def pathAt (id cycle : Nat) (s : State) : State :=
  let x := accAt s id
  accEv cycle 2 (pathEv x) id (putAcc id { x with stage := .path, place := if atHome x then theHome else accDie x, bypass := false, due := cycle } s)

/-- What a load takes from its L1 block: a block behind whose overtaking R272 orders the load serves it only while its bytes are current (R230,
R272, log 61). -/
def l1Hit (s : State) (x : Acc) : Option Nat :=
  let c := coreOf s x.core
  let sec := x.pa / 256
  if x.kind ≠ .load ∨ x.page = 0 then none
  else match l1Find c sec with
    | none => none
    | some b =>
      let v := lmRead c (l1Addr c b + x.pa % 256) x.n
      if Table.find c.l1Age sec ≠ some 3 ∨ v = readLine s x.pa x.n then some v else none

/-- The access goes to its memory (R249, R236, R227, R382): it performs there in the event. A cln outside DRAM is acknowledged in the same cycle:
on a pool frame by R264, on a window by the model's choice (DESIGN CHOICE, log 79). -/
def startPath (id : Nat) (s : State) : State :=
  let x := accAt s id
  let c := coreOf s x.core
  let die := accDie x
  let go (t : Nat) (s : State) : State := pathAt id (max (s.cycle + t) (behindDue s x)) (tick s)
  if x.kind = .cln then
    if isDram x.pa then go (cleanTime s die [lineOf x.pa] + Config.slack s.free) s else go 0 s
  else if isPool x.pa then go (x.lead - 36 + poolLatency die (poolDie x.pa) s) s
  else if isWindow x.pa then go (x.lead - 36 + atLeast 150 s) s
  else match l1Hit s x with
    | some v => accEv (s.cycle + 2) 2 .globalLoadArrival id (putAcc id { x with stage := .back, got := v } (setCore s x.core (l1Touch c (x.pa / 256))))
    | none => go (x.lead - fillTime x c + Config.slack s.free) (leaveL1 id s)

/-- After its tag an access waits for what R256, R257 and R268 name, or starts. -/
def orderAcc (id : Nat) (s : State) : State :=
  let x := accAt s id
  if x.page = 0 ∧ earlierOpen s id then putAcc id { x with stage := .order } s
  else if ownBefore s id then putAcc id { x with stage := .own } s
  else startPath id s

/-- A write to a line is acknowledged: older reads of it take no newer read in (R265). -/
def shutReads (line : Nat) (s : State) : State :=
  { s with accs := s.accs.map fun q => if q.2.stage = .tokens ∧ lineOf q.2.pa = line then (q.1, { q.2 with shut := true }) else q }

/-- A tagged operation is acknowledged (R254): WACK advances over the complete prefix, and what waited for it goes on (R255, R256, R262,
R268). -/
def ackTag (id : Nat) (s : State) : State :=
  let x := accAt s id
  let s := updCore s x.core fun c =>
    match x.tag with
    | none => c
    | some t =>
      let q := wackOver 256 c.wack (addNew c.acked t)
      let c := { c with wack := q.1, acked := q.2 }
      if x.kind = .store then l1Stored x c else c
  let s := finishAcc id s
  let s := if (x.kind = .store ∨ x.kind = .atomic) ∧ isDram x.pa then shutReads (lineOf x.pa) s else s
  s.accs.foldl (fun s q =>
    if q.2.core ≠ x.core then s
    else if q.2.stage = .tag then accEv s.cycle 3 .tagRoomResume q.1 s
    else if q.2.stage ≠ .own then s
    else if q.2.kind.cls = 0 then accEv s.cycle 3 .loadAfterStoreAck q.1 s
    else if ownBefore s q.1 then s else startPath q.1 s) (wakeFences x.core s)

/-- Cycles to the local memory of another member of the set (R258): the core itself, its frame, its deck. -/
def sharedTime (k t : Nat) : Nat := if k = t then 1 else if k / 128 = t / 128 then 3 else 5

/-- A shared access travels to its target x.place: a deposit at the end of its arrival cycle; an sld reads before the deposits of that
cycle (R225, R258, R260). -/
def startShared (id : Nat) (s : State) : State :=
  let x := accAt s id
  let t := s.cycle + sharedTime x.core x.place
  let s := putAcc id { x with stage := .path, due := t } s
  if x.kind = .sld then pushAt t 1 (2 * Config.allCores) (.ev .depositApply { a := x.core, b := id }) s else accEv t 2 .depositApply id s

/-- SP is written by a redirected stack access, through the write buffer, and SPILLREDIR counts it (R32, R35, R104, R115). -/
def stackDone (cycle : Nat) (x : Acc) (c : Core) : Core :=
  match x.sp with
  | none => c
  | some sp =>
    let a := slotBase c x.slot + offSp
    { lateRows (lmWrite c a 4 sp) cycle [rowAt a] with spillRedir := c.spillRedir + 1 }

/-- A shared access to a target waits for those of its core to it that issued before and have not left (R258). -/
def sharedBehind (s : State) (id : Nat) : Bool :=
  let x := accAt s id
  s.accs.any fun q => decide (q.1 < id) && q.2.core == x.core && q.2.place == x.place && q.2.stage == .tag && (q.2.kind == .sst || q.2.kind == .satomic || q.2.kind == .sld)

/-- An access takes its tag, or waits for room (R254, R255). A posted one lets its task go on (R253); on an SO page it holds it (R257). An
sld waits here for shared accesses before it (R258). -/
def takeTag (id : Nat) (s : State) : State :=
  let x := accAt s id
  if x.kind = .sld then (if sharedBehind s id then putAcc id { x with stage := .tag } s else startShared id s)
  else if 256 ≤ tagsOut (coreOf s x.core) ∨ (x.kind = .sst ∨ x.kind = .satomic) ∧ sharedBehind s id then putAcc id { x with stage := .tag } s
  else
    let s := updCore s x.core fun c => stackDone s.cycle x { c with wseq := c.wseq + 1 }
    let s := putAcc id { x with tag := some (coreOf s x.core).wseq.toNat, passed := true } s
    let s := if (x.kind = .store ∧ x.page ≠ 0) ∨ x.kind = .cln ∨ x.kind = .sst then releaseTask id (fun c => c) s else s
    if x.kind = .sst ∨ x.kind = .satomic then startShared id s else orderAcc id s

/-- The access of a unit has performed: the unit goes on in its event (R240, R300, R372), past a pinned set once the home's answer is
back (R234). -/
def unitDone (id : Nat) (s : State) : State :=
  let x := accAt s id
  match x.next with
  | none => dropAcc id s
  | some (i, a) => evAt (s.cycle + if x.bypass then 57 else 0) 3 i a (putAcc id { x with stage := .back } s)

/-- The access of a unit has failed: twice the XLATE subcode, and one more where the fault is recoverable; 0 for a NACK (R240, R345, R373). -/
def failUnit (id code : Nat) (s : State) : State :=
  match (accAt s id).next with
  | none => dropAcc id s
  | some (i, a) => evAt s.cycle 3 i a (putAcc id { accAt s id with stage := .fault, got := code } s)

/-- An access whose address is known goes on (R248, R254, R264). -/
def proceed (id : Nat) (s : State) : State :=
  let x := accAt s id
  match x.kind with
  | .inv => finishAcc id (releaseTask id (fun c => c) (l1Invalidate x.core (x.pa / 256) s))
  | .pref => if x.page = 0 ∨ !isDram x.pa then dropAcc id s else startPath id s
  | .uread | .uwrite => if x.op = 3 then unitDone id s else if ownBefore s id then putAcc id { x with stage := .own } s else startPath id s
  | _ =>
    if x.kind.tagged then (if x.tag.isSome then orderAcc id s else takeTag id s)
    else orderAcc id (putAcc id { x with passed := true } s)

/-- Stack accesses of the gang of core k whose checks are in progress. -/
def gangAccs (s : State) (k : Nat) : List (Nat × Acc) :=
  let ms := gangOf s k
  s.accs.filter fun q => q.2.sp.isSome && !q.2.passed && ms.contains q.2.core

/-- Every member's stack access has passed: the accesses go on, and the members whose slot lies in the carve-out act now (R141). -/
def gangPasses (k : Nat) (s : State) : State :=
  let ids := gangAccs s k
  let s := (gangOf s k).foldl (fun s j =>
    let c := coreOf s j
    if ids.any fun q => q.2.core == j then s
    else
      match (slotAt c (curSlot c)).blockedIn with
      | none => s
      | some ins =>
        match ordering (stackLocal ins) c 0 with
        | .ok e => updSlot (setCore s j e.core) j (curSlot c) fun y => { y with blockedIn := none }
        | .error _ => s) s
  ids.foldl (fun s q => proceed q.1 (putAcc q.1 { accAt s q.1 with stage := .walk, passed := true } s)) s

/-- SP and SPILLREDIR of a push whose page is gone before the store is performed are as they were (R35, R104). -/
def unstack (x : Acc) (c : Core) : Core :=
  match x.sp with
  | some sp =>
    if x.kind = .store ∧ x.passed then { bankWrite c (slotBase c x.slot + offSp) 4 ((sp + x.n) % 2 ^ 32) with spillRedir := c.spillRedir - 1 } else c
  | none => c

/-- When every member's stack access has its translation or its fault: the lowest member that traps disbands the gang, with no effect of
any member, or the accesses go on (R141, R339). -/
def gangSettles (k : Nat) (s : State) : State :=
  let xs := gangAccs s k
  if xs.any fun q => q.2.stage != .gang then s
  else
    match xs.find? fun q => q.2.got != 0 with
    | none => gangPasses k s
    | some q =>
      let c := coreOf s k
      let s := xs.foldl (fun s q => finishAcc q.1 s) s
      let s := (gangOf s k).foldl (fun s j => updSlot s j (curSlot (coreOf s j)) fun y => { y with blockedIn := none }) s
      takeTrap c.gangBase (curSlot (coreOf s c.gangBase)) (trapOf 5 (q.2.got - 1) q.2.va) (q.2.core - c.gangBase) 0 s

/-- The stack access of a gang's member that the gang still waits for. -/
def gangWaits (s : State) (x : Acc) : Bool := x.sp.isSome && !x.passed && (coreOf s x.core).gangSize != 0

/-- A translated access goes on; in a gang, when every member's has (R141). -/
def translated (id : Nat) (t : TlbEntry) (s : State) : State :=
  let x := accAt s id
  let x := { x with pa := paOf t x.va, page := t.kind, home := t.home }
  if gangWaits s x then gangSettles x.core (putAcc id { x with stage := .gang, got := 0 } s)
  else proceed id (putAcc id x s)

/-- An access ends in a trap of its task (R240, R349); a prefetch ends with no effect (R264). -/
def failAcc (id sub : Nat) (s : State) : State :=
  let x := accAt s id
  if x.kind = .pref then dropAcc id s
  else if gangWaits s x then gangSettles x.core (putAcc id { x with stage := .gang, got := sub + 1 } s)
  else
    let w := waitsFor s x
    let s := if w then updCore s x.core (unstack x) else s
    let s := if x.tag.isSome then ackTag id s else finishAcc id s
    if w then trapSlot x.core x.slot (trapOf 5 sub x.va) 0 s else s

/-- A translation ends (R240, R345): a recoverable fault is posted, the task waits. One of inv is not posted: R345 and R253 do not name it, and its
task takes XLATE subcode 1 at once (DESIGN CHOICE, log 79). -/
def translationEnds (id : Nat) (r : Translated) (s : State) : State :=
  let x := accAt s id
  match r with
  | .ok t => if (x.kind = .atomic ∨ x.kind = .wait) ∧ isWindow (paOf t x.va) then failAcc id 3 s else translated id t s
  | .migrating => s
  | .fault sub recoverable =>
    if x.kind.ofUnit then failUnit id (2 * sub + b2n recoverable) s
    else if x.kind ≠ .pref ∧ x.kind ≠ .inv ∧ sub = 1 ∧ recoverable then
      evAt s.cycle 3 .faultPost { a := accDie x, b := 0, c := id, d := if x.kind.cls = 0 then 1 else 2 } (putAcc id { x with stage := .fault } s)
    else failAcc id sub s

/-! Walks (R240 to R245). -/

/-- A unit's access that needs no translation starts. -/
def unitStart (x : Acc) (s : State) : Nat × State := let q := freshId s; (q.1, startPath q.1 (putAcc q.1 { x with blocks := false } q.2))

/-- The access that a walk began for, or the next that joined it. -/
def walkOwner (s : State) (w : Walk) : Acc := accAt s ((w.accs.find? fun id => (Table.find s.accs id).isSome).getD 0)

/-- The walk reads the entry of its level: an 8-byte read through the die's L2, 4 cycles after it has the table (R240, R242). -/
def walkRead (wid : Nat) (s : State) : State :=
  let w := Table.get {} s.walks wid
  let x := walkOwner s w
  let q := freshId s
  let s := { q.2 with walks := Table.set q.2.walks wid { w with read := some q.1 } }
  startPath q.1 (putAcc q.1
    { kind := .uread, core := x.core, place := w.die, pa := w.table + 8 * walkIndex x.va w.lev, n := 8, phys := true, lead := 40, blocks := false
      next := some (.tlbWalkFill, { a := w.die, b := wid, c := q.1 }) } s)

/-- The walk begins at the root (R240). -/
def walkBegin (wid : Nat) (s : State) : State :=
  let w := Table.get {} s.walks wid
  let x := walkOwner s w
  walkRead wid { s with walks := Table.set s.walks wid { w with runs := true, lev := 4, table := (accDom s x).root } }

/-- Walks that run on a die. -/
def walksRunning (s : State) (die : Nat) : Nat := s.walks.countP fun w => w.2.die == die && w.2.runs

/-- A miss joins the walk of its page on its die, or begins one, at most 64 of which run; the others wait in order (R245). -/
def joinWalk (id : Nat) (s : State) : State :=
  let x := accAt s id
  let die := accDie x
  let page := fld x.va 16 41
  match s.walks.find? fun w => w.2.die == die && w.2.page == page with
  | some w => { s with walks := Table.set s.walks w.1 { w.2 with accs := w.2.accs ++ [id] } }
  | none =>
    let q := freshId s
    let s := { q.2 with walks := Table.set q.2.walks q.1 { die := die, page := page, accs := [id] } }
    if walksRunning s die < 64 ∧ !(s.walks.any fun w => w.1 != q.1 && w.2.die == die && !w.2.runs) then walkBegin q.1 s else s

/-- The walk that has waited longest takes a free walker (R245). -/
def startQueued (die : Nat) (s : State) : State :=
  match s.walks.find? fun w => w.2.die == die && !w.2.runs with
  | none => s
  | some w => if 64 ≤ walksRunning s die then s else walkBegin w.1 s

/-- The device sets A, and D where asked, in a leaf by an atomic OR of its own, for an access (R241); next: who waits for it. -/
def setAD (id : Nat) (addr : Nat) (d : Bool) (next : Option (Instr × Args)) (s : State) : State :=
  let x := accAt s id
  (unitStart { kind := .uwrite, core := x.core, place := accDie x, va := x.va, priv := x.priv, pa := addr, n := 1, op := 1
               val := if d then 0xC0 else 0x40, phys := true, next := next } s).2

/-- A write that has re-read an entry whose D is 0 waits for the OR that sets it (R241). -/
def waitDirty (id : Nat) (t : TlbEntry) (s : State) : State :=
  setAD id t.leaf true (some (.dirtyReread, { a := (accAt s id).core, b := id, c := s.nextId, d := 1 })) s

/-- An OR for which nobody waits has met a NACK: the address is walked again, and the walk sets A and D in the leaf that it finds (R241, R373). -/
def orAgain (id : Nat) (s : State) : State :=
  let x := accAt s id
  let q := freshId (dropAcc id s)
  joinWalk q.1 (putAcc q.1 { kind := if x.val = 0xC0 then .uwrite else .uread, op := 3, core := x.core, place := x.place, va := x.va, priv := x.priv, blocks := false } q.2)

/-- The entry of an access, as its TLBs hold it. -/
def heldEntry (s : State) (x : Acc) : Option TlbEntry :=
  match findTlb (rodOf s (rodOfCore x.core)).tlb x.va with
  | some t => some t
  | none => findTlb (dieAt s (accDie x)).tlb x.va

/-- An access with an entry at hand: permission, then D, for which the leaf is read again (R240 to R242). -/
def useEntry (id : Nat) (t : TlbEntry) (s : State) : State :=
  let x := accAt s id
  match deniedEntry t x.kind.cls x.priv with
  | some sub => translationEnds id (.fault sub false) s
  | none =>
    if isWrite x.kind.cls && !t.d then
      let q := freshId s
      startPath q.1 (putAcc q.1
        { kind := .uread, core := x.core, place := accDie x, pa := t.leaf, n := 8, phys := true, lead := 40, blocks := false
          next := some (.dirtyReread, { a := x.core, b := id, c := q.1 }) } q.2)
    else translationEnds id (.ok t) s

/-- A write goes on: its re-read of the leaf (rid) has ended, or the OR that sets D (`set`) is performed. An entry that is gone meanwhile, or
a leaf whose line has moved, is walked again (R241, R246, R373). A re-read that meets MIG joins or starts a walk at once (R242, DESIGN
CHOICE, log 76). -/
def reread (id rid : Nat) (set : Bool) (s : State) : State :=
  let x := accAt s id
  let r := accAt s rid
  let s := dropAcc rid s
  match heldEntry s x with
  | none => joinWalk id s
  | some t =>
    if r.stage = .fault then joinWalk id s
    else if set then translationEnds id (.ok { t with d := true }) (markDirty (rodOfCore x.core) (accDie x) t.leaf x.va s)
    else
      match rereadResult r.got t x.va x.kind.cls x.priv with
      | .ok _ => waitDirty id t s
      | .migrating => joinWalk id s
      | e => translationEnds id e s

/-- The second-level lookup of an access, 12 cycles after its micro-TLB miss (R242, R243). -/
def secondLevel (id : Nat) (s : State) : State :=
  let x := accAt s id
  match l2Lookup (accDie x) x.va s with
  | some (t, s) => useEntry id t (fillMicro (rodOfCore x.core) t s)
  | none => joinWalk id s

/-- The leaf of a walk serves an access: it is denied, or the translation is installed for its rod and the access goes on, in the walk's fill
cycle (R240, R243 to R245). -/
def leafServes (die e addr lev id : Nat) (s : State) : State :=
  let x := accAt s id
  match leafResult e addr lev x.va x.kind.cls x.priv with
  | .ok t => translationEnds id (.ok t) (fillMicro (rodOfCore x.core) t (fillDieTlb die t s))
  | r => translationEnds id r s

/-- The accesses of a walk that its leaf does not deny, and whether one of them writes: D is then set (R240). -/
def leafOpens (s : State) (e : Nat) (ids : List Nat) : List Nat := ids.filter fun id => let x := accAt s id; (deniedLeaf e x.kind.cls x.priv).isNone
def leafWritten (s : State) (e : Nat) (ids : List Nat) : Bool := (leafOpens s e ids).any fun id => isWrite (accAt s id).kind.cls

/-- The walk ends for every access that joined it (R245): each has its fault, or the leaf, in which A, and D for a write, are set where they are 0
and the access is not denied; none waits for that OR (R240 to R242). -/
def walkEnds (wid : Nat) (serve : Nat → State → State) (a : List Nat → State → State) (s : State) : State :=
  let w := Table.get {} s.walks wid
  let ids := w.accs.filter fun id => (Table.find s.accs id).isSome
  let s := a ids { s with walks := Table.erase s.walks wid }
  evAt s.cycle 1 .walkStart { a := w.die } (ids.foldl (fun s id => serve id s) s)

/-- TLB_WALK_FILL: the walk has read an entry (R240): it reads the next table, ends in a fault or at its leaf, or repeats every 256 cycles
while the leaf migrates (R242). A read that a restart has overtaken is dropped (R246); one that met a NACK begins again (R373). -/
def walkFill (wid rid : Nat) (s : State) : State :=
  let r := accAt s rid
  let s := dropAcc rid s
  match Table.find s.walks wid with
  | none => s
  | some w =>
    if w.read ≠ some rid then s
    else if r.stage = .fault then walkBegin wid s
    else if !(w.accs.any fun id => (Table.find s.accs id).isSome) then walkEnds wid (fun _ s => s) (fun _ s => s) s
    else
      match entryStep r.got w.lev with
      | .fault v => walkEnds wid (fun id s => translationEnds id (.fault 1 v) s) (fun _ s => s) s
      | .table t => walkRead wid { s with walks := Table.set s.walks wid { w with table := t, lev := w.lev - 1 } }
      | .leaf =>
        if pteMig r.got then evAt (s.cycle + 256) 0 .migRewalk { a := w.die, b := wid } { s with walks := Table.set s.walks wid { w with read := none } }
        else
          let written := leafWritten s r.got (w.accs.filter fun id => (Table.find s.accs id).isSome)
          walkEnds wid (leafServes w.die (if written then Nat.lor r.got 0x80 else r.got) r.pa w.lev)
            (fun ids s =>
              match leafOpens s r.got ids with
              | [] => s
              | id :: _ => if pteA r.got && (pteD r.got || !written) then s else setAD id r.pa written none s) s

/-- Walks of a die that an invalidation concerns start again from the root (R246). -/
def restartWalks (mask : Nat) (hits : Nat → Bool) (s : State) : State :=
  (s.walks.filter fun w => bit mask w.2.die && w.2.runs && hits (w.2.page * 2 ^ 16)).foldl (fun s w => walkBegin w.1 s) s

/-- An access comes into being: outstanding, and instant-bound unless it is a prefetch (R255). -/
def newAcc (x : Acc) (s : State) : Nat × State :=
  let q := freshId s
  let s := putAcc q.1 x q.2
  let s := if x.kind = .pref then s else updCore s x.core fun c => { c with bound := c.bound + 1 }
  (q.1, if x.kind.returns then updSlot s x.core x.slot fun y => { y with outst := y.outst + 1 } else s)

/-- An access begins its translation at issue (R240, R242, R243). -/
def beginWalk (id : Nat) (s : State) : State :=
  let x := accAt s id
  match microLookup (rodOfCore x.core) x.va s with
  | some (t, s) => useEntry id t s
  | none => evAt (s.cycle + 12) 0 .walkStart { a := accDie x, b := id + 1 } s

def beginAcc (x : Acc) (s : State) : State := let q := newAcc x s; beginWalk q.1 q.2

/-- A unit's access begins its translation (R240); an address of more than 57 bits is a fault (R238). -/
def unitBegin (x : Acc) (s : State) : Nat × State :=
  let q := freshId s
  let s := putAcc q.1 { x with blocks := false } q.2
  (q.1, if 2 ^ 57 ≤ x.va then failUnit q.1 2 s else beginWalk q.1 s)

/-! Requests (R360 to R365). -/

/-- Dies that a request goes to beside the home: the predictor's, the hint or the leaf's HOME, never its own (R360, R361, R377). -/
def destDies (s : State) (x : Acc) : List Nat :=
  let line := lineOf x.pa
  let key := sliceOf line * 1024 + fld line 0 10
  let pred := if x.place = theHome then [] else Table.get [] (dieAt s x.place).pred key
  let h := if dieInDom (theDom s x.core) x.hint then x.hint else x.home
  let hint := if h < Config.dies then [h] else []
  (distinct (pred ++ hint)).filter (· != x.place)

/-- The predictor names at most two dies (R361). -/
def predict (die line other : Nat) (s : State) : State :=
  if theHome ≤ die ∨ theHome ≤ other ∨ die = other then s
  else
    let key := sliceOf line * 1024 + fld line 0 10
    updDie s die fun d => { d with pred := Table.set d.pred key ((other :: (Table.get [] d.pred key).filter (· != other)).take 2) }

/-- Cycles of an atomic's request to a place, and of its old value on the way back: with the 36 cycles to the own L2 they make the
minimum of Table 20.6. -/
def atomicLeg (a b : Nat) : Nat := if a = theHome ∨ b = theHome then 57 else 52

/-- Cycles of a request to a place (Table 20.6). -/
def requestLeg (x : Acc) (goal_ : Nat) : Nat :=
  if x.kind = .atomic ∧ !x.taken then atomicLeg x.place goal_ else legOf x.place goal_

/-- What a request asks for: a token and a sector of the line (0 to 3), all tokens (4), the performing of an atomic (5). -/
def askOf (x : Acc) : Nat := if x.kind = .atomic ∧ !x.taken then 5 else if x.kind.cls = 0 then sectorOf x.pa else 4

/-- An access sends its request to places after `lead` cycles more, and looks again 512 cycles after its issue, in `wait` cycles (R360,
R362). A request names its line, and what it asks for by whom; 8 more says that the home has had its sectors read from DRAM since (R370). -/
def sendTo (id lead wait : Nat) (places : List Nat) (s : State) : State :=
  let x := accAt s id
  let ask := askOf x
  let ev : Instr := if ask = 5 then .atomicRequestReceive else .tokenRequestReceive
  let s := places.foldl (fun s p =>
    evAt (s.cycle + lead + requestLeg x p + Config.slack s.free) 0 ev { a := p, b := id, c := lineOf x.pa, d := 16 * x.place + ask } (tick s)) s
  evAt (s.cycle + wait) 1 .requestReissue { a := x.core, b := id, c := x.born } s

/-- A first request (R360): its issue lies up to 36 cycles before its place is found to lack what it needs (the cycles to its L2), or is now
where the place is a holder that collects for an atomic (`lead` 36, R369) or a home where the access begins. A load that fills its block finds
it 3 cycles earlier. A holder and the home collect for an atomic by a write request of their own. -/
def request (id lead : Nat) (s : State) : State :=
  let x := accAt s id
  let x := { x with stage := .tokens, born := s.cycle, tries := 0
                    taken := x.taken || (x.kind == .atomic && (x.place == theHome || ownerPlace s (lineOf x.pa) == some x.place)) }
  let s := putAcc id x s
  sendTo id lead (if lead = 0 then 512 - min x.lead 36 + fillTime x (coreOf s x.core) else 512) ((if x.place = theHome then [] else [theHome]) ++ destDies s x) s

/-- New value of an atomic (Table 12.5). -/
def amoValue (op n old b cmp : Nat) : Nat :=
  match op with
  | 0x08 => (old + b) % 2 ^ n
  | 0x09 => Nat.land old b
  | 0x0A => Nat.lor old b
  | 0x0B => Nat.xor old b
  | 0x0C => if sgn n b < sgn n old then b else old
  | 0x0D => if sgn n old < sgn n b then b else old
  | 0x0E => min b old
  | 0x0F => max b old
  | 0x10 => b
  | _ => if old = cmp then b else old

/-- The history with a die appended, its oldest entry dropped (R369). -/
def histAdd (h : List Nat) (die : Nat) : List Nat := (h ++ [die]).drop (h.length + 1 - 4)
def setHist (place line : Nat) (h : List Nat) (s : State) : State :=
  if place = theHome then updHome s line fun x => { x with hist := h }
  else updDie s place fun d => { d with l2 := Table.set d.l2 line { Table.get {} d.l2 line with hist := h } }

/-- The domain of core k reads a line: if it is poisoned, the error is detected (R353). -/
def poisonRead (k line : Nat) (s : State) : State :=
  if (homeOf s line).poison then evAt s.cycle 3 .uncorrectableError { a := k, b := 5 } s else s

/-- The bytes that a unit's write leaves at its address, from those that stand there. -/
def unitBytes (x : Acc) (old : Nat) : List Byte :=
  match x.op with
  | 1 => toBytes x.n (Nat.lor old x.val)
  | 4 => toBytes 1 (overHalf 1 old x.val)
  | 5 => toBytes 1 (overHalf 2 old x.val)
  | _ => toBytes x.n x.val

/-- Blocks of L1 that a fill of a core is being written to. -/
def blocksInUse (s : State) (k : Nat) : List Nat :=
  (s.accs.filter fun q => q.2.core == k && q.2.block.isSome).map fun q => q.2.block.getD 0

/-- The fill of a block of L1 with a sector begins: its rows are deposited in 3 cycles (R231). Fills of the sector with bytes read before do not
enter (R277). -/
def beginFill (id : Nat) (data : Mem) (gen from_ : Nat) (s : State) : State :=
  let x := accAt s id
  let s := putAcc id x (dropFills x.core (x.pa / 256) false s)
  match l1Take (coreOf s x.core) (blocksInUse s x.core) with
  | none => if x.kind = .pref then dropAcc id s else putAcc id { x with fill := false } s
  | some (b, c) =>
    let s := putAcc id { x with sector := data, gen := gen, block := some b, rows := 0 } (setCore s x.core c)
    (upTo 8).foldl (fun s j => evAt (from_ + j / 3) 2 .l1Fill { a := x.core, b := id, c := j } s) s

/-- An access performs at a place that may do so (R362, R367, R369). Its value or acknowledgement is then on its way: from the home of a
line that its die could not hold, 57 cycles (R234). -/
def performAt (id place : Nat) (s : State) : State :=
  let x := accAt s id
  let line := lineOf x.pa
  let sec := sectorOf x.pa
  let s := if x.kind = .store ∨ x.kind = .uwrite then s else poisonRead x.core line s
  let extra := if place = theHome ∧ !x.bypass then dramExtra s line sec else 0
  let s := if place = theHome then llcTouch line (2 ^ sec) s else touchL2 place line s
  let back := if place = theHome then 57 else 0
  let s := if x.kind.ofUnit ∨ x.kind = .pref then s else updCore s x.core l1Heard
  match x.kind with
  | .store =>
    let s := overtake x.core (x.pa / 256) (writeAt place x.pa (toBytes x.n x.val) s)
    let s := updCore s x.core fun c => { c with dirty := addNew c.dirty line }
    accEv (s.cycle + back) 2 .storeAck id (putAcc id { accAt s id with stage := .back } s)
  | .atomic =>
    let old := readAt s place x.pa x.n
    let s := if x.op = 0x11 ∧ old ≠ x.cmp then s else
      overtake x.core (x.pa / 256) (writeAt place x.pa (toBytes x.n (amoValue x.op (8 * x.n) old x.val x.cmp)) s)
    let s := updCore s x.core fun c => { c with dirty := addNew c.dirty line }
    let s := if x.migr then s else setHist place line (histAdd (lineHist s line) (dieOfCore x.core)) s
    let t := if place = dieOfCore x.core then 0 else atomicLeg place (dieOfCore x.core) + extra
    accEv (s.cycle + t) 2 .globalLoadArrival id (putAcc id { x with stage := .back, got := old } s)
  | .uwrite =>
    let s := if x.op = 2 then s else shutReads line (writeAt place x.pa (unitBytes x (readAt s place x.pa x.n)) s)
    unitDone id (if x.op = 0 ∧ x.n = 1024 then healLine line s else s)
  | .uread => unitDone id (putAcc id { x with got := readLine s x.pa x.n } s)
  | _ =>
    let c := coreOf s x.core
    let base := x.pa % 1024 / 256 * 256
    let data := Memory.slice (lineBytes s line) base (base + 256)
    let fills := x.fill && fillsL1 x c && !(x.kind == .pref && (l1Find c (x.pa / 256)).isSome)
    if x.kind = .pref then (if fills then beginFill id data x.gen (s.cycle + back) (putAcc id { x with stage := .back } s) else dropAcc id s)
    else
      let s := putAcc id { x with stage := .back, got := readLine s x.pa x.n, fill := fills } s
      let s := if fills then beginFill id data c.l1Gen (s.cycle + back) s else updCore s x.core (l1Bar (x.pa / 256))
      accEv (s.cycle + back + fillTime x c) 2 .globalLoadArrival id s

/-- The place holds what the access needs (R359). -/
def satisfied (s : State) (x : Acc) : Bool :=
  let line := lineOf x.pa
  if x.kind.cls = 0 then mayRead s x.place line (2 ^ sectorOf x.pa) else mayWrite s x.place line

/-- Reads that joined an older one receive its bytes; those behind it issue their own (R265). -/
def serveJoined (id : Nat) (s : State) : State :=
  s.accs.foldl (fun s (q : Nat × Acc) =>
    if q.2.older = id ∧ q.2.stage = .joined then performAt q.1 q.2.place s
    else if q.2.older = id ∧ q.2.stage = .behind then accEv (s.cycle + 1) 0 .mshrReissue q.1 s
    else s) s

/-- The home of a moved line answers a request with a NACK (R373). -/
def nackAt (id after : Nat) (s : State) : State := accEv (s.cycle + after) 3 .nackReceive id (putAcc id { accAt s id with stage := .tokens } s)

/-- An access whose die has every way of the set pinned is served at the line's home (R234). -/
def passBy (id : Nat) (s : State) : State :=
  let x := accAt s id
  let s := if x.kind.ofUnit || x.kind == .pref then s else updCore s x.core fun c => { c with pinBypass := c.pinBypass + 1 }
  let t := 57 + dramExtra s (lineOf x.pa) (sectorOf x.pa) + Config.slack s.free
  accEv (s.cycle + t) 2 (pathEv x) id (putAcc id { x with bypass := true, stage := .path, place := theHome } (tick s))

/-- Every way of the set of a line is pinned at the place, a die, that would hold it (R234). -/
def noWay (s : State) (place line : Nat) : Bool := place != theHome && victimOf (dieAt s place) line == some none

/-- An access at its place, its L2 or the home: it performs, joins an older read, passes a pinned set by, or sends its request (R234, R250,
R265, R360). -/
def atL2 (id : Nat) (s : State) : State :=
  let x := accAt s id
  let line := lineOf x.pa
  if x.place = theHome ∧ (homeOf s line).moved then nackAt id 57 s
  else if satisfied s x then serveJoined id (performAt id x.place s)
  else
    let older := if x.kind.cls = 0 then s.accs.find? fun q => q.1 != id && q.2.stage == .tokens && q.2.kind.cls == 0 && q.2.place == x.place && q.2.pa / 256 == x.pa / 256
      else none
    match older with
    | some q => putAcc id { x with stage := if q.2.shut then .behind else .joined, older := q.1 } s
    | none => if noWay s x.place line then passBy id s else request id 0 s

/-- An access whose request waits at a place performs if it can now (R362); at the home, a moved line answers with a NACK (R373). -/
def retryAt (id : Nat) (s : State) : State :=
  match Table.find s.accs id with
  | none => s
  | some x =>
    if x.stage ≠ .tokens then s
    else if x.place = theHome ∧ (homeOf s (lineOf x.pa)).moved then nackAt id 57 s
    else if satisfied s x then serveJoined id (performAt id x.place s)
    else if noWay s x.place (lineOf x.pa) then passBy id s
    else s

/-- Tokens of a line at a place other than the winner's go to the winner, in at most `most` cycles (R365); the home of a moved line sends none
(R373). -/
def forwardTokens (place line most : Nat) (s : State) : State :=
  match winnerOf s line with
  | none => s
  | some d =>
    if d = place ∨ place = theHome ∧ (homeOf s line).moved then s
    else match answerAll s place line d with
      | none => s
      | some (m, s) => sendMsg m (between 1 most s) (tick (llcRead place line m.valid s))

/-- Tokens arrive: every access that waits at the place for the line looks again, in order; then they go on to a winner, within 8 cycles
(R362, R365, log 60). -/
def tokensArrive (place line : Nat) (s : State) : State :=
  let s := (s.accs.filter fun q => q.2.stage == .tokens && q.2.place == place && lineOf q.2.pa == line).foldl (fun s q => retryAt q.1 s) s
  forwardTokens place line 8 s

/-! Pools and windows. -/

/-- Offset of the move block in a pool, and of its fields (R371). -/
def moveBlock : Nat := 0x310000

/-- Reserved bytes of the move block read as zero (Table 20.7, R14). -/
def moveReserved : List (Nat × Nat) := [(0x16, 2), (0x20, 32)]

/-- A program's store to a pool. A store to the move block has no effect while STATUS is 1; one whose bytes include OP starts an
operation, and STATUS is 1 from then on (R371). STATUS and LINES take the bytes that a store gives them, since Table 20.7 names no access type
(DESIGN CHOICE, log 80). -/
def poolStore (die off n v : Nat) (s : State) : State :=
  if off + n ≤ moveBlock ∨ moveBlock + 64 ≤ off then poolWrite die off n v s
  else if poolRead s die (moveBlock + 0x15) 1 = 1 then s
  else
    let s := poolWrite die off n v s
    let s := moveReserved.foldl (fun s r => if poolRead s die (moveBlock + r.1) r.2 = 0 then s else poolWrite die (moveBlock + r.1) r.2 0 s) s
    let op := poolRead s die (moveBlock + 0x14) 1
    if moveBlock + 0x14 < off ∨ off + n ≤ moveBlock + 0x14 then s
    else if op = 1 then evAt (s.cycle + 1) 0 .move { a := die } (poolWrite die (moveBlock + 0x15) 1 1 s)
    else if op = 2 then evAt (s.cycle + 1) 0 .releaseMovedMarks { a := die } (poolWrite die (moveBlock + 0x15) 1 1 s)
    else s

/-- An access performs at a pool (R227, R260). -/
def atPool (id : Nat) (s : State) : State :=
  let x := accAt s id
  let die := poolDie x.pa
  let off := poolOff x.pa
  let old := poolRead s die off x.n
  match x.kind with
  | .store => poolStore die off x.n x.val s
  | .uwrite => if x.op = 2 then s else poolStore die off x.n (fromBytes (unitBytes x old)) s
  | .atomic =>
    let s := putAcc id { x with got := old } s
    if x.op = 0x11 ∧ old ≠ x.cmp then s else poolStore die off x.n (amoValue x.op (8 * x.n) old x.val x.cmp) s
  | _ => putAcc id { x with got := old } s

/-- An access through a host or peer window (R382); what a peer returns is outside this module (log 6). -/
def atWindow (id : Nat) (s : State) : State :=
  let x := accAt s id
  let old := Memory.read s.host (x.pa - windowBase) x.n
  if x.kind = .store then (if isHost x.pa then hostWrite (x.pa - windowBase) x.n x.val s else s)
  else if x.kind = .uwrite then (if isHost x.pa ∧ x.op ≠ 2 then hostWrite (x.pa - windowBase) x.n (fromBytes (unitBytes x old)) s else s)
  else if isHost x.pa then putAcc id { x with got := old } s
  else putAcc id { x with got := fromBytes ((upTo x.n).map fun i => Config.peerByte (s.free * 2 ^ 16 + i)) } (tick s)

end Sys2Proof.Machine
end

