-- ==== Sys2Proof/Machine/Memory.lean ====
section
/-!
DEFINITION. Memory: the global and shared memory instructions and their events (12 R248 to R266), push and pop (01 R32 to R35), the token
protocol (20 R358 to R369) and page moves (R371 to R373).
-/

namespace Sys2Proof.Machine

/-! Issue. -/

/-- The checks of a global access that fall in its issue cycle (R248): alignment, the address, an entry at hand. -/
def globalTrap (s : State) (va n : Nat) (cls : AccClass) (sole : Bool) (c : Core) : Option Trap :=
  if va % n ≠ 0 then some (trapOf 3 3 va)
  else if 2 ^ 57 ≤ va then some (trapOf 5 1 va)
  else match findTlb (rodOf s (rodOfCore s.cur)).tlb va with
    | none => none
    | some t =>
      match deniedEntry t cls (isPriv c) with
      | some sub => some (trapOf 5 sub va)
      | none => if sole && isWindow (paOf t va) then some (trapOf 5 3 va) else none

/-- An access of the current task of core s.cur, with who issues it filled in. -/
def issuedBy (s : State) (x : Acc) : Acc :=
  let c := coreOf s s.cur
  let i := curSlot c
  { x with core := s.cur, slot := i, task := (slotAt c i).task, priv := isPriv c, place := dieOfCore s.cur }

/-- The current task blocks in an instruction with WAIT 6, and its access begins (R253). -/
def startAcc (ins : Instr) (x : Acc) (rd : List Nat) (s : State) : State :=
  let x := issuedBy s x
  beginAcc x (blockIn ins 6 1 rd id s)

/-- Access kinds in the order of func7 [2:0] (R79): bytes, sign, destination type. -/
def kindBytes (k : Nat) : Nat := nth 32 [1, 1, 2, 2, 4, 8, 32] k
def kindSigned (k : Nat) : Nat := if k = 1 ∨ k = 3 then 1 else 0
def kindReg (k : Nat) : Nat := if k = 5 then 1 else if k = 6 then 2 else 0

/-- The kind of a size and sign (Table 12.1), or the trap of R250. -/
def globalKind (store : Bool) (sx z d : Nat) : TrapOr Nat :=
  if z = 3 then (if sx = 1 then .ok 6 else if 8 ≤ d then .error (illeg 2) else .ok 5)
  else if sx = 1 ∧ (store ∨ z = 2) then .error (illeg 2)
  else .ok (if z = 2 then 4 else 2 * z + sx)

/-- A register of a type as a value, and its row. -/
def regVal (c : Core) (t r : Nat) : Nat := if t = 2 then rdV c r else rdR c t r
def regRow (c : Core) (t r : Nat) : Nat := if t = 2 then rowV c r else rowR c t r

/-- A load of kind k at an address (R250, R251). -/
def loadCheck (s : State) (va k : Nat) (c : Core) : Option Trap := globalTrap s va (kindBytes k) 0 false c
def loadAct (ins : Instr) (va hint k a d : Nat) (s : State) : State :=
  let c := coreOf s s.cur
  startAcc ins { kind := .load, va := va, n := kindBytes k, hint := hint, dest := kindReg k, reg := d, sx := kindSigned k } [rowX c a] s

/-- A store of kind k (R250, R251). -/
def storeCheck (s : State) (va k : Nat) (c : Core) : Option Trap := globalTrap s va (kindBytes k) 1 false c
def storeAct (ins : Instr) (va hint k a d : Nat) (s : State) : State :=
  let c := coreOf s s.cur
  let n := kindBytes k
  startAcc ins { kind := .store, va := va, n := n, hint := hint, val := regVal c (kindReg k) d % 2 ^ (8 * n) } [rowX c a, regRow c (kindReg k) d] s

/-- va of format M (R248). -/
def globalAddr (c : Core) (o n a : Nat) : Nat := pat 64 ((rdX c a : Int) + sgn 14 o * n)

/-- gld and gst of any form: the trap of its kind or of its address, or its action. -/
def gldRun (o sx z a d : Nat) (s : State) : Out :=
  match globalKind false sx z d with
  | .error t => runGlobal (fun _ _ => some t) id s
  | .ok k =>
    let va (c : Core) := globalAddr c o (kindBytes k) a
    runGlobal (fun c _ => loadCheck s (va c) k c) (fun s => loadAct (.gld o sx z a d) (va (coreOf s s.cur)) 64 k a d s) s
def gstRun (o sx z a d : Nat) (s : State) : Out :=
  match globalKind true sx z d with
  | .error t => runGlobal (fun _ _ => some t) id s
  | .ok k =>
    let va (c : Core) := globalAddr c o (kindBytes k) a
    runGlobal (fun c _ => storeCheck s (va c) k c) (fun s => storeAct (.gst o sx z a d) (va (coreOf s s.cur)) 64 k a d s) s

/-- The field traps of the hinted forms (R252, Table 3.17). -/
def hintTrap (store : Bool) (h k d : Nat) : Option Trap :=
  if k = 5 ∧ 8 ≤ d then some (illeg 2) else if 40 ≤ h ∨ (store ∧ (k = 1 ∨ k = 3)) then some (illeg 4) else none
def gldHomeRun (h k a d : Nat) (s : State) : Out :=
  runGlobal (fun c _ => match hintTrap false h k d with | some t => some t | none => loadCheck s (rdX c a) k c)
    (fun s => loadAct (.gldHome h k a d) (rdX (coreOf s s.cur) a) h k a d s) s
def gstHomeRun (h k a d : Nat) (s : State) : Out :=
  runGlobal (fun c _ => match hintTrap true h k d with | some t => some t | none => storeCheck s (rdX c a) k c)
    (fun s => storeAct (.gstHome h k a d) (rdX (coreOf s s.cur) a) h k a d s) s

/-! Shared accesses (R224, R258). -/

/-- INFO of a shared access (Table 18.4). -/
def sharedInfo (core addr : Nat) : Nat := addr % 2 ^ 15 + core % 2 ^ 20 * 2 ^ 32

/-- The checks of a shared access of n bytes (R224, R248). -/
def sharedTrap (s : State) (core addr n : Nat) (c : Core) : Option Trap :=
  let x := slotAt c (curSlot c)
  let info := sharedInfo core addr
  if addr % n ≠ 0 then some (trapOf 3 1 info)
  else if x.setSize = 0 ∨ core < x.setBase ∨ x.setBase + x.setSize ≤ core then some (trapOf 4 6 info)
  else
    let t := coreOf s core
    if addr < t.lmspill.toNat ∨ t.lmscr.toNat ≤ addr then some (trapOf 4 7 info) else none

/-- The reserved bits of pairs, of a width w (R258, R259): bit 3 of each field that names an x pair. -/
def pairTrap (w : Nat) (fields : List Nat) : Option Trap := if w = 1 ∧ fields.any (fun r => decide (8 ≤ r)) then some (illeg 2) else none

def accBytes (w : Nat) : Nat := if w = 0 then 4 else 8

/-- A shared access goes to its target: no translation; a tag first if it takes one (R253, R254, R258). -/
def startSharedAcc (ins : Instr) (x : Acc) (rd : List Nat) (s : State) : State :=
  let x := { issuedBy s x with place := x.place, page := 2 }
  let q := newAcc x (blockIn ins 6 1 rd id s)
  takeTag q.1 q.2

def sldRun (w b a d : Nat) (s : State) : Out :=
  runGlobal (fun c _ => match pairTrap w [d] with | some t => some t | none => sharedTrap s (rdW c a) (rdW c b) (accBytes w) c)
    (fun s =>
      let c := coreOf s s.cur
      startSharedAcc (.sld w b a d) { kind := .sld, va := rdW c b, n := accBytes w, dest := w, reg := d, place := rdW c a } [rowW c a, rowW c b] s) s
def sstRun (w b a d : Nat) (s : State) : Out :=
  runGlobal (fun c _ => match pairTrap w [d] with | some t => some t | none => sharedTrap s (rdW c a) (rdW c b) (accBytes w) c)
    (fun s =>
      let c := coreOf s s.cur
      startSharedAcc (.sst w b a d) { kind := .sst, va := rdW c b, n := accBytes w, val := rdR c w d, place := rdW c a }
        [rowW c a, rowW c b, rowR c w d] s) s

/-! Atomics and wait (R259 to R261). -/

/-- An atomic of function op (Table 12.5). -/
def amoRun (ins : Instr) (op m sx w b a d : Nat) (s : State) : Out :=
  let n := accBytes w
  let rows (c : Core) (r : Nat) : List Nat := if op = 0x11 then [rowR c w r] else []
  if sx = 0 then
    let bad := if 8 ≤ a ∨ m ≠ 0 then some (illeg 2) else pairTrap w [b, d]
    runGlobal (fun c _ => match bad with | some t => some t | none => globalTrap s (rdX c a) n 2 true c)
      (fun s =>
        let c := coreOf s s.cur
        startAcc ins { kind := .atomic, va := rdX c a, n := n, op := op, val := rdR c w b, cmp := rdR c w d, dest := w, reg := d }
          ([rowX c a, rowR c w b] ++ rows c d) s) s
  else
    runGlobal (fun c _ => match pairTrap w [m, d] with | some t => some t | none => sharedTrap s (rdW c a) (rdW c b) n c)
      (fun s =>
        let c := coreOf s s.cur
        startSharedAcc ins { kind := .satomic, va := rdW c b, n := n, op := op, val := rdR c w m, cmp := rdR c w d, dest := w, reg := d, place := rdW c a }
          ([rowW c a, rowW c b, rowR c w m] ++ rows c d) s) s

def waitRun (k w b a d : Nat) (s : State) : Out :=
  let bad := match pairTrap w [b, d] with | some t => some t | none => if 6 ≤ k then some (illeg 4) else none
  runGlobal (fun c _ => match bad with | some t => some t | none => globalTrap s (rdX c a) (accBytes w) 0 true c)
    (fun s =>
      let c := coreOf s s.cur
      startAcc (.wait k w b a d) { kind := .wait, va := rdX c a, n := accBytes w, op := k, val := rdR c w b, dest := w, reg := d }
        [rowX c a, rowR c w b] s) s

/-! Fences and hints (R262 to R264). -/

/-- What an acquire does to its core (Table 12.9). -/
def acquire (scope : Nat) (c : Core) : Core := if scope = 0 then c else l1Clear c

def fenceRun (scope kind : Nat) (s : State) : Out :=
  runGlobal (fun _ _ => if kind = 3 ∨ 6 ≤ scope then some (illeg 4) else none)
    (fun s =>
      let k := s.cur
      if kind = 0 then complete 4 (fun c => { core := acquire scope c }) s
      else
        let s := blockIn (.fence scope kind) 6 1 [] (fun x => { x with opA := (coreOf s k).wseq.toNat, opB := 0 }) s
        wakeFences k (updCore s k fun c => { c with bound := c.bound + 1 })) s

/-- The release of slot i has completed: WACK has reached its tag, and the lines of a system scope are clean (R262). -/
def fenceDone (k i : Nat) (s : State) : State :=
  match (slotAt (coreOf s k) i).blockedIn with
  | some (.fence scope kind) =>
    let s := if scope = 5 then updCore ((coreOf s k).dirty.foldl (fun s l => cleanLine l s) s) k fun c => { c with dirty := [] } else s
    unbind k (completeWait k i 4 (fun _ => []) (if kind = 2 then acquire scope else id) s)
  | _ => s

/-- pref: complete at once; its sector is asked for (R264). -/
def prefRun (l a : Nat) (s : State) : Out :=
  runGlobal (fun _ _ => none)
    (fun s =>
      let c := coreOf s s.cur
      let x := issuedBy s { kind := .pref, va := rdX c a, n := 1, op := l, blocks := false, gen := c.l1Gen, fill := true }
      let s := complete 4 (fun c => { core := c, rd := [rowX c a] }) s
      if 2 ^ 57 ≤ x.va then s else beginAcc x s) s

def clnRun (a : Nat) (s : State) : Out :=
  runGlobal (fun c _ => globalTrap s (rdX c a) 1 0 false c)
    (fun s => let c := coreOf s s.cur; startAcc (.cln a) { kind := .cln, va := rdX c a, n := 1 } [rowX c a] s) s

def invRun (a : Nat) (s : State) : Out :=
  runGlobal (fun c _ => globalTrap s (rdX c a) 1 0 false c)
    (fun s => let c := coreOf s s.cur; startAcc (.inv a) { kind := .inv, va := rdX c a, n := 1 } [rowX c a] s) s

/-! push and pop (R32, R33, R103, R104). -/

/-- The access of a redirected push or pop of core k (R33). -/
def stackAcc (s : State) (ins : Instr) (k va sp : Nat) : Acc :=
  let c := coreOf s k
  let i := curSlot c
  let who : Acc := { core := k, slot := i, task := (slotAt c i).task, priv := isPriv c, place := dieOfCore k, va := va, sp := some sp }
  match ins with
  | .push t a => { who with kind := .store, n := stackBytes t, val := rdR c t a }
  | .pop t d => { who with kind := .load, n := stackBytes t, dest := t, reg := d }
  | _ => who

/-- The trap of a redirected access in its issue cycle (R248): no reserved address, an entry at hand. -/
def stackCheck (s : State) (ins : Instr) (k : Nat) : Option Trap :=
  let c := coreOf s k
  match stackTry ins c with
  | .error t => some t
  | .ok (.here _) => none
  | .ok (.far va _) => globalTrap { s with cur := k } va 1 (match ins with | .push _ _ => 1 | _ => 0) false c

/-- The rows that a redirected push reads. -/
def stackRows (c : Core) : Instr → List Nat
  | .push t a => [rowR c t a]
  | _ => []

/-- The first member of a gang that traps, with its trap. -/
def gangTrap (s : State) (ins : Instr) : List Nat → Nat → Option (Nat × Trap)
  | [], _ => none
  | k :: ks, n => match stackCheck s ins k with | some t => some (n, t) | none => gangTrap s ins ks (n + 1)

/-- Some member's access is redirected. -/
def anyFar (s : State) (ins : Instr) (ks : List Nat) : Bool :=
  ks.any fun k => match stackTry ins (coreOf s k) with | .ok (.far _ _) => true | _ => false

/-- A push or pop of a core or of a gang (R141, R196): local on every member, or with redirected accesses that all pass first. -/
def stackRun (ins : Instr) (s : State) : Out :=
  let k := s.cur
  let ks := gangOf s k
  let gang := decide ((coreOf s k).gangSize ≠ 0)
  match gangTrap s ins ks 0 with
  | some (n, t) => .next (takeTrap k (curSlot (coreOf s k)) t n 0 s)
  | none =>
    if !anyFar s ins ks then runLocal .members 4 (ordering (stackLocal ins)) s
    else
      let xs := ks.filterMap fun j => match stackTry ins (coreOf s j) with | .ok (.far va sp) => some (stackAcc s ins j va sp) | _ => none
      let s := blockIn ins 6 1 (stackRows (coreOf s k) ins) id s
      let s := if gang then ks.foldl (fun s j => updSlot s j (curSlot (coreOf s j)) fun y => { y with blockedIn := some ins }) s else s
      let q := xs.foldl (fun (q : List Nat × State) x => let r := newAcc x q.2; (q.1 ++ [r.1], r.2)) ([], s)
      .next (q.1.foldl (fun s id => if (Table.find s.accs id).isSome then beginWalk id s else s) q.2)

/-! Arrival (R251, R254, R260, R261). -/

/-- A read's value as its register receives it. -/
def gotReg (x : Acc) : Nat := if x.sx = 1 then sext (8 * x.n) 32 x.got else x.got

/-- What the completion of an atomic or a wait does to its core's L1: invalidations, and the order of R272 (R268, R269). -/
def completionL1 (x : Acc) (s : State) : State :=
  let s := if x.kind = .atomic ∨ x.kind = .satomic then updCore s x.core (l1Order ∘ l1Heard) else s
  if (x.kind = .atomic ∨ x.kind = .wait) ∧ x.page = 1 then updCore s x.core l1Clear
  else if x.kind = .wait then l1Invalidate x.core (x.pa / 256) s
  else s

/-- A wait reads again: a load of its address, translated anew, and behind writes of its own core to its sector (R248, R256, R261). -/
def waitReads (id : Nat) (s : State) : State :=
  let x := accAt s id
  beginWalk id (updCore (putAcc id { x with stage := .walk, again := false } s) x.core fun c => setSt c x.slot 3 3 6)

/-- A wait whose condition does not hold blocks with WAIT 2 until its sector is written or 1,024 cycles pass (R261). -/
def waitSleeps (id : Nat) (s : State) : State :=
  let x := accAt s id
  if x.again then waitReads id s
  else
    let s := putAcc id { x with stage := .sleep, naps := x.naps + 1 } s
    let s := unbind x.core (updCore s x.core fun c => setSt c x.slot 3 3 2)
    evAt (s.cycle + 1024) 0 .waitTimeout { a := x.core, b := id, c := x.naps + 1 } s

/-- Address of the row that a value is deposited into, if there is one (R225, R251). -/
def destAddr (c : Core) (x : Acc) : Option Nat :=
  let b := slotBase c x.slot
  match x.dest with
  | 0 => if x.reg = 0 then none else some (b + 4 * x.reg)
  | 1 => some (b + 8 * x.reg)
  | 2 => some (b + 0x100 + 32 * x.reg)
  | _ => none

/-- A load's value follows the rows of its fill (R231), and its deposit the port of the destination's bank (R225). -/
def arrivalWaits (s : State) (x : Acc) : Bool :=
  let c := coreOf s x.core
  (x.fill && x.block.isSome && x.rows != 255 && c.l1Gen == x.gen) ||
    match destAddr c x with | some a => !portFree c s.cycle a | none => false

/-- A value arrives: it is deposited, the access is complete and its task goes on (R251, R253); a redirected pop moves SP (R104). -/
def arrive_ (id : Nat) (s : State) : State :=
  let x := accAt s id
  if x.kind = .wait ∧ !waitTest (8 * x.n) x.op x.got x.val then waitSleeps id s
  else if arrivalWaits s x then accEv (s.cycle + 1) 2 .globalLoadArrival id (putAcc id { x with stage := .back } s)
  else
    let s := updCore (completionL1 x s) x.core fun c =>
      let c := match destAddr c x with | some a => takePort c s.cycle a | none => c
      stackDone s.cycle x (depositReg c x.slot x.dest x.reg (gotReg x))
    let s := releaseTask id (fun c => c) s
    if x.tag.isSome then ackTag id s else finishAcc id s

/-- An access reaches what serves it: its own L2, the home past a pinned set, a pool or a window (R227, R234, R249, R382). -/
def reaches (id : Nat) (s : State) : State :=
  let x := accAt s id
  if isDram x.pa then atL2 id s
  else
    let s := if isPool x.pa then atPool id s else atWindow id s
    let s := if x.kind.ofUnit ∨ x.kind = .pref then s else updCore s x.core l1Heard
    if x.kind.ofUnit then unitDone id s else if x.kind.returns then arrive_ id s else ackTag id (releaseTask id (fun c => c) s)

/-- GLOBAL_LOAD_ARRIVAL of access b of core a (R251). -/
def loadArrival (id : Nat) (s : State) : State :=
  match Table.find s.accs id with
  | none => s
  | some x => match x.stage with | .path => reaches id s | .back => arrive_ id s | _ => s

/-- STORE_ACK of access b of core a (R254). -/
def storeAcked (id : Nat) (s : State) : State :=
  match Table.find s.accs id with
  | none => s
  | some x =>
    match x.stage with
    | .back => ackTag id (releaseTask id (fun c => c) s)
    | .path => if x.kind = .cln then ackTag id (if isDram x.pa then cleanLine (lineOf x.pa) s else s) else reaches id s
    | _ => s

/-- A shared access may be applied in this cycle: no earlier one of its core to the target is still due, and the bank of the row accepts what it
writes (R225, R258). -/
def depositMay (s : State) (id : Nat) : Bool :=
  let x := accAt s id
  (x.kind == .sld || portFree (coreOf s x.place) s.cycle x.va) &&
    !(s.accs.any fun q => decide (q.1 < id) && q.2.core == x.core && q.2.place == x.place &&
      (q.2.kind == .sst || q.2.kind == .satomic || q.2.kind == .sld) && q.2.stage == .path)

/-- A shared access is applied to its target (R225, R258, R260). -/
def depositArrives (id : Nat) (s : State) : State :=
  match Table.find s.accs id with
  | none => s
  | some x =>
    if !depositMay s id then
      (if x.kind = .sld then pushAt (s.cycle + 1) 1 (2 * Config.allCores) (.ev .depositApply { a := x.core, b := id }) s
       else accEv (s.cycle + 1) 2 .depositApply id s)
    else
      let s := updCore (updCore s x.place l1Heard) x.core l1Heard
      if x.kind = .sld then
        accEv s.cycle 2 .globalLoadArrival id (putAcc id { x with stage := .back, got := lmRead (coreOf s x.place) x.va x.n } s)
      else if x.kind = .sst then ackTag id (updCore s x.place fun c => bankWrite (takePort c s.cycle x.va) x.va x.n x.val)
      else
        let old := lmRead (coreOf s x.place) x.va x.n
        let s := updCore s x.place fun c => takePort c s.cycle x.va
        let s := if x.op = 0x11 ∧ old ≠ x.cmp then s else updCore s x.place fun c => bankWrite c x.va x.n (amoValue x.op (8 * x.n) old x.val x.cmp)
        arrive_ id (putAcc id { x with stage := .back, got := old } s)

/-- One row of a fill is deposited (R231), when its bank's port takes it (R225); dropped when the L1 was invalidated since, or an own write or
invalidation has overtaken it (R230, R264). The last row makes the block present, as a new one while its bytes are still current (R272). -/
def fillRow (id row : Nat) (s : State) : State :=
  match Table.find s.accs id with
  | none => s
  | some x =>
    match x.block with
    | none => s
    | some b =>
      let c := coreOf s x.core
      let a := l1Addr c b + 32 * row
      if !x.fill || c.l1Gen != x.gen then (if x.kind = .pref then dropAcc id s else s)
      else if !portFree c s.cycle a then evAt (s.cycle + 1) 2 .l1Fill { a := x.core, b := id, c := row } s
      else
        let rows := Nat.lor x.rows (2 ^ row)
        let c := takePort (l1Row c b row x.sector) s.cycle a
        let sec := x.pa / 256
        let now := fromBytes (Memory.bytes x.sector 0 256) == readLine s (sec * 256) 256
        let c := if rows = 255 then { c with l1 := (sec, b) :: c.l1.filter fun q => q.1 != sec && q.2 != b
                                             l1Age := if now then Table.erase c.l1Age sec else (l1Bar sec c).l1Age } else c
        let s := setCore s x.core c
        if rows = 255 ∧ x.kind = .pref then dropAcc id s else putAcc id { x with rows := rows } s

/-- PREF_FILL: a prefetch reaches its L2 and goes on as a read does (R264): the sector is read into the L2, and into L1 where asked for. -/
def prefArrives (id : Nat) (s : State) : State :=
  match Table.find s.accs id with
  | none => s
  | some x => if x.stage = .path then atL2 id s else s

/-- An access in a stage does something; any other is left as it is. -/
def ifStage (st : AccStage) (f : Nat → State → State) (id : Nat) (s : State) : State :=
  match Table.find s.accs id with
  | none => s
  | some x => if x.stage = st then f id s else s

/-! Tokens (R360 to R369). -/

/-- Cycles in which the home has the sectors of an answer read from DRAM before it sends it: none for a request that has waited for them
(R370). -/
def homeReads (s : State) (place line mask ask : Nat) : Nat := if place = theHome ∧ ask < 8 then dramTime s line mask else 0

/-- A place receives a request for a line: a token and a sector (ask 0 to 3) or all tokens (4), for another place (Table 20.2). The home of
a moved line answers with a NACK (R373); the winner of a module round keeps its tokens (R365). The home first has DRAM read what the LLC lacks,
and answers with what it then holds (R370). -/
def requestReceive (place id line ask goal_ : Nat) (s : State) : State :=
  if place = theHome ∧ (homeOf s line).moved then
    let x := accAt s id
    evAt (s.cycle + legOf place goal_ + Config.slack s.free) 0 .nackReceive { a := x.core, b := id } (tick s)
  else if winnerOf s line = some place then predict place line goal_ s
  else
    match (if ask % 8 < 4 then answerRead s place line (2 ^ (ask % 8)) goal_ else answerAll s place line goal_) with
    | none => predict place line goal_ s
    | some (m, s') =>
      let t := homeReads s place line m.valid ask
      if t ≠ 0 then evAt (s.cycle + t) 0 .tokenRequestReceive { a := place, b := id, c := line, d := 16 * goal_ + ask + 8 } (predict place line goal_ s)
      else sendMsg m (legOf place goal_ + msgSlack s) (tick (llcRead place line m.valid (predict place line goal_ s')))

/-- Accesses that wait at a die for a line that the die had no way for pass the set by (R234). -/
def passWaiting (place line : Nat) (s : State) : State :=
  if !noWay s place line then s
  else (s.accs.filter fun q => q.2.stage == .tokens && q.2.place == place && lineOf q.2.pa == line).foldl (fun s q => passBy q.1 s) s

/-- A token message arrives (R359, R360, R365). A move goes on once the home has marked its line (R372). -/
def messageReceive (place mid : Nat) (s : State) : State :=
  match Table.find s.msgs mid with
  | none => s
  | some m =>
    let s := { s with msgs := Table.erase s.msgs mid }
    let s := passWaiting place m.line (tokensArrive place m.line (predict place m.line m.from_ (giveTokens place m s)))
    if place = theHome ∧ m.moved then evAt s.cycle 3 .moveLineStep { a := m.from_, b := 3, c := m.line } s else s

/-- An atomic request of a place for a line reaches another; the holder of the owner token answers (R361, R369). Tokens that migrate bear the
history with the requester's die; a standing winner keeps them (R365). -/
def atomicReceive (place id line ask goal_ : Nat) (s : State) : State :=
  let s := predict place line goal_ s
  match Table.find s.accs id with
  | none => s
  | some x =>
    if x.stage ≠ .tokens ∨ x.taken ∨ lineOf x.pa ≠ line then s
    else if place = theHome ∧ (homeOf s line).moved then
      evAt (s.cycle + legOf place x.place + Config.slack s.free) 0 .nackReceive { a := x.core, b := id } (tick s)
    else if ownerPlace s line ≠ some place then s
    else
      let die := dieOfCore x.core
      let h := histAdd (lineHist s line) die
      if 3 ≤ h.count die then
        match (if winnerOf s line = some place then none else answerAll s place line x.place) with
        | none => s
        | some (m, s') =>
          let t := homeReads s place line m.valid ask
          if t ≠ 0 then evAt (s.cycle + t) 0 .atomicRequestReceive { a := place, b := id, c := line, d := 16 * goal_ + ask + 8 } s
          else
            sendMsg { m with hist := h } (legOf place x.place - (if place = theHome then 0 else 15) + msgSlack s)
              (tick (llcRead place line m.valid (putAcc id { x with taken := true, migr := true } s')))
      else
        let x := { x with taken := true, place := place }
        let s := putAcc id x s
        if satisfied s x then performAt id place s else request id 36 s

/-- The die whose entry of the module rounds an access uses: its place, or at the home that of its core (R364, log 62). -/
def roundDie (x : Acc) : Nat := if x.place < theHome then x.place else accDie x % Config.dies

/-- A request unsatisfied for 512 cycles: reissued twice to the home and all dies, then persistent (R362 to R364). A die that has lost its
last way for the line passes the set by (R234). -/
def reissue (id born : Nat) (s : State) : State :=
  match Table.find s.accs id with
  | none => s
  | some x =>
    if x.stage ≠ .tokens ∨ x.born ≠ born then s
    else if noWay s x.place (lineOf x.pa) then passBy id s
    else if x.tries < 2 then
      let s := putAcc id { x with tries := x.tries + 1 } s
      sendTo id 36 512 ((upTo 41).filter (· != x.place)) s
    else updDie s (roundDie x) fun d => { d with persist := addNew d.persist id }

/-- An access still waits for tokens. -/
def stillWaits (s : State) (id : Nat) : Bool := match Table.find s.accs id with | some x => x.stage == .tokens | none => false

/-- The entry that a die offers to a module round (R363, R364). -/
def roundEntry (s : State) (die : Nat) : Option Persist :=
  let d := dieAt s die
  let id := match d.active with
    | some id => if stillWaits s id then some id else none
    | none => d.persist.find? (stillWaits s)
  id.map fun id => { die := die, line := lineOf (accAt s id).pa, acc := id, place := (accAt s id).place }

/-- MODULE_ROUND_SAMPLE j: the entries of every die are sampled; the result is due 96 cycles later, with the next sample (R363). -/
def moduleSample (j : Nat) (s : State) : State :=
  let es := (s.dies.map Prod.fst).filterMap (roundEntry s)
  let s := { s with modSample := es }
  evAt (96 * (j + 1)) 0 .moduleRoundResult { a := j } (evAt (96 * (j + 1)) 3 .moduleRoundSample { a := j + 1 } s)

/-- MODULE_ROUND_RESULT j: requests are activated and deactivated, and every holder sends its tokens to the winners (R363 to R365); the home
of a moved line answers with a NACK (R373). -/
def moduleResult (j : Nat) (s : State) : State :=
  let es := s.modSample
  let s := { s with modRound := j, modActive := es }
  let s := (s.dies.map Prod.fst).foldl (fun s die =>
    let mine := (es.find? fun e => e.die == die).map Persist.acc
    updDie s die fun d => { d with active := mine, persist := d.persist.filter fun id => some id != mine && stillWaits s id }) s
  (distinct (es.map Persist.line)).foldl (fun s line =>
    if (homeOf s line).moved then
      es.foldl (fun s e => if e.line = line then evAt s.cycle 3 .nackReceive { a := (accAt s e.acc).core, b := e.acc } s else s) s
    else (theHome :: s.dies.map Prod.fst).foldl (fun s p => forwardTokens p line 64 s) s) s

/-- NACK_RECEIVE: the access is translated again from the root and starts anew at the frame that walk gives (R373); a unit's read or write of
a physical address has failed, but the OR of a walk is done at the leaf of a new one (R241). -/
def nacked (id : Nat) (s : State) : State :=
  let x := accAt s id
  let s := s.accs.foldl (fun s q =>
    if q.2.older = id ∧ (q.2.stage = .joined ∨ q.2.stage = .behind) then accEv s.cycle 3 .nackReceive q.1 (putAcc q.1 { q.2 with stage := .tokens } s) else s) s
  if x.phys then (if x.next.isNone ∧ x.op = 1 then orAgain id s else failUnit id 0 s)
  else joinWalk id (putAcc id { x with stage := .walk, taken := false, migr := false, bypass := false, place := if atHome x then theHome else accDie x } s)

/-! Page moves (R371 to R373). -/

def moveField (s : State) (die off n : Nat) : Nat := poolRead s die (moveBlock + off) n
def setMove (die off n v : Nat) (s : State) : State := poolWrite die (moveBlock + off) n v s

/-- The device refuses the operation (R371). -/
def moveRefused (op old new pages : Nat) : Bool :=
  let span := pages * 2 ^ 16
  let bad (a : Nat) : Bool := a % 2 ^ 16 != 0 || decide (dramTop < a + span)
  pages == 0 || decide (16384 < pages) || bad old || (op == 1 && (bad new || (decide (old < new + span) && decide (new < old + span))))

/-- The move unit of a die asks for all tokens of a line, as a write request (R372); step says what it does with them. -/
def moveCollect (die line step : Nat) (s : State) : State :=
  (unitStart { kind := .uwrite, core := moveUnit die, place := die, pa := line * 1024, n := 1, op := 2, phys := true
               next := some (.moveLineStep, { a := die, b := step, c := s.nextId }) } s).2

/-- The operation of a move block starts with its first line, or STATUS is 3 where it is refused (R371). -/
def moveStart (op die : Nat) (s : State) : State :=
  let old := moveField s die 0 8
  let new := moveField s die 8 8
  let pages := moveField s die 0x10 4
  if moveRefused op old new pages then setMove die 0x15 1 3 s
  else
    let s := updDie (setMove die 0x18 8 0 (setMove die 0x15 1 1 s)) die fun d => { d with move := some { op := op, old := old / 1024, new := new / 1024, lines := pages * 64 } }
    moveCollect die (old / 1024) 0 s

/-- An operation is done: STATUS 2, OP 0 (R372). -/
def moveDone (die : Nat) (s : State) : State :=
  setMove die 0x14 1 0 (setMove die 0x15 1 2 (updDie s die fun d => { d with move := none }))

/-- All tokens of a line go from a place to its home, which marks the line moved if asked to (R372). -/
def returnLine (place line : Nat) (moved : Bool) (die : Nat) (s : State) : State :=
  if place = theHome then
    let s := if moved then updHome s line fun h => { h with moved := true } else s
    if moved then evAt s.cycle 3 .moveLineStep { a := die, b := 3, c := line } s else s
  else
    match answerAll s place line theHome with
    | none => s
    | some (m, s) => sendMsg { m with moved := moved, from_ := die } (legOf place theHome + msgSlack s) (tick s)

/-- A line of a move is copied: the bytes of the old line are written into the new one, whose tokens return to its home, and the old line's
tokens go to theirs (R372). -/
def moveLine (die old new : Nat) (po pn : Nat) (s : State) : State :=
  let data := lineBytes s old
  let s := poisonRead (die * Config.coresPerDie) old s
  let s := shutReads new (healLine new (writeAt pn (new * 1024) (Memory.bytes data 0 1024) s))
  returnLine po old true die (returnLine pn new false die s)

/-- MOVE_LINE_STEP: the move unit holds the old line's tokens (0), or the new line's too (1) and the line is copied, unless the old line's
have gone on to a persistent request meanwhile; the old line is marked and the next line follows (3) (R372). A request that the home answers
with a NACK is made again. -/
def moveStep (die step id : Nat) (s : State) : State :=
  match (dieAt s die).move with
  | none => if step < 2 then dropAcc id s else s
  | some o =>
    let old := o.old + o.next
    let new := o.new + o.next
    if step = 3 then
      if id ≠ old then s else
      let s := setMove die 0x18 8 (o.next + 1) s
      if o.lines ≤ o.next + 1 then moveDone die s
      else moveCollect die (old + 1) 0 (updDie s die fun d => { d with move := some { o with next := o.next + 1 } })
    else
      let x := accAt s id
      let s := dropAcc id s
      if x.stage = .fault then moveCollect die (if step = 0 then old else new) step s
      else if step = 0 then moveCollect die new 1 s
      else
        match [die, theHome].find? fun p => mayWrite s p old with
        | none => moveCollect die old 0 s
        | some po => if mayWrite s x.place new then moveLine die old new po x.place s else moveCollect die new 1 s

/-- Waiting accesses at a home look again once its line has no moved mark. -/
def releaseMarks (die : Nat) (s : State) : State :=
  let old := moveField s die 0 8
  let pages := moveField s die 0x10 4
  if moveRefused 2 old 0 pages then setMove die 0x15 1 3 s
  else
    let lo := old / 1024
    let n := pages * 64
    let s := { s with homes := s.homes.map fun q => if lo ≤ q.1 ∧ q.1 < lo + n then (q.1, { q.2 with moved := false }) else q }
    moveDone die (setMove die 0x18 8 n s)

/-- PUSH (R32). -/
def execPush (t a : Nat) (s : State) : Out :=
  stackRun (.push t a) s

/-- POP (R32). -/
def execPop (t d : Nat) (s : State) : Out :=
  stackRun (.pop t d) s

/-- GLD (R250). -/
def execGld (o sx z a d : Nat) (s : State) : Out :=
  gldRun o sx z a d s

/-- GST (R250). -/
def execGst (o sx z a d : Nat) (s : State) : Out :=
  gstRun o sx z a d s

/-- GLD_HOME (R252). -/
def execGldHome (h k a d : Nat) (s : State) : Out :=
  gldHomeRun h k a d s

/-- GST_HOME (R252). -/
def execGstHome (h k a d : Nat) (s : State) : Out :=
  gstHomeRun h k a d s

/-- SLD (R258). -/
def execSld (w b a d : Nat) (s : State) : Out :=
  sldRun w b a d s

/-- SST (R258). -/
def execSst (w b a d : Nat) (s : State) : Out :=
  sstRun w b a d s

/-- AMO_ADD (R260). -/
def execAmoAdd (m sx w b a d : Nat) (s : State) : Out :=
  amoRun (.amoAdd m sx w b a d) 0x08 m sx w b a d s

/-- AMO_AND (R260). -/
def execAmoAnd (m sx w b a d : Nat) (s : State) : Out :=
  amoRun (.amoAnd m sx w b a d) 0x09 m sx w b a d s

/-- AMO_OR (R260). -/
def execAmoOr (m sx w b a d : Nat) (s : State) : Out :=
  amoRun (.amoOr m sx w b a d) 0x0A m sx w b a d s

/-- AMO_XOR (R260). -/
def execAmoXor (m sx w b a d : Nat) (s : State) : Out :=
  amoRun (.amoXor m sx w b a d) 0x0B m sx w b a d s

/-- AMO_MIN (R260). -/
def execAmoMin (m sx w b a d : Nat) (s : State) : Out :=
  amoRun (.amoMin m sx w b a d) 0x0C m sx w b a d s

/-- AMO_MAX (R260). -/
def execAmoMax (m sx w b a d : Nat) (s : State) : Out :=
  amoRun (.amoMax m sx w b a d) 0x0D m sx w b a d s

/-- AMO_MINN (R260). -/
def execAmoMinn (m sx w b a d : Nat) (s : State) : Out :=
  amoRun (.amoMinn m sx w b a d) 0x0E m sx w b a d s

/-- AMO_MAXN (R260). -/
def execAmoMaxn (m sx w b a d : Nat) (s : State) : Out :=
  amoRun (.amoMaxn m sx w b a d) 0x0F m sx w b a d s

/-- AMO_SWAP (R260). -/
def execAmoSwap (m sx w b a d : Nat) (s : State) : Out :=
  amoRun (.amoSwap m sx w b a d) 0x10 m sx w b a d s

/-- AMO_CAS (R260). -/
def execAmoCas (m sx w b a d : Nat) (s : State) : Out :=
  amoRun (.amoCas m sx w b a d) 0x11 m sx w b a d s

/-- WAIT (R261). -/
def execWait (c w b a d : Nat) (s : State) : Out :=
  waitRun c w b a d s

/-- FENCE (R262). -/
def execFence (sx k : Nat) (s : State) : Out :=
  fenceRun sx k s

/-- PREF (R264). -/
def execPref (l a : Nat) (s : State) : Out :=
  prefRun l a s

/-- CLN (R264). -/
def execCln (a : Nat) (s : State) : Out :=
  clnRun a s

/-- INV (R264). -/
def execInv (a : Nat) (s : State) : Out :=
  invRun a s

/-- INV_ALL (R264). -/
def execInvAll (s : State) : Out :=
  runLocal .nobody 4 (fun c _ => eff (l1Clear c) [] [] 1) s

/-- DEPOSIT_APPLY (R225). -/
def execDepositApply (s : State) : Out :=
  .next (depositArrives s.args.b s)

/-- GLOBAL_LOAD_ARRIVAL (R251). -/
def execGlobalLoadArrival (s : State) : Out :=
  .next (loadArrival s.args.b s)

/-- L1_FILL (R231). -/
def execL1Fill (s : State) : Out :=
  .next (fillRow s.args.b s.args.c s)

/-- PREF_FILL (R264). -/
def execPrefFill (s : State) : Out :=
  .next (prefArrives s.args.b s)

/-- STORE_ACK (R254). -/
def execStoreAck (s : State) : Out :=
  .next (storeAcked s.args.b s)

/-- TAG_ROOM_RESUME (R255). -/
def execTagRoomResume (s : State) : Out :=
  .next (ifStage .tag takeTag s.args.b s)

/-- LOAD_AFTER_STORE_ACK (R256). -/
def execLoadAfterStoreAck (s : State) : Out :=
  .next (ifStage .own orderAcc s.args.b s)

/-- SO_ACCESS_START (R257). -/
def execSoAccessStart (s : State) : Out :=
  .next (ifStage .order orderAcc s.args.b s)

/-- FENCE_RELEASE_DONE (R262). -/
def execFenceReleaseDone (s : State) : Out :=
  .next (fenceDone s.args.a s.args.b s)

/-- WAIT_WAKE_ON_WRITE (R261). -/
def execWaitWakeOnWrite (s : State) : Out :=
  .next (ifStage .path waitReads s.args.b s)

/-- WAIT_TIMEOUT (R261). -/
def execWaitTimeout (s : State) : Out :=
  .next (if (accAt s s.args.b).stage = .sleep ∧ (accAt s s.args.b).naps = s.args.c then waitReads s.args.b (updCore s s.args.a fun c => { c with bound := c.bound + 1 }) else s)

/-- MSHR_REISSUE (R265). -/
def execMshrReissue (s : State) : Out :=
  .next (ifStage .behind atL2 s.args.b s)

/-- WALK_START (R245). -/
def execWalkStart (s : State) : Out :=
  .next (if s.args.b = 0 then startQueued s.args.a s else ifStage .walk (fun id s => secondLevel id s) (s.args.b - 1) s)

/-- TLB_WALK_FILL (R245). -/
def execTlbWalkFill (s : State) : Out :=
  .next (walkFill s.args.b s.args.c s)

/-- MIG_REWALK (R242). -/
def execMigRewalk (s : State) : Out :=
  .next (match Table.find s.walks s.args.b with | some w => if w.read.isNone then walkBegin s.args.b s else s | none => s)

/-- DIRTY_REREAD (R241). -/
def execDirtyReread (s : State) : Out :=
  .next (if (Table.find s.accs s.args.b).isSome && (accAt s s.args.b).stage == .walk then reread s.args.b s.args.c (s.args.d == 1) s else dropAcc s.args.c s)

/-- TOKEN_REQUEST_RECEIVE (R360). -/
def execTokenRequestReceive (s : State) : Out :=
  .next (requestReceive s.args.a s.args.b s.args.c (s.args.d % 16) (s.args.d / 16) s)

/-- TOKEN_MESSAGE_RECEIVE (R359). -/
def execTokenMessageReceive (s : State) : Out :=
  .next (messageReceive s.args.a s.args.b s)

/-- REQUEST_REISSUE (R362). -/
def execRequestReissue (s : State) : Out :=
  .next (reissue s.args.b s.args.c s)

/-- MODULE_ROUND_SAMPLE (R363). -/
def execModuleRoundSample (s : State) : Out :=
  .next (moduleSample s.args.a s)

/-- MODULE_ROUND_RESULT (R363). -/
def execModuleRoundResult (s : State) : Out :=
  .next (moduleResult s.args.a s)

/-- ATOMIC_REQUEST_RECEIVE (R369). -/
def execAtomicRequestReceive (s : State) : Out :=
  .next (atomicReceive s.args.a s.args.b s.args.c (s.args.d % 16) (s.args.d / 16) s)

/-- NACK_RECEIVE (R373). -/
def execNackReceive (s : State) : Out :=
  .next (ifStage .tokens nacked s.args.b s)

/-- MOVE (R372). -/
def execMove (s : State) : Out :=
  .next (moveStart 1 s.args.a s)

/-- RELEASE_MOVED_MARKS (R373). -/
def execReleaseMovedMarks (s : State) : Out :=
  .next (releaseMarks s.args.a s)

/-- MOVE_LINE_STEP (R372). -/
def execMoveLineStep (s : State) : Out :=
  .next (moveStep s.args.a s.args.b s.args.c s)

end Sys2Proof.Machine
end

