-- ==== Sys2Proof/Machine/Jobs.lean ====
section
/-!
DEFINITION. Jobs: what the jobs of the engines share (14 R283 to R292, 15 R307 to R310, R324): issue, queues, fences, writes in flight,
fault records, completion.
-/

namespace Sys2Proof.Machine

/-! Queues (R283): 0 copy, 1 matrix, 2 barista. -/

def queueOf (c : Core) (q : Nat) : List Job := nth [] c.jobs q
def setJobs (q : Nat) (js : List Job) (c : Core) : Core := { c with jobs := setNth [] c.jobs q js }

/-- The job at the head of a queue: the only one that is performed (R290). -/
def headJob (s : State) (k q : Nat) : Option Job := (queueOf (coreOf s k) q).head?

/-- The head of a queue replaced. -/
def putHead (k q : Nat) (j : Job) (s : State) : State :=
  updCore s k fun c => setJobs q (j :: (queueOf c q).drop 1) c

/-- Completion counter, fault record address and word i of a job's descriptors (R308). -/
def dsc (j : Job) (i : Nat) : Nat := nth 0 j.desc i
def jobCtr (j : Job) : Nat := fld (dsc j 0) 0 32
def jobRec (j : Job) : Nat := fld (dsc j 0) 32 32

/-- Jobs of core k that a job waits for have completed (R290, R324). -/
def fencesPassed (s : State) (k : Nat) (j : Job) : Bool :=
  j.after.all fun q =>
    let d := (q.2 + 2 ^ 32 - nth 0 (coreOf s k).jobDone q.1) % 2 ^ 32
    d == 0 || decide (2 ^ 31 ≤ d)

/-! Turns of the units. -/

/-- The copy unit of a rod looks at its queues in a cycle, after the cores' issue (R298). -/
def copyTurnAt (cycle rod : Nat) (s : State) : State :=
  pushAt (max cycle s.cycle) 1 (2 * Config.allCores + rod) (.ev .copySectorTurn { a := rod }) s

/-- The matrix engine of a rod looks at its queues in a cycle. -/
def fetchTurnAt (cycle rod : Nat) (s : State) : State :=
  pushAt (max cycle s.cycle) 1 (2 * Config.allCores + rod) (.ev .tileFetch { a := rod }) s

/-- The request at the head of the barista queue of core k goes out to its barista (R304). -/
def postHead (k : Nat) (s : State) : State :=
  match headJob s k 2 with
  | none => s
  | some j =>
    if j.started || !fencesPassed s k j then s
    else evAt (s.cycle + atLeast 1 s) 0 .baristaRingEnter { a := k, b := j.id, c := j.dom } (tick (putHead k 2 { j with started := true } s))

/-- Every queue of core k goes on. -/
def wakeQueues (k : Nat) (s : State) : State :=
  let s := if (headJob s k 0).isSome then copyTurnAt (s.cycle + 1) (rodOfCore k) s else s
  let s := if (headJob s k 1).isSome then fetchTurnAt (s.cycle + 1) (rodOfCore k) s else s
  postHead k s

/-! Issue (R309). -/

/-- The checks of every job of c descriptors from en: register count, reserved bits, counter, record (R309). -/
def jobTrap (d : Domain) (x : Core) (e c : Nat) (bad : List Nat → Bool) : Option Trap :=
  if 8 < e + c then some (illeg 4)
  else
    let ds := (upTo c).map fun i => rdE x (e + i)
    let w := nth 0 ds 0
    let r := fld w 32 32
    if bad ds then some (illeg 4)
    else if !counterOk d (fld w 0 32) then some (illeg 4)
    else if r ≠ 0 ∧ (!counterOk d r ∨ ctrOff r % 64 ≠ 0) then some (illeg 4)
    else none

/-- First cycle in which a unit may begin a job that takes its entry in a cycle (R298, R299). -/
def jobSince (j : Job) (cycle : Nat) : Nat := if j.kind ≤ 3 then cycle + 6 else if j.kind = 4 then cycle + 2 else cycle

/-- Queue of a kind of job. -/
def kindQueue (kind : Nat) : Nat := if kind ≤ 3 then 0 else kind - 3

/-- A job takes an entry, with the next identifier (R285, R292). -/
def enterJob (k : Nat) (j : Job) (s : State) : State :=
  let q := kindQueue j.kind
  let c := coreOf s k
  let id := (nth 0 c.jobCount q + 1) % 2 ^ 32
  let j := { j with id := id, after := nth [] c.fences q, since := jobSince j s.cycle }
  let s := setCore s k { setJobs q (queueOf c q ++ [j]) c with jobCount := setNth 0 c.jobCount q id, bound := c.bound + (if j.free then 0 else 1) }
  let rod := rodOfCore k
  match q with
  | 0 => copyTurnAt j.since rod s
  | 1 => fetchTurnAt (s.cycle + 1) rod s
  | _ => postHead k s

/-- The rows a job instruction reads (R330). -/
def jobRows (x : Core) (e c a : Nat) : List Nat := (upTo c).map (fun i => rowE x (e + i)) ++ [rowW x a]

/-- The job that an instruction of the current task forms (R309, R310). -/
def newJob (s : State) (kind e c a f p r : Nat) (more : List Nat) : Job :=
  let x := coreOf s s.cur
  { kind := kind, core := s.cur, dom := (theDom s s.cur).number, desc := (upTo c).map (fun i => rdE x (e + i)) ++ more, inc := rdW x a
    free := f == 1, prog := p == 1, tr := r == 1, priv := isPriv x }

/-- A job instruction takes its entry, or blocks until it has one (R284, R309). -/
def jobAct (ins : Instr) (j : Job) (e c a d : Nat) (s : State) : State :=
  let k := s.cur
  let q := kindQueue j.kind
  let x := coreOf s k
  if (queueOf x q).length < 4 ∧ (nth [] x.jobWait q).isEmpty then
    let id := (nth 0 x.jobCount q + 1) % 2 ^ 32
    enterJob k j (complete 4 (fun x => { core := wrW x d id, rd := jobRows x e c a, wr := rowsW x d, cost := 2 }) s)
  else
    let s := blockIn ins 6 1 (jobRows x e c a) id s
    updCore s k fun x => { x with bound := x.bound + 1, jobWait := setNth [] x.jobWait q (nth [] x.jobWait q ++ [(curSlot x, j)]) }

/-- Destination register of a job instruction. -/
def jobDest : Instr → Nat
  | .cpSend _ _ _ _ _ d | .cpPut _ _ _ _ _ d | .cpRl _ _ _ _ _ d | .cpHalo _ _ _ _ _ d | .mxMm _ _ _ d | .mcPost _ _ _ _ d => d
  | _ => 0

/-- Blocked issuers of a queue take its free entries in the order in which they blocked (R284), at the cost of an entry taken (R330). -/
def takeEntries (k q : Nat) : Nat → State → State
  | 0, s => s
  | n + 1, s =>
    let c := coreOf s k
    match nth [] c.jobWait q with
    | [] => s
    | (i, j) :: rest =>
      if 4 ≤ (queueOf c q).length then s
      else
        let s := unbind k (setCore s k { c with jobWait := setNth [] c.jobWait q rest })
        match (slotAt c i).blockedIn with
        | none => takeEntries k q n s
        | some ins =>
          let id := (nth 0 c.jobCount q + 1) % 2 ^ 32
          takeEntries k q n (completeWait k i 4 (fun c => rowsW c (jobDest ins)) (fun c => wrW c (jobDest ins) id) (payWake k 2 (enterJob k j s)))

/-! Accesses of an engine. -/

/-- The access of an engine that performs a job of core k: the event that goes on names it (R240, R295, R300). -/
def unitOf (k : Nat) (priv : Bool) (ev : Instr) (a : Args) (s : State) : Acc :=
  { core := k, place := dieOfCore k, priv := priv, next := some (ev, { a with d := s.nextId + 1 }) }

/-- The engine asks for the translation of an address, of a class of access (R240, R295). -/
def askPage (k : Nat) (priv : Bool) (cls : AccClass) (ev : Instr) (a : Args) (va : Nat) (s : State) : Nat × State :=
  unitBegin { unitOf k priv ev a s with kind := if cls = 0 then .uread else .uwrite, op := 3, va := va, n := 1 } s

/-- What an engine keeps of a translation: the page, its frame, its HOME. -/
def frameOf (x : Acc) : Nat × Nat × Nat := (x.va / 2 ^ 16, x.pa / 2 ^ 16 * 2 ^ 16, x.home)

/-- Physical address of a virtual one through the frames, and HOME of its page. -/
def framePa (frames : List (Nat × Nat × Nat)) (va : Nat) : Nat :=
  match frames.find? fun q => q.1 == va / 2 ^ 16 with | some q => q.2.1 + va % 2 ^ 16 | none => 0
def frameHome (frames : List (Nat × Nat × Nat)) (va : Nat) : Nat :=
  match frames.find? fun q => q.1 == va / 2 ^ 16 with | some q => q.2.2 | none => 64

/-- The accesses asked for one after another, by identifier. -/
def askAll {α : Type} (ask : α → State → Nat × State) (l : List α) (s : State) : List Nat × State :=
  l.foldl (fun q x => let r := ask x q.2; (q.1 ++ [r.1], r.2)) ([], s)

/-! Writes in flight. -/

/-- Cycles of a deposit from core k to core t: Table 0.2 within the deck; minima to other decks and dies (R298). -/
def depositTime (k t : Nat) (s : State) : Nat :=
  if k = t then 1 else if k / 128 = t / 128 then 3 else if k / 512 = t / 512 then 5 else atLeast (if dieOfCore k = dieOfCore t then 40 else 100) s

/-- Number of bytes of a write, and its value. -/
def Wr.value (w : Wr) : Nat := fromBytes w.data

/-- Deposit of a write into a core, through the port of its bank (R225). -/
def depositWr (c : Core) (cycle : Nat) (w : Wr) : Core :=
  bankWrite (takePort c cycle w.addr) w.addr w.data.length (overHalf w.half (lmRead c w.addr w.data.length) w.value)

/-- A write of a job waits for the port of its row's bank (R225). -/
def portBusy (s : State) (w : Wr) : Bool := w.kind == 0 && decide (w.unit < Config.cores) && !portFree (coreOf s w.unit) s.cycle w.addr

/-- A write of job j lands: the state after it, or the code of Table 14.2 (R295, R297, R313). A write past the address space of a pool or
a core is one outside it. -/
def landWr (j : Job) (w : Wr) (s : State) : Except Nat State :=
  let d := theDom s j.core
  let n := w.data.length
  match w.kind with
  | 0 =>
    if !dieInDom d (dieOfCore w.unit) then .error 4
    else
      let c := coreOf s w.unit
      if w.addr < c.lmspill.toNat ∨ c.lmscr.toNat < w.addr + n then .error 5 else .ok (setCore s w.unit (l1Heard (depositWr c s.cycle w)))
  | 1 =>
    if !dieInDom d w.unit then .error 4
    else if 2 ^ 26 < w.addr + n ∨ (w.addr < 0x400000 ∧ !j.priv) then .error 6
    else .ok (poolStore w.unit w.addr n (overHalf w.half (poolRead s w.unit w.addr n) w.value) s)
  | 3 => if w.unit = s.module ∨ !Config.peerAccepts s.free then .error 8 else .ok (tick s)
  | _ => .ok (ctrAdd w.unit 1 s)

/-- An earlier flight of the job has still to write where this write goes: writes to one place land in the order in which they left (R328). -/
def behindEarlier (s : State) (id : Nat) (f : Flight) (w : Wr) : Bool :=
  s.flights.any fun q => decide (q.1 < id) && q.2.core == f.core && q.2.queue == f.queue && q.2.jobId == f.jobId &&
    q.2.writes.any fun v => v.2.kind == w.kind && v.2.unit == w.unit && v.2.addr == w.addr

/-- The writes of a flight that are due: the state with them, what is left, and a code if one failed. -/
def landDue (j : Job) (id : Nat) (f : Flight) : List (Nat × Wr) → State → State × List (Nat × Wr) × Nat
  | [], s => (s, [], 0)
  | w :: ws, s =>
    if s.cycle < w.1 ∨ portBusy s w.2 ∨ behindEarlier s id f w.2 then
      let q := landDue j id f ws s
      (q.1, (max w.1 (s.cycle + 1), w.2) :: q.2.1, q.2.2)
    else
      match landWr j w.2 s with
      | .ok s => landDue j id f ws s
      | .error e => (s, w :: ws, e)

/-- The writes of a flight that are due land; a write whose port is taken follows in the next cycle (R225). The code, if one failed. -/
def landFlight (j : Job) (id : Nat) (f : Flight) (ev : Instr) (a : Args) (s : State) : State × Nat :=
  let q := landDue j id f f.writes s
  let s := { q.1 with flights := Table.set q.1.flights id { f with writes := q.2.1 } }
  (if q.2.2 = 0 ∧ q.2.1.any (fun w => w.1 == s.cycle + 1) then engineAt (s.cycle + 1) f.core ev a s else s, q.2.2)

/-- A write of a flight to global memory leaves, to reach the L2 36 cycles after a cycle or later (R295, R300). -/
def sendWrite (f : Flight) (priv : Bool) (ev : Instr) (a : Args) (w : Nat × Wr) (s : State) : Nat × State :=
  unitStart { unitOf f.core priv ev a s with
    kind := .uwrite, va := w.2.unit, pa := framePa f.frames w.2.unit, home := frameHome f.frames w.2.unit, n := w.2.data.length
    val := w.2.value, op := if w.2.half = 0 then 0 else 3 + w.2.half, page := 2, lead := 36 + (w.1 - s.cycle) } s

/-- A flight leaves, `late` cycles after the times of its writes: those to global memory as accesses, the others in an event of each cycle in
which one lands. -/
def flyOut (id late : Nat) (priv : Bool) (ev : Instr) (a : Args) (s : State) : State :=
  match Table.find s.flights id with
  | none => s
  | some f =>
    let ws := f.writes.map fun w => (w.1 + late, w.2)
    let near := ws.filter fun w => w.2.kind != 2
    let q := askAll (sendWrite f priv ev a) (ws.filter fun w => w.2.kind == 2) s
    let s := { q.2 with flights := Table.set q.2.flights id { f with writes := near, trans := false, wait := f.wait ++ q.1 } }
    (distinct (near.map Prod.fst)).foldl (fun s t => engineAt t f.core ev a s) s

/-- A flight comes into being. -/
def newFlight (f : Flight) (s : State) : Nat × State := let q := freshId s; (q.1, { q.2 with flights := Table.set q.2.flights q.1 f })

/-- An access of a flight has ended (R287). -/
def endWait (id acc : Nat) (s : State) : State :=
  let s := dropAcc acc s
  match Table.find s.flights id with
  | none => s
  | some f => { s with flights := Table.set s.flights id { f with wait := f.wait.filter (· != acc) } }

/-- Every write of a flight is acknowledged. -/
def flightOver (f : Flight) : Bool := f.writes.isEmpty && f.wait.isEmpty && f.gather.isEmpty && !f.trans

/-- Payload bytes of a flight that are written and acknowledged: all but those of its writes, accesses and pieces still outstanding, counted in
half-bytes (R288, R293). -/
def flightDone (s : State) (f : Flight) : Nat :=
  if f.trans || f.prog then 0
  else
    let left := f.writes.foldl (fun n w => n + if w.2.half = 0 then 2 * w.2.data.length else 1) 0 +
      f.gather.foldl (fun n g => n + 2 * g.2.2) 0 +
      f.wait.foldl (fun n a => let x := accAt s a; n + if x.kind ≠ .uwrite then 0 else if x.op = 0 then 2 * x.n else 1) 0
    f.bytes - (left + 1) / 2

/-- Flights are given up, with their accesses. -/
def dropFlights (p : Nat → Flight → Bool) (s : State) : State :=
  let gone := (s.flights.filter fun f => p f.1 f.2).flatMap fun f => f.2.wait
  dropAccs (fun id _ => gone.contains id) { s with flights := s.flights.filter fun f => !p f.1 f.2 }

/-! Records and completion (R286 to R288). -/

/-- A fault record (Table 14.1). -/
def recordWord (code st queue id va done first more missing : Nat) : Nat :=
  code + st * 2 ^ 8 + queue * 2 ^ 16 + id * 2 ^ 32 + va % 2 ^ 64 * 2 ^ 64 + done % 2 ^ 64 * 2 ^ 128 + first % 2 ^ 32 * 2 ^ 192 + more * 2 ^ 224 + missing * 2 ^ 256

/-- FIRST, MORE and MISSING from a test of sectors and the first sector from which every one is missing (Table 14.1). -/
def missingOf (miss : Nat → Bool) (some_ : List Nat) (rest total : Nat) : Nat × Nat × Nat :=
  let all := some_ ++ (if rest < total then [rest] else [])
  match all with
  | [] => (0, 0, 0)
  | x :: xs =>
    let first := xs.foldl min x
    let bits := (upTo 256).foldl (fun v i => if first + i < total ∧ miss (first + i) then v + 2 ^ i else v) 0
    let more := some_.any (fun y => decide (first + 255 < y)) || (decide (rest < total) && decide (first + 256 < total))
    (first, b2n more, bits)

/-- The record of a job, if it names one (R288). -/
def writeJobRecord (j : Job) (code st va done : Nat) (m : Nat × Nat × Nat) (s : State) : State :=
  if jobRec j = 0 then s
  else poolWrite (ctrDie (jobRec j)) (ctrOff (jobRec j)) 64 (recordWord code st (kindQueue j.kind) j.id va done m.1 m.2.1 m.2.2) s

/-- Sectors of a copy job that are missing when it ends in error: held, in replay, or not started. -/
def missingAtEnd (j : Job) : Nat × Nat × Nat :=
  if 3 < j.kind then (0, 0, 0)
  else missingOf (fun x => j.held.contains x || j.replay.contains x || decide (j.next ≤ x)) (j.held ++ j.replay) j.next j.total

/-- The completion of the job at the head of a queue is due, no earlier than the pool latency after the last acknowledgement (R287, R298). In an
error the flights of the job are given up; what of them is written counts in DONE (R288). -/
def endJob (k q code va : Nat) (s : State) : State :=
  match headJob s k q with
  | none => s
  | some j =>
    if j.ending then s
    else
      let mine (f : Flight) : Bool := f.core == k && f.queue == q && f.jobId == j.id && !f.prog
      let fs := (s.flights.filter fun f => mine f.2).map Prod.snd
      let gone := fs.map Flight.sector
      let done := fs.foldl (fun n f => n + flightDone s f) j.done_
      let s := if code = 0 then s else dropFlights (fun _ f => mine f) s
      let j := { j with ending := true, error := code, errVa := va, fault := none, held := if code = 0 then j.held else j.held ++ gone, done_ := if code = 0 then j.done_ else done }
      let t := if j.prog ∧ code = 0 then 1 else poolLatency (dieOfCore k) (ctrDie (jobCtr j)) s
      engineAt (s.cycle + t) k .jobCompletion { a := k, b := q } (tick (putHead k q j s))

/-- A flight of the head job of a queue is over: its bytes are acknowledged, and its sector counts in the counter where the job counts
progress (R286, R287); the event of that add names the flight. -/
def flightEnds (k q id : Nat) (f : Flight) (ev : Instr) (a : Nat → Args) (s : State) : State :=
  let s := { s with flights := Table.erase s.flights id }
  match headJob s k q with
  | none => s
  | some j =>
    if j.id ≠ f.jobId then s
    else if f.prog then putHead k q { j with inFlight := j.inFlight - 1 } s
    else
      let s := putHead k q { j with inFlight := if j.prog then j.inFlight else j.inFlight - 1, done_ := j.done_ + f.bytes } s
      if !j.prog then s
      else
        let t := s.cycle + poolLatency (dieOfCore k) (ctrDie (jobCtr j)) s
        let r := newFlight { f with bytes := 0, prog := true, wait := [], writes := [(t, { kind := 4, unit := jobCtr j })] } (tick s)
        engineAt t k ev (a r.1) r.2

/-- A held domain that waits to be evicted goes on when its last job is done (R351). -/
def evictIfDone (k : Nat) (s : State) : State :=
  match domOf s k with
  | none => s
  | some m => if (domAt s m).evicting.isSome && jobsDone s m then evAt (s.cycle + 1) 0 .evictSave { a := m } s else s

/-- JOB_COMPLETION of the job at the head of a queue (R287), once its progress adds are performed: the increment, or the record and ERR; its
entry is free. -/
def completeJob (k q : Nat) (s : State) : State :=
  match headJob s k q with
  | none => s
  | some j =>
    if !j.ending then s
    else if s.flights.any fun f => f.2.core == k && f.2.queue == q && f.2.jobId == j.id then engineAt (s.cycle + 1) k .jobCompletion { a := k, b := q } s
    else
      let s :=
        if j.error = 0 then ctrAdd (jobCtr j) j.inc s
        else ctrErr (jobCtr j) (writeJobRecord j j.error 2 j.errVa (if j.kind = 4 then 0 else j.done_) (missingAtEnd j) s)
      let s := updCore s k fun c =>
        { setJobs q ((queueOf c q).drop 1) c with jobDone := setNth 0 c.jobDone q ((nth 0 c.jobDone q + 1) % 2 ^ 32), bound := c.bound - (if j.free then 0 else 1) }
      let s := if (nth [] (coreOf s k).jobWait q).isEmpty then s else evAt s.cycle 3 .jobEntryTake { a := k, b := q } s
      evictIfDone k (wakeQueues k s)

/-- A fence between the jobs issued and those issued later in the queues of a mask (R290, R324). -/
def placeFence (mask : Nat) (c : Core) : Core :=
  let qs := (upTo 3).filter fun q => bit mask q
  let now := qs.map fun q => (q, nth 0 c.jobCount q)
  { c with fences := qs.foldl (fun f q => setNth [] f q (now ++ (nth [] f q).filter fun x => !qs.contains x.1)) c.fences }

/-- JOB_FENCE (R324). -/
def execJobFence (q : Nat) (s : State) : Out :=
  runLocal .nobody 4 (fun c _ => if q = 0 then .error (illeg 4) else eff (placeFence q c) [] [] 1) s

/-- JOB_ENTRY_TAKE (R284). -/
def execJobEntryTake (s : State) : Out :=
  .next (takeEntries s.args.a s.args.b 8 s)

/-- JOB_COMPLETION (R287). -/
def execJobCompletion (s : State) : Out :=
  .next (completeJob s.args.a s.args.b s)

end Sys2Proof.Machine
end

