-- ==== Sys2Proof/Machine/Copy.lean ====
section
/-!
DEFINITION. Copy: the copy unit (14 R293 to R298, R289, 15 R311 to R316, 19 R355, R356): cp.send, cp.put, cp.rl, cp.halo and their events.
-/

namespace Sys2Proof.Machine

/-! Descriptors (Tables 15.2 to 15.7). -/

/-- A signed field of 16 bits. -/
def sfld16 (w lo : Nat) : Int := sgn 16 (fld w lo 16)

/-- Element width in bits, rows and columns of a job's payload (R293, R313, R315). -/
def copyWidth (j : Job) : Nat := if !j.tr then 8 else if j.kind = 2 then 4 * 2 ^ fld (dsc j 3) 27 2 else 4 * 2 ^ fld (dsc j 1) 14 2
def copyRows (j : Job) : Nat := if j.kind = 2 then fld (dsc j 3) 21 6 + 1 else fld (dsc j 1) 16 14 + 1
def copyCols (j : Job) : Nat := if j.kind = 2 then fld (dsc j 3) 15 6 + 1 else fld (dsc j 1) 0 14 + 1

/-- Element size of a range list or of a slab. -/
def elemSize (j : Job) : Nat := 2 ^ (if j.kind = 2 then fld (dsc j 1) 32 3 else fld (dsc j 4) 54 3)

/-- cp.rl puts from the buffer (Table 15.5). -/
def rlPuts (j : Job) : Bool := bit (dsc j 1) 31

/-- Keys of a run; key q of a list of runs (R296). -/
def runLen (r : Nat × Nat) : Nat := r.2 + 1 - r.1
def keyAt : List (Nat × Nat) → Nat → Nat
  | [], _ => 0
  | r :: rs, q => if q < runLen r then r.1 + q else keyAt rs (q - runLen r)

/-- Bytes of the payload stream (R293, R296, R297). -/
def payload (j : Job) : Nat :=
  match j.kind with
  | 0 | 1 => copyRows j * copyCols j * copyWidth j / 8
  | 2 => if j.tr then copyRows j * copyCols j * elemSize j else j.keys.foldl (fun n r => n + runLen r) 0 * elemSize j
  | _ => j.keys.length * elemSize j

/-- A place of one byte, or of four bits of one: local memory 0, a pool 1, a virtual address 2, a peer 3; the unit; the address, exact. -/
structure Spot where
  space : Nat
  unit : Nat := 0
  addr : Int
  half : Nat := 0
deriving DecidableEq, Repr

/-- Units of the stream in a byte: two where elements have four bits. -/
def unitsPerByte (j : Job) : Nat := if copyWidth j = 4 then 2 else 1

/-- Element of a unit of a transposed stream, the byte within it, its half (R293). -/
def elemOf (j : Job) (u : Nat) : Nat := if copyWidth j = 4 then u else u * 8 / copyWidth j
def byteOf (j : Job) (u : Nat) : Nat := if copyWidth j = 4 then 0 else u % (copyWidth j / 8)
def halfOf (j : Job) (x : Nat) : Nat := if copyWidth j = 4 then 1 + x % 2 else 0

/-- Element x of row r of one side, from its base and stride (R313). -/
def gridAddr (j : Job) (base : Int) (stride : Int) (r x o : Nat) : Int := base + r * stride + (x * copyWidth j / 8 + o : Nat)

/-- A global address modulo 2^64. -/
def wrap64 (a : Int) : Int := a % (2 : Int) ^ 64

/-- Global and local side of a range list (R314, R315). -/
def rlGlobal (j : Job) (u : Nat) : Spot :=
  let e := elemSize j
  { space := 2, addr := wrap64 ((dsc j 2 + keyAt j.keys (u / e) * e + u % e : Nat)) }
def rlLocal (j : Job) (u : Nat) : Spot :=
  let e := elemSize j
  let buf := fld (dsc j 3) 0 15
  let ls := sfld16 (dsc j 3) 32
  let q := u / e
  let r := q / copyCols j
  let c := q % copyCols j
  let a : Int :=
    if !j.tr then (buf + u : Nat)
    else if rlPuts j then (buf : Int) + r * ls + (c * e + u % e : Nat)
    else (buf : Int) + c * ls + (r * e + u % e : Nat)
  { space := 0, unit := j.core, addr := a }

/-- Where unit u of the stream is taken from (R293, R296, R297). -/
def srcSpot (j : Job) (u : Nat) : Spot :=
  match j.kind with
  | 0 | 1 =>
    let space := fld (dsc j 2) 62 2
    let base : Int := fld (dsc j 2) 0 26
    let ss := sfld16 (dsc j 1) 32
    let unit := if space = 0 then j.core else dieOfCore j.core
    if !j.tr then { space := space, unit := unit, addr := base + (u / copyCols j : Nat) * ss + (u % copyCols j : Nat) }
    else
      let q := elemOf j u
      let c := q % copyCols j
      { space := space, unit := unit, addr := gridAddr j base ss (q / copyCols j) c (byteOf j u), half := halfOf j c }
  | 2 => if rlPuts j then rlLocal j u else rlGlobal j u
  | _ => { space := 0, unit := j.core, addr := (fld (dsc j 4) 0 15 + (nth (0, 0) j.keys (u / elemSize j)).2 * elemSize j + u % elemSize j : Nat) }

/-- Where unit u of the stream goes (R293, R295 to R297). -/
def dstSpot (j : Job) (u : Nat) : Spot :=
  match j.kind with
  | 0 | 1 =>
    let w := dsc j 3
    let space := if j.kind = 1 then 2 else fld w 62 2
    let base : Int := if j.kind = 1 then w else fld w 0 26
    let ds := sfld16 (dsc j 1) 48
    let unit := if j.kind = 1 then 0 else fld w 26 20
    let fix (a : Int) : Int := if space = 2 then wrap64 a else a
    if !j.tr then { space := space, unit := unit, addr := fix (base + (u / copyCols j : Nat) * ds + (u % copyCols j : Nat)) }
    else
      let q := elemOf j u
      let r := q / copyCols j
      { space := space, unit := unit, addr := fix (gridAddr j base ds (q % copyCols j) r (byteOf j u)), half := halfOf j r }
  | 2 => if rlPuts j then rlGlobal j u else rlLocal j u
  | _ => { space := 3, unit := fld (dsc j 4) 57 6, addr := wrap64 ((dsc j 5 + (nth (0, 0) j.keys (u / elemSize j)).1 * elemSize j + u % elemSize j : Nat)) }

/-- A piece of a sector: bytes of one source row that go to one destination row (R225, R294); where rows overlap, the number of its row in the
stream, plus one (R356). -/
structure Piece where
  src : Spot
  dst : Spot
  n : Nat := 1
  pos : Nat := 0
deriving DecidableEq, Repr

/-- The rows of the source overlap: their distance is less than their length (R356). -/
def overlaps (j : Job) : Bool :=
  if j.kind ≤ 1 then decide ((sfld16 (dsc j 1) 32).natAbs < copyCols j * copyWidth j / 8)
  else j.kind == 2 && j.tr && rlPuts j && decide ((sfld16 (dsc j 3) 32).natAbs < copyCols j * elemSize j)

/-- The position of a unit of the stream: its source row, where rows overlap. -/
def posOf (j : Job) (u : Nat) : Nat :=
  if !overlaps j then 0
  else if j.kind = 2 then 1 + u / elemSize j / copyCols j
  else 1 + (if j.tr then elemOf j u else u) / copyCols j

/-- One more unit of a sector, its pieces in reverse. -/
def addUnit (ps : List Piece) (x y : Spot) (pos : Nat) : List Piece :=
  match ps with
  | [] => [{ src := x, dst := y, pos := pos }]
  | p :: rest =>
    let joins := x.half == 0 && y.half == 0 && p.src.half == 0 && p.dst.half == 0 && x.space == p.src.space && y.space == p.dst.space &&
      x.unit == p.src.unit && y.unit == p.dst.unit && pos == p.pos && x.addr == p.src.addr + p.n && y.addr == p.dst.addr + p.n &&
      x.addr / 32 == p.src.addr / 32 && y.addr / 32 == p.dst.addr / 32
    if joins then { p with n := p.n + 1 } :: rest else { src := x, dst := y, pos := pos } :: ps

/-- Bytes of sector x of the stream (R293). -/
def sectorBytes (j : Job) (x : Nat) : Nat := min 256 (payload j - 256 * x)

/-- The pieces of a sector, in stream order. -/
def piecesOf (j : Job) (x : Nat) : List Piece :=
  let k := unitsPerByte j
  ((upTo (sectorBytes j x * k)).foldl (fun ps i =>
    let u := 256 * x * k + i
    addUnit ps (srcSpot j u) (dstSpot j u) (posOf j u)) []).reverse

/-- The pages that a sector translates, each with the first address of it (R295, R296). -/
def sectorPages (ps : List Piece) : List (Nat × Nat) :=
  ps.foldl (fun l p =>
    let add (l : List (Nat × Nat)) (x : Spot) (n : Nat) : List (Nat × Nat) :=
      if x.space ≠ 2 then l
      else
        let a := x.addr.toNat
        [a, a + n - 1].foldl (fun l b => if l.any fun q => q.1 == b / 2 ^ 16 then l else l ++ [(b / 2 ^ 16, b)]) l
    add (add l p.src p.n) p.dst p.n) []

def touches (pages : List (Nat × Nat)) (held : List Nat) : Bool := pages.any fun q => held.contains q.1

/-- The source row of a piece at its position, and the half-bytes of it that the piece uses. -/
def rowKey (p : Piece) : Nat := p.pos * 2 ^ 64 + p.src.space * 2 ^ 60 + p.src.addr.toNat / 32
def rowMask (p : Piece) : Nat :=
  let o := p.src.addr.toNat % 32
  if p.src.half = 0 then (2 ^ (2 * p.n) - 1) * 2 ^ (2 * o) else 2 ^ (2 * o + p.src.half - 1)

/-- The 32 bytes of a source row as they stand now; a gather's rows are read by the barista (R296). -/
def rowNow (s : State) (x : Spot) : Nat :=
  let a := 32 * (x.addr.toNat / 32)
  if x.space = 0 then lmRead (coreOf s x.unit) a 32 else if x.space = 1 then poolRead s x.unit a 32 else 0

/-- Every half-byte of a row. -/
def wholeRow : Nat := 2 ^ 64 - 1

/-- The row of a piece: as the job has read it for this position, or read now (R294, R356). The rows the job keeps, which are those with bytes
that the position has not used; whether this is a read; the row's bytes. -/
def useRow (s : State) (rows : List (Nat × Nat × Nat)) (p : Piece) : List (Nat × Nat × Nat) × Nat × Nat :=
  let k := rowKey p
  let keep (m v : Nat) : List (Nat × Nat × Nat) :=
    let rest := rows.filter fun q => q.1 != k
    if m = wholeRow then rest else (k, m, v) :: rest
  match rows.find? fun r => r.1 == k with
  | some r => (keep (r.2.1 ||| rowMask p) r.2.2, 0, r.2.2)
  | none => let v := rowNow s p.src; (keep (rowMask p) v, 1, v)

/-- The bytes of a piece, from its row. -/
def pieceBytes (v : Nat) (p : Piece) : List Byte :=
  let o := p.src.addr.toNat % 32
  if p.src.half = 0 then toBytes p.n (fld v (8 * o) (8 * p.n)) else [BitVec.ofNat 8 (fld v (8 * o + 4 * (p.src.half - 1)) 4)]

/-- The pieces of a sector, each with the count of row reads up to it and its bytes; the rows the job then keeps; the row reads of the
sector, one a cycle (R294, R298). -/
def rowReads (s : State) : List (Nat × Nat × Nat) → Nat → List Piece → List (Nat × Piece × List Byte) × List (Nat × Nat × Nat) × Nat
  | rows, n, [] => ([], rows, n)
  | rows, n, p :: ps =>
    let u := useRow s rows p
    let n := n + u.2.1
    let q := rowReads s u.1 n ps
    ((n, p, pieceBytes u.2.2 p) :: q.1, q.2)

/-! Issue (R312 to R316). -/

/-- A footprint in own local memory is checked as loads under Table 1.1, row by row. -/
def footTrap (c : Core) (spans : List (Int × Nat)) : Option Trap :=
  spans.findSome? fun q =>
    if q.1 < 0 then some (trapOf 4 1 (pat 15 q.1))
    else
      let a := q.1.toNat
      (upTo ((a + q.2 - 1) / 32 + 1 - a / 32)).findSome? fun i => regionTrap c (max a (32 * (a / 32 + i))) 1 false

/-- The bytes that the source rows of cp.send or cp.put touch (R313, R356). -/
def sourceSpans (j : Job) : List (Int × Nat) :=
  let n := copyCols j * copyWidth j / 8
  (upTo (copyRows j)).map fun (r : Nat) => ((fld (dsc j 2) 0 26 : Int) + (r : Int) * sfld16 (dsc j 1) 32, n)

/-- The checks of cp.send and cp.put after R309 (R312, R313). -/
def sendTrap (c : Core) (put : Bool) (j : Job) : Option Trap :=
  let sh := dsc j 1
  let space := fld (dsc j 2) 62 2
  let w := dsc j 3
  let badShape :=
    if j.tr then decide (64 < copyRows j) || decide (64 < copyCols j) || (copyWidth j == 4 && (copyRows j % 2 != 0 || copyCols j % 2 != 0))
    else fld sh 14 2 != 0
  let badSrc := decide (1 < space) || (space == 0 && fld (dsc j 2) 15 11 != 0)
  let badDst :=
    if put then fld w 57 7 != 0
    else
      let kind := fld w 62 2
      let t := fld w 26 20
      decide (1 < kind) || (kind == 0 && (fld w 15 11 != 0 || decide (Config.cores ≤ t))) || (kind == 1 && decide (Config.dies ≤ t))
  if badShape || badSrc || badDst then some (illeg 4)
  else if space = 1 then
    (if (sourceSpans j).any fun q => decide (q.1 < 0) || decide ((2 : Int) ^ 26 < q.1 + q.2) then some (illeg 4) else none)
  else footTrap c (sourceSpans j)

/-- The checks of cp.rl after R309 (R314, R315). -/
def rlTrap (c : Core) (j : Job) : Option Trap :=
  let l := dsc j 1
  let addr := fld l 0 15
  let ew := fld (dsc j 3) 27 2
  if 5 < fld l 32 3 then some (illeg 4)
  else if j.tr ∧ (ew = 0 ∨ 8 * elemSize j ≠ copyWidth j) then some (illeg 4)
  else if !j.tr ∧ fld (dsc j 3) 15 33 ≠ 0 then some (illeg 4)
  else if addr % 16 ≠ 0 then some (trapOf 3 1 addr)
  else if fld l 16 15 = 0 then none
  else footTrap c [((addr : Int), 16 * fld l 16 15)]

/-- The box of cp.halo, its dimensions, the number of its keys (R316). -/
def haloDims (j : Job) : Nat := fld (dsc j 4) 15 3 + 2
def haloBox (j : Job) : Box := (keyOf (haloDims j) (dsc j 1), keyOf (haloDims j) (dsc j 2))
def haloCount (j : Job) : Nat :=
  let d := haloDims j
  let b := haloBox j
  (upTo d).foldl (fun n i => n * (ax d b.2 i + 1 - ax d b.1 i)) 1

/-- The checks of cp.halo after R309 (R316). INFO of an extent that passes 0x6000 is BUF: Table 18.4 names only the local address (DESIGN CHOICE,
log 89). -/
def haloTrap (c : Core) (j : Job) : Option Trap :=
  let h := dsc j 4
  let d := haloDims j
  let buf := fld h 0 15
  let n := haloCount j * elemSize j
  if j.tr || decide (8 < d) || decide (d ≤ fld h 18 3) || decide (2 ^ axisBits d ≤ fld h 22 32) || decide (5 < fld h 54 3) || fld (dsc j 5) 57 7 != 0 then
    some (illeg 4)
  else if 0x6000 < buf + n then some (trapOf 4 1 buf)
  else if n = 0 then none
  else footTrap c [((buf : Int), n)]

/-- A copy instruction: the checks of R309, its own, then its job. -/
def copyRun (ins : Instr) (kind cnt e a d f p r : Nat) (bad : List Nat → Bool) (own : Core → Job → Option Trap) (s : State) : Out :=
  let j := newJob s kind e cnt a f p r []
  runGlobal (fun c _ => match jobTrap (theDom s s.cur) c e cnt bad with | some t => some t | none => own c j) (jobAct ins j e cnt a d) s

/-! The slab of cp.halo (R297). -/

/-- The keys of the slab, each as sent to the peer and with its rank in the box. -/
def slabKeys (j : Job) : List (Nat × Nat) :=
  let d := haloDims j
  let b := haloBox j
  let a := fld (dsc j 4) 18 3
  let t := fld (dsc j 4) 22 32 + 1
  let high := bit (dsc j 4) 21
  let keys := keysFrom d b (haloCount j) (firstKey d b 0)
  ((keys.zip (upTo keys.length)).filter fun q =>
    if high then decide (ax d b.2 a - ax d q.1 a < t) else decide (ax d q.1 a - ax d b.1 a < t)).map fun q =>
      ((keyAdd d false q.1 (keyOf d (dsc j 3))).1, q.2)

/-! Turns (R298). -/

/-- The pairs of a range list as they stand now (R296). -/
def readPairs (c : Core) (j : Job) : List (Nat × Nat) :=
  let l := dsc j 1
  (upTo (fld l 16 15)).map fun i => (lmRead c (fld l 0 15 + 16 * i) 8, lmRead c (fld l 0 15 + 16 * i + 8) 8)

def badPair (q : Nat × Nat) : Bool := decide (q.2 < q.1)

/-- The unit begins a job: it reads a list or forms a slab (R296, R297, R315). A transposed range list with COUNT 0 does not hold R x C elements and ends
with CODE 0x07 as R315 has it, although R314 lets a COUNT of 0 complete (DESIGN CHOICE, log 88). -/
def startCopy (k : Nat) (j : Job) (s : State) : State :=
  let sectors (j : Job) : Nat := (payload j + 255) / 256
  let go (j : Job) (s : State) : State :=
    copyTurnAt s.cycle (rodOfCore k) (putHead k 0 { j with started := true, total := sectors j, since := s.cycle } s)
  match j.kind with
  | 2 =>
    let ps := readPairs (coreOf s k) j
    if j.tr then
      if ps.any badPair || (ps.foldl (fun n r => n + runLen r) 0 != copyRows j * copyCols j) then
        endJob k 0 7 0 (putHead k 0 { j with started := true, total := sectors j } s)
      else go { j with keys := ps } s
    else
      let good := ps.takeWhile fun q => !badPair q
      go { j with keys := good, error := if ps.any badPair then 7 else 0 } s
  | 3 => go { j with keys := slabKeys j } s
  | _ => go j s

/-- The head job has nothing in flight: it posts its fault, or ends when nothing is left (R287, R355). -/
def copySettles (k : Nat) (s : State) : State :=
  match headJob s k 0 with
  | none => s
  | some j =>
    if !j.started || j.ending || decide (j.inFlight ≠ 0) then s
    else if j.fault.isSome then evAt s.cycle 3 .copyFaultPost { a := k } s
    else if j.total ≤ j.next && j.held.isEmpty && j.replay.isEmpty then endJob k 0 j.error 0 s
    else s

/-- A sector lies on a page whose fault is pending. -/
def onPending (j : Job) (x : Nat) : Bool := !j.pages.isEmpty && touches (sectorPages (piecesOf j x)) j.pages

/-- Sectors to start next that lie on pages whose fault is pending are held (R289, R298, R355). -/
def holdSectors (j : Job) : Nat → Job
  | 0 => j
  | fuel + 1 => if j.next < j.total && onPending j j.next then holdSectors { j with held := j.held ++ [j.next], next := j.next + 1 } fuel else j

/-- So are sectors that wait to be replayed: the page has faulted again (R355). -/
def holdReplays (j : Job) : Job :=
  let back := j.replay.filter (onPending j)
  if back.isEmpty then j else { j with replay := j.replay.filter fun x => !back.contains x, held := j.held ++ back }

/-- A sector of the head job of core k is being translated: none after it is delivered before its fault would be posted (R355). -/
def translating (s : State) (k : Nat) (j : Job) : Bool := s.flights.any fun f => f.2.core == k && f.2.queue == 0 && f.2.jobId == j.id && f.2.trans

/-- The head job of core k can deliver a sector in this cycle. -/
def canDeliver (s : State) (k : Nat) : Bool :=
  match headJob s k 0 with
  | none => false
  | some j =>
    j.started && !j.ending && j.fault.isNone && decide (j.since ≤ s.cycle) && (!j.replay.isEmpty || decide (j.next < j.total)) && !translating s k j

/-- The head job of core k is begun when it may, and passes over what it must hold. -/
def prepareCopy (k : Nat) (s : State) : State :=
  match headJob s k 0 with
  | none => s
  | some j =>
    if j.ending || decide (s.cycle < j.since) then s
    else
      let s := if j.started then s else if fencesPassed s k j then startCopy k j s else s
      match headJob s k 0 with
      | none => s
      | some j =>
        if !j.started || j.ending || j.fault.isSome then s
        else copySettles k (putHead k 0 (holdSectors (holdReplays j) (if j.pages.isEmpty then 0 else j.total - j.next)) s)

/-- An address no memory has, for a place below address 0. -/
def nowhere : Nat := 2 ^ 40
def addrNat (a : Int) : Nat := if a < 0 then nowhere else a.toNat

/-- The write of a piece, with the cycle in which it lands, or for global memory leaves, its row read at the end of cycle t (R298). -/
def pieceWrite (s : State) (k t : Nat) (p : Piece) (data : List Byte) : Nat × Wr :=
  let a := addrNat p.dst.addr
  let w (kind unit : Nat) : Wr := { kind := kind, unit := unit, addr := a, data := data, half := p.dst.half }
  match p.dst.space with
  | 0 => (t + depositTime k p.dst.unit s, w 0 p.dst.unit)
  | 1 => (t + poolLatency (dieOfCore k) p.dst.unit s, w 1 p.dst.unit)
  | 2 => (t, w 2 a)
  | _ => (t + atLeast 150 s, w 3 p.dst.unit)

/-- Sector x of the head job is taken from the list it stands in. -/
def takeSector (j : Job) : Nat × Job :=
  match j.replay with
  | x :: xs => (x, { j with replay := xs })
  | [] => (j.next, { j with next := j.next + 1 })

/-- The local rows of a put lie in the own scratchpad (R314); a pool source row is one the job may read (Table 14.2). -/
def sourceCode (c : Core) (j : Job) (ps : List Piece) : Nat :=
  if j.kind = 2 ∧ rlPuts j ∧ ps.any (fun p => decide (p.src.addr < c.lmspill.toNat) || decide ((c.lmscr.toNat : Int) < p.src.addr + p.n)) then 5
  else if !j.priv ∧ ps.any (fun p => p.src.space == 1 && decide (p.src.addr < 0x400000)) then 6
  else 0

/-- cp.rl gathers (R296). -/
def gathers (j : Job) : Bool := j.kind == 2 && !rlPuts j

/-- What names flight id of core k in its events. -/
def copyArgs (k id : Nat) : Args := { a := k, b := id }

/-- Cycles that a transposed copy adds before its first write: every write of it comes so much later (R298, DESIGN CHOICE, log 81). -/
def turnTime (j : Job) : Nat := if j.tr then 64 else 0

/-- Cycles of a read of the pool of the own die before a piece's bytes are at the unit (Table 0.2). -/
def sourceTime (s : State) (k : Nat) (p : Piece) : Nat := if p.src.space = 1 then poolLatency (dieOfCore k) p.src.unit s else 0

/-- The pages of flight id are translated: its rows are read, one a cycle from the first cycle in which the unit reads no other sector, and its
writes go out; or its request goes to the baristas (R293 to R298). -/
def sectorGoes (k id : Nat) (s : State) : State :=
  match Table.find s.flights id, headJob s k 0 with
  | some f, some j =>
    let ps := piecesOf j f.sector
    if gathers j then
      let f := { f with trans := false, gather := ps.map fun p => (p.src.addr.toNat, addrNat p.dst.addr, p.n) }
      engineAt (s.cycle + atLeast 60 s) k .gatherRequestArrive (copyArgs k id) (tick { s with flights := Table.set s.flights id f })
    else
      let rs := rowReads s j.rows 0 ps
      let rod := rodOfCore k
      let start := max s.cycle (rodOf s rod).copyFree
      let free := start + max 1 rs.2.2
      let ws := rs.1.map fun q => pieceWrite s k (start + q.1 + turnTime j + sourceTime s k q.2.1) q.2.1 q.2.2
      let s := putHead k 0 { j with rows := rs.2.1 } { s with flights := Table.set s.flights id { f with writes := ws } }
      let s := copyTurnAt free rod (updRod s rod fun r => { r with copyFree := free })
      flyOut id 0 j.priv .copyDepositLand (copyArgs k id) (tick s)
  | _, _ => s

/-- One sector of the head job of core k has its turn: its pages are translated, then its rows are read, which holds the unit (R293 to R298). The
cycles that the turn itself holds the unit, none unless the sector is gathered: the unit reads none of its elements, and the manual does not say
how long its turn is; it is one cycle for each global row that its elements lie in (DESIGN CHOICE, log 86). -/
def sectorTurn (k : Nat) (s : State) : State × Nat :=
  match headJob s k 0 with
  | none => (s, 1)
  | some j =>
    let (x, j') := takeSector j
    let ps := piecesOf j x
    let code := sourceCode (coreOf s k) j ps
    if code ≠ 0 then (endJob k 0 code 0 s, 1)
    else
      let pages := sectorPages ps
      let r := newFlight { core := k, queue := 0, jobId := j.id, sector := x, bytes := sectorBytes j x } (putHead k 0 { j' with inFlight := j.inFlight + 1 } s)
      let n := if gathers j then max 1 (rowReads s j.rows 0 ps).2.2 else 0
      if pages.isEmpty then (sectorGoes k r.1 r.2, n)
      else
        let q := askAll (fun (p : Nat × Nat) => askPage k j.priv (if gathers j then 0 else 1) .copyDepositLand (copyArgs k r.1) p.2) pages r.2
        ({ q.2 with flights := Table.set q.2.flights r.1 { (Table.get {} q.2.flights r.1) with trans := true, wait := q.1 } }, n)

/-- COPY_SECTOR_TURN of a rod: the next lane, in increasing order, whose head job can deliver (R298). -/
def copyTurn (rod : Nat) (s : State) : State :=
  let r := rodOf s rod
  if s.cycle < r.copyFree then s
  else
    let lanes := (upTo 8).map fun i => (r.copyLane + 1 + i) % 8
    let s := lanes.foldl (fun s l => prepareCopy (8 * rod + l) s) s
    match lanes.find? fun l => canDeliver s (8 * rod + l) with
    | none => s
    | some l =>
      let q := sectorTurn (8 * rod + l) s
      let s' := updRod q.1 rod fun r => { r with copyLane := l, copyFree := max r.copyFree (s.cycle + q.2) }
      copyTurnAt (max (s.cycle + 1) (rodOf s' rod).copyFree) rod s'

/-- What becomes of the head job when flight id may be over. -/
def copyOver (k id : Nat) (s : State) : State :=
  match Table.find s.flights id with
  | none => s
  | some f => if flightOver f then copyTurnAt (s.cycle + 1) (rodOfCore k) (copySettles k (flightEnds k 0 id f .copyDepositLand (copyArgs k) s)) else s

/-- A sector fails at an address: the job holds it and posts the fault of its page, if no fault of the page is pending, or ends (R289, R355).
While another fault of the job is being posted, the sector is tried again after it. -/
def sectorFails (k id : Nat) (f : Flight) (code va : Nat) (s : State) : State :=
  match headJob s k 0 with
  | none => s
  | some j =>
    if code ≠ 3 then endJob k 0 (code / 2) va s
    else
      let s := dropFlights (fun n _ => n == id) s
      let j := { j with inFlight := j.inFlight - 1 }
      let j :=
        if j.pages.contains (va / 2 ^ 16) then { j with held := j.held ++ [f.sector] }
        else if j.fault.isSome then { j with replay := j.replay ++ [f.sector] }
        else { j with held := j.held ++ [f.sector], fault := some (f.sector, va) }
      copyTurnAt (s.cycle + 1) (rodOfCore k) (copySettles k (putHead k 0 j s))

/-- An access of flight id has ended: a translation, or a write to global memory. -/
def sectorAccess (k id acc : Nat) (s : State) : State :=
  let x := accAt s acc
  match Table.find s.flights id, headJob s k 0 with
  | some f, some j =>
    if !f.wait.contains acc ∨ j.id ≠ f.jobId ∨ j.ending then dropAcc acc s
    else if x.stage = .fault then sectorFails k id f x.got x.va (dropAcc acc s)
    else if x.op ≠ 3 then copyOver k id (endWait id acc s)
    else
      let f := { f with wait := f.wait.filter (· != acc), frames := f.frames ++ [frameOf x] }
      let s := dropAcc acc { s with flights := Table.set s.flights id f }
      if f.wait.isEmpty then copyTurnAt (s.cycle + 1) (rodOfCore k) (sectorGoes k id s) else s
  | _, _ => dropAcc acc s

/-- COPY_DEPOSIT_LAND: the writes of flight b of core a that are due, or the end of access d - 1 of it (R295, R291). -/
def copyLand (k id acc : Nat) (s : State) : State :=
  if acc ≠ 0 then sectorAccess k id (acc - 1) s
  else
    match Table.find s.flights id, headJob s k 0 with
    | some f, some j =>
      if j.id ≠ f.jobId ∨ j.ending ∧ !f.prog then s
      else
        match landFlight j id f .copyDepositLand (copyArgs k id) s with
        | (s, e + 1) => endJob k 0 (e + 1) 0 s
        | (s, 0) => copyOver k id s
    | _, _ => s

/-- GATHER_REQUEST_ARRIVE: the baristas read at the homes the sectors that the elements lie in, 20 cycles from the slice or 130 from DRAM
(R296, R370). -/
def gatherRequest (k id : Nat) (s : State) : State :=
  match Table.find s.flights id, headJob s k 0 with
  | some f, some j =>
    let ask (sec : Nat) (s : State) : Nat × State :=
      let pa := framePa f.frames (256 * sec)
      let x := { unitOf k j.priv .gatherReadDone (copyArgs k id) s with kind := .uread, va := 256 * sec, pa := pa, n := 256, page := 2 }
      unitStart (if isDram pa then { x with place := theHome, lead := 20 + dramExtra s (lineOf pa) (sectorOf pa) } else x) s
    let q := askAll ask (distinct (f.gather.map fun g => g.1 / 256)) s
    { q.2 with flights := Table.set q.2.flights id { f with wait := q.1 } }
  | _, _ => s

/-- GATHER_READ_DONE: the bytes as the home has them are pushed as deposits, at least 80 cycles later, a transposed copy's 64 more (R296, R298, R305). -/
def gatherRead (k id acc : Nat) (s : State) : State :=
  let x := accAt s acc
  match Table.find s.flights id, headJob s k 0 with
  | some f, some j =>
    if !f.wait.contains acc ∨ j.id ≠ f.jobId ∨ j.ending then dropAcc acc s
    else if x.stage = .fault then sectorFails k id f x.got x.va (dropAcc acc s)
    else
      let t := s.cycle + atLeast 80 s + turnTime j
      let mine (g : Nat × Nat × Nat) : Bool := g.1 / 256 == x.va / 256
      let ws : List (Nat × Wr) := (f.gather.filter mine).map fun g =>
        (t, { kind := 0, unit := k, addr := g.2.1, data := toBytes g.2.2 (fld x.got (8 * (g.1 % 256)) (8 * g.2.2)) })
      let f := { f with gather := f.gather.filter fun g => !mine g, writes := f.writes ++ ws, wait := f.wait.filter (· != acc) }
      engineAt t k .copyDepositLand (copyArgs k id) (tick (dropAcc acc { s with flights := Table.set s.flights id f }))
  | _, _ => dropAcc acc s

/-! Faults (R289, R355). -/

/-- COPY_FAULT_POST: nothing of the job is in flight; the record is written, then the fault is posted. -/
def copyFault (k : Nat) (s : State) : State :=
  match headJob s k 0 with
  | none => s
  | some j =>
    match j.fault with
    | none => s
    | some (_, va) =>
      if j.inFlight ≠ 0 ∨ j.ending then s
      else
        let pages := addNew j.pages (va / 2 ^ 16)
        let on (x : Nat) : Bool := j.held.contains x || j.replay.contains x || (decide (j.next ≤ x) && touches (sectorPages (piecesOf j x)) pages)
        let later := (upTo (j.total - j.next)).filterMap fun i => if on (j.next + i) then some (j.next + i) else none
        let s := writeJobRecord j 1 1 va j.done_ (missingOf on (j.held ++ j.replay ++ later) j.total j.total) s
        evAt s.cycle 3 .faultPost { a := dieOfCore k, b := 1, c := k, d := if gathers j then 1 else 2 } s

/-- The fault of core k's job is posted: the job goes on with the sectors of other pages (R355). -/
def faultIsPosted (k : Nat) (s : State) : State :=
  match headJob s k 0 with
  | some j =>
    match j.fault with
    | some (_, va) => copyTurnAt (s.cycle + 1) (rodOfCore k) (putHead k 0 { j with fault := none, pages := addNew j.pages (va / 2 ^ 16) } s)
    | none => s
  | none => s

/-- COPY_REPLAY: the sectors of core a's job that page b held, and no other pending page, are replayed in stream order (R349). -/
def copyReplay (k page : Nat) (s : State) : State :=
  match headJob s k 0 with
  | none => s
  | some j =>
    if j.ending then s
    else
      let pages := j.pages.filter (· != page)
      let free := j.held.filter fun x => !touches (sectorPages (piecesOf j x)) pages && !(match j.fault with | some f => f.1 == x | none => false)
      let rep := (upTo j.total).filter fun x => j.replay.contains x || free.contains x
      copyTurnAt (s.cycle + 1) (rodOfCore k) (putHead k 0 { j with pages := pages, held := j.held.filter fun x => !free.contains x, replay := rep } s)

/-- The page of core k's job is exhausted (R289, R349). -/
def copyExhausted (k va : Nat) (s : State) : State :=
  match headJob s k 0 with
  | some j => if j.ending ∨ !j.pages.contains (va / 2 ^ 16) then s else endJob k 0 0x0A va s
  | none => s

/-- Reserved bits of the descriptors (Tables 15.2 to 15.7). -/
def badSend (ds : List Nat) : Bool := fld (nth 0 ds 1) 30 2 != 0 || fld (nth 0 ds 2) 26 36 != 0 || fld (nth 0 ds 3) 46 16 != 0
def badPut (ds : List Nat) : Bool := fld (nth 0 ds 1) 30 2 != 0 || fld (nth 0 ds 2) 26 36 != 0
def badRl (ds : List Nat) : Bool :=
  let l := nth 0 ds 1
  let b := nth 0 ds 3
  fld l 35 29 != 0 || bit l 15 || fld b 48 16 != 0 || fld b 29 3 != 0
def badHalo (ds : List Nat) : Bool := bit (nth 0 ds 4) 63

/-- CP_SEND (R312). -/
def execCpSend (r p f e a d : Nat) (s : State) : Out :=
  copyRun (.cpSend r p f e a d) 0 4 e a d f p r badSend (fun c j => sendTrap c false j) s

/-- CP_PUT (R312). -/
def execCpPut (r p f e a d : Nat) (s : State) : Out :=
  copyRun (.cpPut r p f e a d) 1 4 e a d f p r badPut (fun c j => sendTrap c true j) s

/-- CP_RL (R314). -/
def execCpRl (r p f e a d : Nat) (s : State) : Out :=
  copyRun (.cpRl r p f e a d) 2 4 e a d f p r badRl rlTrap s

/-- CP_HALO (R316). -/
def execCpHalo (r p f e a d : Nat) (s : State) : Out :=
  copyRun (.cpHalo r p f e a d) 3 6 e a d f p r badHalo haloTrap s

/-- COPY_SECTOR_TURN (R298). -/
def execCopySectorTurn (s : State) : Out :=
  .next (copyTurn s.args.a s)

/-- COPY_DEPOSIT_LAND (R298). -/
def execCopyDepositLand (s : State) : Out :=
  .next (copyLand s.args.a s.args.b s.args.d s)

/-- COPY_FAULT_POST (R355). -/
def execCopyFaultPost (s : State) : Out :=
  .next (copyFault s.args.a s)

/-- GATHER_REQUEST_ARRIVE (R296). -/
def execGatherRequestArrive (s : State) : Out :=
  .next (gatherRequest s.args.a s.args.b s)

/-- GATHER_READ_DONE (R296). -/
def execGatherReadDone (s : State) : Out :=
  .next (gatherRead s.args.a s.args.b (s.args.d - 1) s)

/-- COPY_REPLAY (R289). -/
def execCopyReplay (s : State) : Out :=
  .next (copyReplay s.args.a s.args.b s)

end Sys2Proof.Machine
end

