-- ==== Sys2Proof/Machine/Matrix.lean ====
section
/-!
DEFINITION. Matrix: the matrix engine (14 R299 to R303, 15 R317 to R322, 17 R332): mx.cfg, mx.mm and their events.
-/

namespace Sys2Proof.Machine

/-! Descriptors (Tables 15.10 to 15.13). -/

/-- Word of a location: its source, its local address, core or virtual address (Table 15.11). -/
def locSrc (w : Nat) : Nat := fld w 62 2
def locAddr (w : Nat) : Nat := if locSrc w = 2 then fld w 0 57 else fld w 0 15
def locCore (w : Nat) : Nat := fld w 15 20

/-- Reserved bits of a location. -/
def badLoc (w : Nat) : Bool := if locSrc w = 2 then fld w 57 5 != 0 else fld w 35 27 != 0

/-- Shape of a job: descriptors 1 to 4 are A, B, C and MSHAPE; 5 and 6 are the captured CFG0 and CFG1; 7 and 8 the co-launched set of
the issuer (R318, R224). -/
def mxShape (j : Job) : Nat := dsc j 4
def mxM (j : Job) : Nat := 16 * (fld (mxShape j) 0 4 + 1)
def mxN (j : Job) : Nat := 16 * (fld (mxShape j) 4 4 + 1)
def mxK (j : Job) : Nat := 16 * (fld (mxShape j) 8 4 + 1)
def mxFmt (j : Job) : Nat := fld (mxShape j) 12 4
def mxLda (j : Job) : Nat := 32 * fld (mxShape j) 16 12
def mxLdb (j : Job) : Nat := 32 * fld (mxShape j) 28 12
def mxLdc (j : Job) : Nat := 32 * fld (mxShape j) 40 12
def mxCzero (j : Job) : Bool := bit (mxShape j) 52
def mxLds (j : Job) : Nat := fld (dsc j 5) 32 16

/-- Types of A and B and MACs per cell and cycle of a pairing (Table 15.13, Table 14.4). -/
def mxTypes (fmt : Nat) : Nat × Nat × Nat :=
  nth (7, 11, 4) [(1, 1, 1), (2, 2, 1), (1, 2, 1), (2, 1, 1), (3, 3, 2), (3, 4, 2), (4, 3, 2), (4, 4, 2), (7, 7, 2), (7, 11, 4), (3, 11, 4), (4, 11, 4)] fmt
def mxTypeA (j : Job) : Nat := (mxTypes (mxFmt j)).1
def mxTypeB (j : Job) : Nat := (mxTypes (mxFmt j)).2.1
def mxF (j : Job) : Nat := (mxTypes (mxFmt j)).2.2

/-- Bytes of a row of A, of a column of B, of a scale row (R319). -/
def rowBytesA (j : Job) : Nat := mxK j * typeWidth (mxTypeA j) / 8
def rowBytesB (j : Job) : Nat := mxK j * typeWidth (mxTypeB j) / 8
def scaleBytes (j : Job) : Nat := (mxK j + 31) / 32
def hasScales (j : Job) : Bool := decide (9 ≤ mxFmt j)

/-! Issue (R317, R318, R321). -/

/-- MX_CFG (R317). -/
def mxCfgOp (e : Nat) : Local := fun c _ =>
  if 8 < e + 2 then .error (illeg 4)
  else
    let c0 := rdE c e
    let c1 := rdE c (e + 1)
    if fld c0 49 15 ≠ 0 ∨ badLoc c1 then .error (illeg 4)
    else eff { c with cfg0 := BitVec.ofNat 64 c0, cfg1 := BitVec.ofNat 64 c1 } [rowE c e, rowE c (e + 1)] [] 1

def badMm (ds : List Nat) : Bool := badLoc (nth 0 ds 1) || badLoc (nth 0 ds 2) || badLoc (nth 0 ds 3) || fld (nth 0 ds 4) 53 11 != 0

/-- Rows of an operand in own local memory, as spans. -/
def locSpans (base stride n cnt : Nat) : List (Int × Nat) := (upTo cnt).map fun i => (((base + stride * i : Nat) : Int), n)

/-- The checks of mx.mm after R309, in order (R321). INFO of a row of C that leaves the scratchpad is the row's address, or LMSCR for a row that begins
below it: Table 18.4 names only the local address (DESIGN CHOICE, log 89). -/
def mmTrap (c : Core) (j : Job) : Option Trap :=
  let a := dsc j 1
  let b := dsc j 2
  let cc := dsc j 3
  let locs := [a, b, cc]
  let sc := dsc j 6
  if 11 < mxFmt j || locs.any (fun w => locSrc w == 3 || (locSrc w == 0 && locCore w != 0)) || decide (mxLda j < rowBytesA j) ||
      decide (mxLdb j < rowBytesB j) || decide (mxLdc j < 4 * mxN j) ||
      (hasScales j && (locSrc sc == 3 || (locSrc sc == 0 && locCore sc != 0) || !bit (dsc j 5) 48 || decide (mxLds j < scaleBytes j))) then some (illeg 4)
  else match locs.find? fun w => locAddr w % 32 != 0 with
    | some w => some (trapOf 3 (if locSrc w = 2 then 3 else 1) (locAddr w))
    | none =>
      let own (w stride n cnt : Nat) : List (Int × Nat) := if locSrc w = 0 then locSpans (locAddr w) stride n cnt else []
      let spans := own a (mxLda j) (rowBytesA j) (mxM j) ++ own b (mxLdb j) (rowBytesB j) (mxN j) ++
        (if hasScales j then own sc (mxLds j) (scaleBytes j) (mxN j) else [])
      match footTrap c spans with
      | some t => some t
      | none =>
        if locSrc cc ≠ 0 then none
        else
          ((upTo (mxM j)).map fun i => locAddr cc + mxLdc j * i).findSome? fun x =>
            if x < c.lmspill.toNat then some (trapOf 4 7 x)
            else if c.lmscr.toNat < x + 4 * mxN j then some (trapOf 4 7 (if x < c.lmscr.toNat then c.lmscr.toNat else x % 2 ^ 15)) else none

/-! Tiles (R299). -/

def tileCols (j : Job) : Nat := (mxN j + 31) / 32
def tileCount (j : Job) : Nat := (mxM j + 31) / 32 * tileCols j
/-- First row and column of a tile, its rows and columns. -/
def tileAt (j : Job) (x : Nat) : Nat × Nat × Nat × Nat :=
  let i0 := x / tileCols j * 32
  let j0 := x % tileCols j * 32
  (i0, j0, min 32 (mxM j - i0), min 32 (mxN j - j0))

/-- Rows of the operands of a tile: location, offset, bytes; A, B, scales, C (R300). -/
def rowsA (j : Job) (t : Nat × Nat × Nat × Nat) : List (Nat × Nat × Nat) := (upTo t.2.2.1).map fun i => (dsc j 1, mxLda j * (t.1 + i), rowBytesA j)
def rowsB (j : Job) (t : Nat × Nat × Nat × Nat) : List (Nat × Nat × Nat) := (upTo t.2.2.2).map fun i => (dsc j 2, mxLdb j * (t.2.1 + i), rowBytesB j)
def rowsS (j : Job) (t : Nat × Nat × Nat × Nat) : List (Nat × Nat × Nat) :=
  if hasScales j then (upTo t.2.2.2).map fun i => (dsc j 6, mxLds j * (t.2.1 + i), scaleBytes j) else []
def rowsC (j : Job) (t : Nat × Nat × Nat × Nat) : List (Nat × Nat × Nat) :=
  (upTo t.2.2.1).map fun i => (dsc j 3, mxLdc j * (t.1 + i) + 4 * t.2.1, 4 * t.2.2.2)

/-- Virtual address of an offset of a global operand. -/
def locVa (w off : Nat) : Nat := (locAddr w + off) % 2 ^ 64

/-- Pages of global rows, each with the first address on it. -/
def rowPages (rows : List (Nat × Nat × Nat)) : List (Nat × Nat) :=
  rows.foldl (fun l r =>
    if locSrc r.1 ≠ 2 then l
    else
      let a := locVa r.1 r.2.1
      let b := locVa r.1 (r.2.1 + r.2.2 - 1)
      [a, b].foldl (fun l x => if l.any fun q => q.1 == x / 2 ^ 16 then l else l ++ [(x / 2 ^ 16, if x = a then a else x / 2 ^ 16 * 2 ^ 16)]) l) []

/-- The shared rows of a tile lie in the set and in the scratchpads (R224, R321): a code of Table 14.2, or 0. -/
def sharedCode (s : State) (j : Job) (rows : List (Nat × Nat × Nat)) : Nat :=
  rows.foldl (fun e r =>
    if e ≠ 0 ∨ locSrc r.1 ≠ 1 then e
    else
      let t := locCore r.1
      if dsc j 8 = 0 ∨ t < dsc j 7 ∨ dsc j 7 + dsc j 8 ≤ t then 4
      else
        let c := coreOf s t
        let x := locAddr r.1 + r.2.1
        if x < c.lmspill.toNat ∨ c.lmscr.toNat < x + r.2.2 then 5 else 0) 0

/-- The bytes at a physical address as a coherent read returns them (R300). -/
def physRead (s : State) (pa n : Nat) : Nat :=
  if isDram pa then readLine s pa n
  else if isPool pa then poolRead s (poolDie pa) (poolOff pa) n
  else if isHost pa then Memory.read s.host (pa - windowBase) n
  else fromBytes ((upTo n).map fun i => Config.peerByte (s.free * 2 ^ 16 + i))

/-- The n bytes at an offset of an operand as they stand now (R294, R300). -/
def operandBytes (s : State) (k : Nat) (frames : List (Nat × Nat × Nat)) (w off : Nat) : Nat → Nat
  | n =>
    match locSrc w with
    | 0 => lmRead (coreOf s k) (locAddr w + off) n
    | 1 => lmRead (coreOf s (locCore w)) (locAddr w + off) n
    | _ =>
      (upTo ((n + 31) / 32)).foldl (fun v i =>
        v + physRead s (framePa frames (locVa w (off + 32 * i))) (min 32 (n - 32 * i)) * 2 ^ (256 * i)) 0

/-- A row of A or C, or a column of B. -/
def rowValue (s : State) (k : Nat) (frames : List (Nat × Nat × Nat)) (r : Nat × Nat × Nat) : Nat := operandBytes s k frames r.1 r.2.1 r.2.2

/-- The 32-byte row that holds a byte of the scales. -/
def scaleRow (s : State) (k : Nat) (frames : List (Nat × Nat × Nat)) (w a : Nat) : Nat :=
  let a := 32 * (a / 32)
  match locSrc w with
  | 0 => lmRead (coreOf s k) a 32
  | 1 => lmRead (coreOf s (locCore w)) a 32
  | _ => physRead s (framePa frames a) 32

/-! Arithmetic (R320, R57 to R64). -/

/-- One element of C: the incoming value, the row of A, the column of B, its scales. -/
def macElement (j : Job) (c a b sc : Nat) : Nat :=
  let ta := mxTypeA j
  let tb := mxTypeB j
  let wa := typeWidth ta
  let wb := typeWidth tb
  let ks := upTo (mxK j)
  let ea (i : Nat) : Nat := fld a (wa * i) wa
  let eb (i : Nat) : Nat := fld b (wb * i) wb
  if mxFmt j ≤ 7 then (dotFP c 16 (ks.map fun i => (unpack (fmtOf ta) (ea i), unpack (fmtOf tb) (eb i)))).1
  else if mxFmt j = 8 then pat 32 (ks.foldl (fun (v : Int) i => v + sgn 8 (ea i) * sgn 8 (eb i)) (c : Int))
  else if mxFmt j = 9 then
    let run := (upTo (scaleBytes j)).foldl (fun run g =>
      let e := fld sc (8 * g) 8
      let sum : Int := ((upTo 32).filter fun i => decide (32 * g + i < mxK j)).foldl (fun v i => v + beadUnits (eb (32 * g + i)) * sgn 8 (ea (32 * g + i))) 0
      let t : Num := if e = 0xFF then .nan false else .fin (decide (sum < 0)) sum.natAbs ((e : Int) - 133)
      (groupStep false [unpack fmtF32 run, t]).1) c
    (roundF fmtF32 .rne (mulNum (unpack fmtF32 run) (unpack fmtF32 (fld (dsc j 5) 0 32)))).1
  else
    (dotFP c 32 (ks.map fun i =>
      let e := fld sc (8 * (i / 32)) 8
      let w : Num := if e = 0xFF then .nan false else match beadNum (eb i) with | .fin n m x => decoded n m (x + e - 127) | y => y
      (unpack (fmtOf ta) (ea i), w))).1
where
  /-- A decoded weight: exact within the range of FP32, else rounded (R57). -/
  decoded (n : Bool) (m : Nat) (x : Int) : Num := unpack fmtF32 (packF fmtF32 .rne (.fin n m x)).1

/-- A key of an operand's row or unit among the rows of a job. -/
def keptKey (operand x : Nat) : Nat := 4 * x + operand

/-- What a job has read under a key, or what a read gives now (R294, R322). -/
def kept (rows : List (Nat × Nat × Nat)) (key : Nat) (now : Unit → Nat) : Nat × List (Nat × Nat × Nat) :=
  match rows.find? fun r => r.1 == key with
  | some r => (r.2.2, rows)
  | none =>
    let v := now ()
    (v, (key, 0, v) :: rows)

/-- Rows first to first + n - 1 of A or B, each read once by the job. -/
def keptRows (s : State) (k : Nat) (frames : List (Nat × Nat × Nat)) (operand first : Nat) :
    Nat → List (Nat × Nat × Nat) → List (Nat × Nat × Nat) → List Nat × List (Nat × Nat × Nat)
  | _, [], rows => ([], rows)
  | i, r :: rs, rows =>
    let u := kept rows (keptKey operand (first + i)) fun _ => rowValue s k frames r
    let q := keptRows s k frames operand first (i + 1) rs u.2
    (u.1 :: q.1, q.2)

/-- The scale bytes of a column: the 32-byte rows they lie in are read once by the job, whichever columns share them. -/
def keptScale (s : State) (k : Nat) (frames : List (Nat × Nat × Nat)) (r : Nat × Nat × Nat) (rows : List (Nat × Nat × Nat)) : Nat × List (Nat × Nat × Nat) :=
  (upTo r.2.2).foldl (fun q i =>
    let a := locAddr r.1 + r.2.1 + i
    let u := kept q.2 (keptKey 2 (a / 32)) fun _ => scaleRow s k frames r.1 a
    (q.1 + fld u.1 (8 * (a % 32)) 8 * 2 ^ (8 * i), u.2)) (0, rows)

/-- The scale bytes of columns. -/
def keptScales (s : State) (k : Nat) (frames : List (Nat × Nat × Nat)) : List (Nat × Nat × Nat) → List (Nat × Nat × Nat) → List Nat × List (Nat × Nat × Nat)
  | [], rows => ([], rows)
  | r :: rs, rows =>
    let u := keptScale s k frames r rows
    let q := keptScales s k frames rs u.2
    (u.1 :: q.1, q.2)

/-- The C rows of a tile, each with its bytes, and the operand rows that the job has then read (R294, R320). -/
def tileResult (s : State) (k : Nat) (j : Job) (frames : List (Nat × Nat × Nat)) (t : Nat × Nat × Nat × Nat) : List (Nat × Nat × List Byte) × List (Nat × Nat × Nat) :=
  let a := keptRows s k frames 0 t.1 0 (rowsA j t) j.rows
  let b := keptRows s k frames 1 t.2.1 0 (rowsB j t) a.2
  let sc := keptScales s k frames (rowsS j t) b.2
  (((rowsC j t).zip a.1).map fun q =>
    let c := if mxCzero j then 0 else rowValue s k frames q.1
    let row := (upTo t.2.2.2).flatMap fun i => toBytes 4 (macElement j (fld c (32 * i) 32) q.2 (nth 0 b.1 i) (nth 0 sc.1 i))
    (q.1.1, q.1.2.1, row), sc.2)

/-- The writes of a C row, one for each 32-byte row of its destination. -/
def rowWrites (k : Nat) (r : Nat × Nat × List Byte) : List Wr :=
  (upTo ((r.2.2.length + 31) / 32)).map fun i =>
    let data := (r.2.2.drop (32 * i)).take 32
    let off := r.2.1 + 32 * i
    match locSrc r.1 with
    | 0 => { kind := 0, unit := k, addr := locAddr r.1 + off, data := data }
    | 1 => { kind := 0, unit := locCore r.1, addr := locAddr r.1 + off, data := data }
    | _ => { kind := 2, unit := locVa r.1 off, data := data }

/-- Writes into local memory, the last of each bank in a cycle and those before it one a cycle, none before a first cycle (R225, R299). -/
def spreadWrites (first last : Nat) (ws : List Wr) : List (Nat × Wr) :=
  (ws.reverse.foldl (fun (q : List Nat × List (Nat × Wr)) w =>
    let b := rowAt w.addr % 3
    (setNth 0 q.1 b (nth 0 q.1 b + 1), (max first (last - nth 0 q.1 b), w) :: q.2)) ([], [])).2

/-! Errors (R300). -/

/-- Bytes become undefined at a physical address, with no other effect. -/
def spoilAt (pa : Nat) (data : List Byte) (s : State) : State :=
  if isDram pa then writeInPlace pa data s
  else if isPool pa then updDie s (poolDie pa) fun d => { d with pool := Memory.writeBytes d.pool (poolOff pa) data }
  else if isHost pa then { s with host := Memory.writeBytes s.host (pa - windowBase) data }
  else s

/-- Every byte of C that a failed job would write is undefined: free values (log 3) where C has a place. Nothing else changes (R15). -/
def spoilC (k : Nat) (j : Job) (s : State) : State :=
  let c := dsc j 3
  let seed := s.free
  let s := tick s
  (upTo (mxM j)).foldl (fun s i =>
    (upTo (mxN j / 8)).foldl (fun s b =>
      let off := mxLdc j * i + 32 * b
      let data := (upTo 32).map fun x => Config.freeByte (seed * 2 ^ 32 + (i * mxN j + 8 * b) * 4 + x)
      let own (t : Nat) (s : State) : State :=
        let x := coreOf s t
        let a := locAddr c + off
        if x.lmspill.toNat ≤ a ∧ a + 32 ≤ x.lmscr.toNat then updCore s t fun x => { x with lm := Memory.writeBytes x.lm a data } else s
      match locSrc c with
      | 0 => own k s
      | 1 => if sharedCode s j [(c, off, 32)] = 0 then own (locCore c) s else s
      | _ =>
        match walk s (theDom s k).root (locVa c off) with
        | .leaf e addr lev =>
          if (deniedLeaf e 1 j.priv).isSome then s else spoilAt (paOf (entryOf e addr lev (locVa c off)) (locVa c off)) data s
        | .fault _ => s) s) s

/-! Arbitration (R302, R332). -/

/-- Tiles that a visit to lane l may run. -/
def laneWeight (r : Rod) (l : Nat) : Nat := max 1 (fld r.weight.toNat (4 * l) 4)

/-- The next tile of a lane: of the job at its head, or none yet, while that job ends and another is behind it. -/
inductive LaneNext where
  | tile (j : Job) (x : Nat)
  | soon

/-- What a lane has left to run; none where its queue holds no tile to start, or its job waits for a fence (log 64). -/
def laneNext (s : State) (rod l : Nat) : Option LaneNext :=
  let k := 8 * rod + l
  match queueOf (coreOf s k) 1 with
  | [] => none
  | j :: js =>
    if !j.ending && decide (j.next < tileCount j) then (if fencesPassed s k j then some (.tile j j.next) else none)
    else match js with
      | [] => none
      | n :: _ => if n.after.all fun q => q.1 == 1 || fencesPassed s k { n with after := [q] } then some .soon else none

/-- The lane whose tile is next: the visited one until its visit ends, else the next in order. -/
def nextLane (s : State) (rod : Nat) : Option Nat :=
  let r := rodOf s rod
  if (r.mxNew ∨ 0 < r.mxLeft) ∧ (laneNext s rod r.mxLane).isSome then some r.mxLane
  else ((upTo 8).map fun i => (r.mxLane + 1 + i) % 8).find? fun l => (laneNext s rod l).isSome

/-- While the array is free the arbiter has chosen a lane and waits for its tile, whichever lanes receive jobs meanwhile (R332). -/
def arbitrate (rod : Nat) (s : State) : State :=
  let r := rodOf s rod
  if r.mxRuns.isSome then s
  else match nextLane s rod with
    | none => updRod s rod fun r => { r with mxNew := false, mxLeft := 0 }
    | some l => if l = r.mxLane ∧ (r.mxNew ∨ 0 < r.mxLeft) then s else updRod s rod fun r => { r with mxLane := l, mxNew := true, mxLeft := 0 }

/-! Fetch (R301). -/

/-- The sectors of global memory that rows lie in, by virtual address. -/
def rowSectors (rows : List (Nat × Nat × Nat)) : List Nat :=
  distinct (rows.flatMap fun r =>
    if locSrc r.1 ≠ 2 then []
    else
      let a := locVa r.1 r.2.1
      (upTo ((a % 256 + r.2.2 + 255) / 256)).map fun i => a / 256 + i)

/-- The lines of sectors, grouped by L2 set in increasing order of slice and set. -/
def lineGroups (lines : List Nat) : List (List Nat) :=
  ((distinct (lines.map setOfLine)).mergeSort).map fun x => lines.filter fun l => setOfLine l == x

/-- A way of the L2 of a die is pinned once more for a line (R301, R234). -/
def pinLine (die line : Nat) (s : State) : State :=
  match makeWay die line s with
  | (s, false) => s
  | (s, true) => let l := l2Of s die line; putL2 die line { l with pins := l.pins + 1 } s

/-- All of some lines of one set can be pinned. A request for which too few ways are unpinned, or of a line whose pin count is 255, pins none and waits as
one does that finds all 16 pinned: the manual gives only that wait (R234, DESIGN CHOICE, log 85). -/
def pinRoom (s : State) (die : Nat) (lines : List Nat) : Bool :=
  let d := dieAt s die
  let set := setOfLine (lines.headD 0)
  let pinned := d.l2.countP fun q => setOfLine q.1 == set && q.2.pins != 0 && !lines.contains q.1
  decide (pinned + lines.length ≤ 16) && lines.all fun l => decide ((l2Of s die l).pins < 255)

/-- The pins of a tile are requested set by set; at most 4 of one set, the other lines are bypass reads (R301). -/
def requestPins (rod k : Nat) : Nat → State → State
  | 0, s => s
  | fuel + 1, s =>
    let die := rod / Config.rodsPerDie
    match (rodOf s rod).mxTile with
    | none => s
    | some t =>
      match t.todo with
      | [] => s
      | lines :: rest =>
        let mine := lines.take 4
        if !pinRoom s die mine then updRod s rod fun r => { r with mxWait := true }
        else
          let s := mine.foldl (fun s l => pinLine die l s) s
          let s := if lines.length ≤ 4 then s else updCore s k fun c => { c with pinBypass := c.pinBypass + BitVec.ofNat 32 (lines.length - 4) }
          requestPins rod k fuel (updRod s rod fun r => { r with mxTile := some { t with todo := rest, pins := t.pins ++ mine }, mxWait := false })

/-- Pins of a tile are released; what waits for one looks again (R234, R301). -/
def releasePins (rod : Nat) (lines : List Nat) (s : State) : State :=
  let die := rod / Config.rodsPerDie
  if lines.isEmpty then s
  else
    let s := lines.foldl (fun s l =>
      match Table.find (dieAt s die).l2 l with
      | none => s
      | some x => putL2 die l { x with pins := x.pins - 1 } s) s
    (s.rods.filter fun q => q.1 / Config.rodsPerDie == die && q.2.mxWait).foldl (fun s q => evAt s.cycle 3 .pinGranted { a := q.1 } s) s

/-- The tile in fetch is given up, with its accesses. -/
def dropTile (rod : Nat) (s : State) : State :=
  match (rodOf s rod).mxTile with
  | none => s
  | some t => releasePins rod t.pins (updRod (dropAccs (fun id _ => t.wait.contains id) s) rod fun r => { r with mxTile := none, mxWait := false })

/-- The head job of core k fails (R300): a recoverable fault is posted, C is undefined, the completion is due; its tile in fetch is given
up. -/
def matrixFails (k code va : Nat) (post : Option Nat) (s : State) : State :=
  match headJob s k 1 with
  | none => s
  | some j =>
    let rod := rodOfCore k
    let s := spoilC k j (endJob k 1 code va s)
    let s := match (rodOf s rod).mxTile with | some t => if 8 * rod + t.lane = k then dropTile rod s else s | none => s
    let s := match post with
      | some cls => evAt s.cycle 3 .faultPost { a := dieOfCore k, b := 2, c := k, d := cls } s
      | none => s
    fetchTurnAt (s.cycle + 1) rod s

/-- The tile in fetch is ready: it starts when its rows are held and the array is free (R301). -/
def tileReady (rod : Nat) (s : State) : State :=
  match (rodOf s rod).mxTile with
  | none => s
  | some t =>
    let at_ := max t.at_ s.cycle
    let s := updRod s rod fun r => { r with mxTile := some { t with ready := true, at_ := at_ } }
    pushAt (max at_ (rodOf s rod).mxFree) 1 (2 * Config.allCores + rod) (.ev .tileStart { a := rod }) s

/-- The operand rows of a tile, without and with those of C. -/
def rowsIn (j : Job) (t : Nat × Nat × Nat × Nat) : List (Nat × Nat × Nat) := rowsA j t ++ rowsB j t ++ rowsS j t
def rowsRead (j : Job) (t : Nat × Nat × Nat × Nat) : List (Nat × Nat × Nat) := rowsIn j t ++ if mxCzero j then [] else rowsC j t

/-- A tile-fetch read of a sector, by its virtual address: through the die's L2, or past it at the line's home where its line has no way
(R300, R301). -/
def readSector (k rod : Nat) (j : Job) (t : Tile) (sec : Nat) (s : State) : Nat × State :=
  let pa := framePa t.frames (256 * sec)
  let x := { unitOf k j.priv .tileFetch { a := rod } s with
    kind := .uread, va := 256 * sec, pa := pa, home := frameHome t.frames (256 * sec), n := 256, page := 2 }
  unitStart (if isDram pa && !t.pins.contains (lineOf pa) then { x with place := theHome, lead := 150 + dramExtra s (lineOf pa) (sectorOf pa) } else x) s

/-- The tile-fetch unit asks for every token of a line that the tile will write (log 63). -/
def askTokens (k rod : Nat) (j : Job) (t : Tile) (sec : Nat) (s : State) : Nat × State :=
  unitStart { unitOf k j.priv .tileFetch { a := rod } s with
    kind := .uwrite, op := 2, va := 256 * sec, pa := framePa t.frames (256 * sec), home := frameHome t.frames (256 * sec), n := 1, page := 2 } s

/-- The pins of the tile in fetch are granted: its sectors are read (R301). -/
def pinsDone (rod : Nat) (s : State) : State :=
  match (rodOf s rod).mxTile with
  | none => s
  | some t =>
    if !t.todo.isEmpty || t.stage != 1 then s
    else
      let k := 8 * rod + t.lane
      match headJob s k 1 with
      | none => s
      | some j =>
        let a := tileAt j t.index
        let dram (sec : Nat) : Bool := isDram (framePa t.frames (256 * sec))
        let q := askAll (readSector k rod j t) (rowSectors (rowsRead j a)) s
        let cs := (rowSectors (rowsC j a)).filter dram
        let r := askAll (askTokens k rod j t) (distinct (cs.map fun c => c / 4 * 4)) q.2
        let s := updRod r.2 rod fun x => { x with mxTile := some { t with stage := 2, wait := q.1 ++ r.1 } }
        if (q.1 ++ r.1).isEmpty then tileReady rod s else s

/-- The pages of the tile in fetch are translated: its pins are requested, set by set (R301). -/
def tilePins (rod : Nat) (s : State) : State :=
  match (rodOf s rod).mxTile with
  | none => s
  | some t =>
    let k := 8 * rod + t.lane
    match headJob s k 1 with
    | none => s
    | some j =>
      let pas := (rowSectors (rowsRead j (tileAt j t.index))).map fun sec => framePa t.frames (256 * sec)
      let groups := lineGroups (distinct ((pas.filter isDram).map lineOf))
      let s := updRod s rod fun r => { r with mxTile := some { t with stage := 1, todo := groups } }
      pinsDone rod (requestPins rod k (groups.length + 1) s)

/-- Cycles until the rows of a tile in local memories are held: Table 0.2. -/
def localTime (k : Nat) (rows : List (Nat × Nat × Nat)) : Nat :=
  rows.foldl (fun t r => if locSrc r.1 = 0 then max t 1 else if locSrc r.1 = 1 then max t (sharedTime k (locCore r.1)) else t) 0

/-- TILE_FETCH of a rod: the next tile's shared rows are checked and its pages translated as loads, those of C, read or not, also as stores (R300, R301,
R321). -/
def tileFetch (rod : Nat) (s : State) : State :=
  if (rodOf s rod).mxTile.isSome then s
  else
    let s := arbitrate rod s
    match nextLane s rod with
    | none => s
    | some l =>
      let k := 8 * rod + l
      match laneNext s rod l with
      | some (.tile j x) =>
        let t := tileAt j x
        let code := sharedCode s j (rowsIn j t ++ rowsC j t)
        if code ≠ 0 then matrixFails k code 0 none s
        else
          let ask (cls : AccClass) (p : Nat × Nat) (s : State) : Nat × State := askPage k j.priv cls .tileFetch { a := rod } p.2 s
          let q := askAll (ask 0) (rowPages (rowsIn j t ++ rowsC j t)) s
          let r := askAll (ask 1) (rowPages (rowsC j t)) q.2
          let at_ := max j.since (s.cycle + localTime k (rowsRead j t))
          let s := updRod r.2 rod fun r' => { r' with mxTile := some { lane := l, job := j.id, index := x, at_ := at_, wait := q.1 ++ r.1 } }
          if (q.1 ++ r.1).isEmpty then tilePins rod s else s
      | _ => s

/-- CLASS of a fault that the tile in fetch meets at an address: that of a source, or of C (Table 18.7). -/
def tileClass (s : State) (k : Nat) (t : Tile) (va : Nat) : Nat :=
  match headJob s k 1 with
  | some j => if (rowPages (rowsIn j (tileAt j t.index))).any fun q => q.1 == va / 2 ^ 16 then 1 else 2
  | none => 1

/-- An access of the tile in fetch has ended: a translation, a read, or a request for tokens, either of which may have been translated again after a
NACK: the page is then in its new frame (R373). Its failure ends the job (R300). -/
def tileAccess (rod acc : Nat) (s : State) : State :=
  let x := accAt s acc
  let s := dropAcc acc s
  match (rodOf s rod).mxTile with
  | none => s
  | some t =>
    let k := 8 * rod + t.lane
    if !t.wait.contains acc then s
    else if x.stage = .fault then matrixFails k (x.got / 2) x.va (if x.got = 3 then some (if x.kind.cls = 0 then tileClass s k t x.va else 2) else none) s
    else
      let t := { t with wait := t.wait.filter (· != acc), frames := frameOf x :: t.frames.filter fun q => q.1 != x.va / 2 ^ 16 }
      let s := updRod s rod fun r => { r with mxTile := some t }
      if !t.wait.isEmpty then s else if t.stage = 0 then tilePins rod s else tileReady rod s

/-- PIN_GRANTED: the tile in fetch of a rod asks for its pins again (R234). -/
def pinGrant (rod : Nat) (s : State) : State :=
  match (rodOf s rod).mxTile with
  | none => s
  | some t => pinsDone rod (requestPins rod (8 * rod + t.lane) (t.todo.length + 1) s)

/-- The C rows of a tile leave: those in local memory land by the 24th cycle after its last MAC, which ends before cycle `free`; for global ones
the translation begins so early that they are performed in that cycle (R299, R240). -/
def writeC (rod k : Nat) (j : Job) (x free : Nat) (ws : List Wr) (s : State) : State :=
  let far := locSrc (dsc j 3) == 2
  let f : Flight :=
    { core := k, queue := 1, jobId := j.id, sector := x, trans := far
      writes := if far then ws.map fun w => (free + 23, w) else spreadWrites (s.cycle + 1) (free + 23) ws }
  let r := newFlight f s
  let ts := if far then [max s.cycle (free - 13)] else distinct (f.writes.map Prod.fst)
  ts.foldl (fun s t => engineAt t k .tileDone { a := rod, b := r.1 + 1, c := k } s) r.2

/-- TILE_START of a rod: the tile that the arbiter waits for starts; any other fetched tile is given up (R302, R303, R332). -/
def tileStart (rod : Nat) (s : State) : State :=
  let s := arbitrate rod s
  let r := rodOf s rod
  match r.mxTile with
  | none => s
  | some t =>
    if r.mxRuns.isSome || !t.ready || decide (s.cycle < max t.at_ r.mxFree) then s
    else
      let k := 8 * rod + t.lane
      match (if r.mxLane = t.lane then laneNext s rod t.lane else none) with
      | some (.tile j x) =>
        if j.id ≠ t.job ∨ x ≠ t.index then fetchTurnAt s.cycle rod (dropTile rod s)
        else
          let a := tileAt j x
          let free := s.cycle + a.2.2.1 / 16 * (mxK j / mxF j) * (if s.alarm then 2 else 1)
          let cols := tileResult s k j t.frames a
          let s := updRod s rod fun r =>
            { r with mxNew := false, mxLeft := (if r.mxNew then laneWeight r t.lane else r.mxLeft) - 1, mxFree := free, mxTile := none, mxRuns := some t
                     nTiles := if s.alarm then r.nTiles + 1 else r.nTiles }
          let s := putHead k 1 { j with next := x + 1, total := tileCount j, started := true, inFlight := j.inFlight + 1, rows := cols.2 } s
          fetchTurnAt s.cycle rod (evAt free 0 .tileDone { a := rod } (writeC rod k j x free (cols.1.flatMap (rowWrites k)) s))
      | _ => fetchTurnAt s.cycle rod (dropTile rod s)

/-- The C rows of flight id of core k may all be written: the job then ends with its last tile (R299). -/
def tileOver (rod k id : Nat) (s : State) : State :=
  match Table.find s.flights id with
  | none => s
  | some f =>
    if !flightOver f then s
    else
      let s := flightEnds k 1 id f .tileDone (fun n => { a := rod, b := n + 1, c := k }) s
      match headJob s k 1 with
      | none => s
      | some j => if j.inFlight = 0 ∧ j.total ≤ j.next then endJob k 1 0 0 s else s

/-- Cycle in which a C row that is due in a cycle, 24 after the last MAC, is performed at an address: then or, once it is translated, when it can; in
a pool no earlier than the latency of a pool after the last MAC (R299, R227, log 63). -/
def dueC (s : State) (k due pa : Nat) : Nat :=
  if isPool pa then max (due - 24) s.cycle + poolLatency (dieOfCore k) (poolDie pa) s else max due s.cycle

/-- The pages of C are translated as stores: its rows are performed in the cycle they are due, or when they can be (R299). -/
def sendC (rod k id : Nat) (j : Job) (s : State) : State :=
  match Table.find s.flights id with
  | none => s
  | some f =>
    let a : Args := { a := rod, b := id + 1, c := k }
    let go (w : Nat × Wr) (s : State) : Nat × State :=
      let x := { unitOf k j.priv .tileDone a s with
        kind := .uwrite, va := w.2.unit, pa := framePa f.frames w.2.unit, home := frameHome f.frames w.2.unit, n := w.2.data.length, val := w.2.value, page := 2 }
      if isWindow x.pa then unitStart x s
      else let q := freshId s; (q.1, pathAt q.1 (dueC s k w.1 x.pa) (putAcc q.1 { x with blocks := false } q.2))
    let q := askAll go f.writes s
    { q.2 with flights := Table.set q.2.flights id { f with writes := [], trans := false, wait := q.1 } }

/-- Accesses of the C rows of a flight: the translations are asked for (acc 0), or one has ended, or a write has. -/
def accessC (rod k id acc : Nat) (f : Flight) (j : Job) (s : State) : State :=
  if acc = 0 then
    let pages := distinct (f.writes.map fun w => w.2.unit / 2 ^ 16)
    let first (p : Nat) : Nat := ((f.writes.find? fun w => w.2.unit / 2 ^ 16 == p).map fun w => w.2.unit).getD 0
    let q := askAll (fun p => askPage k j.priv 1 .tileDone { a := rod, b := id + 1, c := k } (first p)) pages s
    { q.2 with flights := Table.set q.2.flights id { f with wait := q.1 } }
  else
    let acc := acc - 1
    let x := accAt s acc
    if !f.wait.contains acc then dropAcc acc s
    else if x.stage = .fault then matrixFails k (x.got / 2) x.va (if x.got = 3 then some 2 else none) (dropAcc acc s)
    else if x.op ≠ 3 then tileOver rod k id (endWait id acc s)
    else
      let f := { f with wait := f.wait.filter (· != acc), frames := f.frames ++ [frameOf x] }
      let s := dropAcc acc { s with flights := Table.set s.flights id f }
      if f.wait.isEmpty then sendC rod k id j s else s

/-- TILE_DONE of a rod: its MACs are done, its pins released and the array is free (b = 0); or C rows of flight b - 1 are written (R299,
R301). -/
def tileDone (rod b k acc : Nat) (s : State) : State :=
  if b = 0 then
    match (rodOf s rod).mxRuns with
    | none => s
    | some t =>
      let s := arbitrate rod (releasePins rod t.pins (updRod s rod fun r => { r with mxRuns := none }))
      let r := rodOf s rod
      fetchTurnAt s.cycle rod (if (r.mxNew || decide (0 < r.mxLeft)) && r.mxTile.any (fun t => t.lane != r.mxLane) then dropTile rod s else s)
  else
    match Table.find s.flights (b - 1), headJob s k 1 with
    | some f, some j =>
      if j.id ≠ f.jobId ∨ j.ending then dropAcc (acc - 1) s
      else if acc ≠ 0 ∨ f.trans then accessC rod k (b - 1) acc f j s
      else
        match landFlight j (b - 1) f .tileDone { a := rod, b := b, c := k } s with
        | (s, e + 1) => matrixFails k (e + 1) 0 none s
        | (s, 0) => tileOver rod k (b - 1) s
    | _, _ => if acc = 0 then s else dropAcc (acc - 1) s

/-- MX_CFG (R317). -/
def execMxCfg (e : Nat) (s : State) : Out :=
  runLocal .nobody 4 (mxCfgOp e) s

/-- MX_MM (R318). -/
def execMxMm (f e a d : Nat) (s : State) : Out :=
  let c := coreOf s s.cur
  let x := slotAt c (curSlot c)
  let j := newJob s 4 e 5 a f 0 0 [c.cfg0.toNat, c.cfg1.toNat, x.setBase, x.setSize]
  runGlobal (fun c _ => match jobTrap (theDom s s.cur) c e 5 badMm with | some t => some t | none => mmTrap c j) (jobAct (.mxMm f e a d) j e 5 a d) s

/-- PIN_GRANTED (R234). -/
def execPinGranted (s : State) : Out :=
  .next (pinGrant s.args.a s)

/-- TILE_FETCH (R301). -/
def execTileFetch (s : State) : Out :=
  .next (if s.args.d = 0 then tileFetch s.args.a s else tileAccess s.args.a (s.args.d - 1) s)

/-- TILE_START (R302). -/
def execTileStart (s : State) : Out :=
  .next (tileStart s.args.a s)

/-- TILE_DONE (R299). -/
def execTileDone (s : State) : Out :=
  .next (tileDone s.args.a s.args.b s.args.c s.args.d s)

end Sys2Proof.Machine
end

