-- ==== Sys2Proof/Machine/Barista.lean ====
section
/-!
DEFINITION. Barista: requests to the baristas and the instructions that only they execute (14 R304 to R306, 15 R323, R325 to R331).
-/

namespace Sys2Proof.Machine

/-- The barista of a channel, and its channel (R331). -/
def baristaOf (channel : Nat) : Nat := Config.cores + channel
def channelIs (k : Nat) : Nat := k - Config.cores

/-- Reserved bits of POST (Table 15.16). -/
def badPost (ds : List Nat) : Bool := fld (nth 0 ds 1) 20 44 != 0 || fld (nth 0 ds 1) 9 7 != 0

/-- Program entry of a request; its record (Table 14.8). -/
def postProg (j : Job) : Nat := fld (dsc j 1) 16 4
def requestRecord (j : Job) : Nat :=
  j.core + j.id * 2 ^ 32 + postProg j * 2 ^ 64 + (b2n (!j.free) + 2 * b2n j.priv) * 2 ^ 72 + j.dom % 2 ^ 16 * 2 ^ 80 +
  jobCtr j * 2 ^ 96 + j.inc % 2 ^ 32 * 2 ^ 128 + jobRec j * 2 ^ 160 +
  (upTo 5).foldl (fun v i => v + dsc j (i + 2) * 2 ^ (192 + 64 * i)) 0

/-! The ring (R304, R305, R326). -/

/-- Posts that wait enter the ring as places free (R304). -/
def fillRing : Nat → Core → Core
  | 0, c => c
  | n + 1, c =>
    match c.ringWait with
    | [] => c
    | j :: js => if 256 ≤ c.ring.length then c else fillRing n { c with ring := c.ring ++ [j], ringWait := js }

/-- The first record of the ring whose program entry is not empty; those before it end with CODE 0x09 (R326). -/
def nextRecord (k : Nat) : Nat → State → State × Option Job
  | 0, s => (s, none)
  | n + 1, s =>
    let c := coreOf s k
    match c.ring with
    | [] => (s, none)
    | j :: js =>
      let s := setCore s k (fillRing 1 { c with ring := js })
      if lmRead c (4 * postProg j) 4 = 0 then nextRecord k n (requestEnds j 9 0 s) else (s, some j)

/-- The record is written, is current, and its limit begins (R326). -/
def recordTaken (k a : Nat) (j : Job) (s : State) : State :=
  let s := updCore s k fun c => { lmWrite c a 64 (requestRecord j) with current := some { j with since := s.cycle, inFlight := 0, done_ := 0 }, takes := c.takes + 1 }
  evAt (s.cycle + 2 ^ 24) 0 .baristaRequestTimeout { a := k, b := (coreOf s k).takes } s

/-- A record is current, and the device has not ended it. -/
def liveRecord (c : Core) : Option Job := c.current.filter fun j => j.error == 0

/-- A range of barista local memory may be written: rows of 32 bytes (R325, R331). -/
def baristaStores (c : Core) (a n : Nat) : Option Trap := (upTo (n / 32)).findSome? fun i => regionTrap c (a + 32 * i) 32 true

def takeTrapOf (c : Core) (a : Nat) : Option Trap :=
  if (liveRecord c).isSome then some (illeg 4)
  else if rdW c a % 64 ≠ 0 then some (trapOf 3 1 (localInfo c (rdW c a)))
  else baristaStores c (rdW c a) 64

/-- The fuel of a search of the ring. -/
def ringFuel (c : Core) : Nat := c.ring.length + c.ringWait.length + 1

def takeAct (a d : Nat) (s : State) : State :=
  let k := s.cur
  let s := updCore s k fun c => { c with current := none }
  let c := coreOf s k
  match nextRecord k (ringFuel c) s with
  | (s, some j) =>
    let at_ := rdW c a
    let pc := lmRead c (4 * postProg j) 4
    complete 4 (fun c => { core := wrW c d pc, rd := [rowW c a], wr := [rowAt at_, rowAt (at_ + 32)] ++ rowsW c d, cost := 2 }) (recordTaken k at_ j s)
  | (s, none) => blockIn (.mclTake a d) 4 1 [rowW c a] (fun x => { x with opA := rdW c a }) s

/-- A barista that waits in mcl.take looks at its ring; the cost of a record taken falls here (R330). -/
def takeWaiting (k : Nat) (s : State) : State :=
  let c := coreOf s k
  let x := slotAt c 0
  match x.blockedIn with
  | some (.mclTake _ d) =>
    match nextRecord k (ringFuel c) s with
    | (s, some j) =>
      let pc := lmRead c (4 * postProg j) 4
      completeWait k 0 4 (fun c => [rowAt x.opA, rowAt (x.opA + 32)] ++ rowsW c d) (fun c => wrW c d pc) (payWake k 2 (recordTaken k x.opA j s))
    | (s, none) => s
  | _ => s

/-- BARISTA_RING_ENTER: request b of core a, of domain c, reaches its barista (R304). -/
def ringEnter (k id dom : Nat) (s : State) : State :=
  match headJob s k 2 with
  | none => s
  | some j =>
    if j.id ≠ id ∨ j.dom ≠ dom ∨ j.ending then s
    else
      let b := baristaOf (fld (dsc j 1) 0 9)
      let s := updCore s b fun c => fillRing 1 { c with ringWait := c.ringWait ++ [j] }
      takeWaiting b s

/-! Reads and pushes (R327, R328). -/

def readTrap (k sx a d : Nat) (c : Core) : Option Trap :=
  let pa := rdX c a
  let n := sx + 1
  if !isDram pa ∨ pa % 256 ≠ 0 ∨ channelOf (lineOf pa) ≠ channelIs k ∨ 4 < sectorOf pa + n then some (illeg 4)
  else if rdW c d % 32 ≠ 0 then some (trapOf 3 1 (localInfo c (rdW c d)))
  else baristaStores c (rdW c d) (256 * n)

/-- A sector of mcl.read is read at the home of its line (R305, R306). -/
def askSector (k : Nat) (pa lead : Nat) (s : State) : State :=
  (unitStart { unitOf k true .mclReadDone { a := k } s with kind := .uread, place := theHome, pa := pa, n := 256, phys := true, lead := lead } s).2

def readAct (sx a d : Nat) (s : State) : State :=
  let k := s.cur
  let c := coreOf s k
  let pa := rdX c a
  let s := blockIn (.mclRead sx a d) 6 1 [rowX c a, rowW c d] (fun x => { x with opA := pa, opB := rdW c d }) s
  (upTo (sx + 1)).foldl (fun s i => askSector k (pa + 256 * i) (20 + dramExtra s (lineOf pa) (sectorOf pa + i)) s) s

/-- MCL_READ_DONE of barista a: a sector as its home has it is in the local memory; with the last the task goes on (R327, R306). A line that
is marked moved answers with a NACK until its mark is released, and is asked for again (R373). -/
def readDone (k acc : Nat) (s : State) : State :=
  let y := accAt s acc
  let x := slotAt (coreOf s k) 0
  let s := dropAcc acc s
  match x.blockedIn with
  | some (.mclRead _ _ _) =>
    if y.stage = .fault then askSector k y.pa 57 s
    else
      let s := match liveRecord (coreOf s k) with | some j => poisonRead j.core (lineOf y.pa) s | none => s
      let s := updCore s k fun c => bankWrite c (x.opB + (y.pa - x.opA)) 256 y.got
      if s.accs.any fun q => q.2.core == k then s else completeWait k 0 4 (fun _ => []) id s
  | _ => s

/-- The checks of mcl.push (R328): the destination's fields, a record, then alignment and the rows read; none once the device has ended the request. -/
def pushTrap (r e a : Nat) (c : Core) : Option Trap :=
  let w := rdE c e
  let kind := fld w 62 2
  let n := 32 * (r + 1)
  if c.current.any fun j => j.error != 0 then none
  else if fld w 46 16 ≠ 0 ∨ 1 < kind ∨ (kind = 0 ∧ (fld w 15 11 ≠ 0 ∨ Config.cores ≤ fld w 26 20)) ∨ (kind = 1 ∧ Config.dies ≤ fld w 26 20) then some (illeg 4)
  else if c.current.isNone then some (illeg 4)
  else if kind = 0 ∧ fld w 0 26 % 32 ≠ 0 then some (trapOf 3 1 (localInfo c (fld w 0 26)))
  else if rdW c a % 32 ≠ 0 then some (trapOf 3 1 (localInfo c (rdW c a)))
  else (upTo (r + 1)).findSome? fun i => if i * 32 < n then regionTrap c (rdW c a + 32 * i) 32 false else none

def pushAct (r e a : Nat) (s : State) : State :=
  let k := s.cur
  let c := coreOf s k
  let w := rdE c e
  let at_ := rdW c a
  let s1 := complete 4 (fun c => { core := c, rd := [rowE c e, rowW c a], cost := r + 1 }) s
  match liveRecord c with
  | none => s1
  | some j =>
    let t := max (s.cycle + 80 + Config.slack s.free) j.since
    let ws : List (Nat × Wr) := (upTo (r + 1)).map fun i =>
      (t + i, { kind := fld w 62 2, unit := fld w 26 20, addr := fld w 0 26 + 32 * i, data := toBytes 32 (lmRead c (at_ + 32 * i) 32) })
    let f : Flight := { core := j.core, queue := 2, jobId := j.id, bytes := 32 * (r + 1), writes := ws }
    let s1 := updCore (tick s1) k fun c => { c with current := some { j with since := t + r, inFlight := j.inFlight + 1 } }
    let q := newFlight f s1
    ws.foldl (fun s w => engineAt w.1 f.core .baristaPushArrive { a := k, b := q.1 } s) q.2

/-! Ends of a request (R328, R329, R305). -/

/-- The device ends the current request of a barista in error; the program goes on. -/
def recordFails (k code : Nat) (s : State) : State :=
  let c := coreOf s k
  match liveRecord c with
  | none => s
  | some j =>
    let s := requestEnds j code 0 s
    match (slotAt c 0).blockedIn with
    | some .mclDone => completeWait k 0 4 (fun _ => []) id (updCore s k fun c => { c with current := none })
    | _ => updCore s k fun c => { c with current := some { j with error := code } }

/-- The current request of a barista is done: its completion is due, and no record is current. -/
def recordDone (k : Nat) (s : State) : State :=
  match liveRecord (coreOf s k) with
  | none => updCore s k fun c => { c with current := none }
  | some j => updCore (requestEnds j 0 0 s) k fun c => { c with current := none }

/-- BARISTA_PUSH_ARRIVE: the rows of flight b of barista a that are due are checked and applied (R328). -/
def pushArrives (k id : Nat) (s : State) : State :=
  match Table.find s.flights id, liveRecord (coreOf s k) with
  | some f, some j =>
    if f.core ≠ j.core ∨ f.jobId ≠ j.id then s
    else
      match landFlight j id f .baristaPushArrive { a := k, b := id } s with
      | (s, e) =>
        let left := (Table.get {} s.flights id).writes.length
        let j := { j with done_ := j.done_ + 32 * (f.writes.length - left), inFlight := if left = 0 then j.inFlight - 1 else j.inFlight }
        let s := updCore s k fun c => { c with current := some j }
        if e ≠ 0 then recordFails k e s else
        let s := if left = 0 then { s with flights := Table.erase s.flights id } else s
        match (slotAt (coreOf s k) 0).blockedIn with
        | some .mclDone => if j.inFlight = 0 then completeWait k 0 4 (fun _ => []) (fun c => c) (recordDone k s) else s
        | _ => s
  | _, _ => s

def doneAct (s : State) : State :=
  let k := s.cur
  match liveRecord (coreOf s k) with
  | none => complete 4 (fun c => { core := c }) (recordDone k s)
  | some j => if j.inFlight = 0 then complete 4 (fun c => { core := c }) (recordDone k s) else blockIn .mclDone 6 1 [] id s

/-- BARISTA_REQUEST_TIMEOUT: take b of barista a is not done within 2^24 cycles (R305, R329). -/
def takeExpires (k n : Nat) (s : State) : State := if (coreOf s k).takes = n then recordFails k 9 s else s

/-! Start (R331). -/

/-- BARISTA_START of barista a: its program begins at START in a workspace of zeros with SP = 0x0C00. -/
def baristaStarts (k : Nat) (s : State) : State :=
  let c := coreOf s k
  if c.running then s
  else
    let c := bankWrite c 0x400 0x400 0
    let c := bankWrite (bankWrite (bankWrite c (0x400 + offSp) 4 0xC00) (0x400 + offFloor) 4 0x800) (0x400 + offCeil) 4 0xC00
    let c := setSlot { c with running := true, busy := s.cycle, armed := none } 0 { live := true, pc := evenPc (lmRead c 0x40 4), readyAt := s.cycle }
    kick k s.cycle (setCore s k c)

/-- MC_POST (R323). -/
def execMcPost (n f e a d : Nat) (s : State) : Out :=
  let j := newJob s 5 e (2 + n) a f 0 0 []
  runGlobal (fun c _ => if 5 < n then some (illeg 4) else jobTrap (theDom s s.cur) c e (2 + n) badPost) (jobAct (.mcPost n f e a d) j e (2 + n) a d) s

/-- MCL_TAKE (R326). -/
def execMclTake (a d : Nat) (s : State) : Out :=
  runGlobal (fun c _ => takeTrapOf c a) (takeAct a d) s

/-- MCL_READ (R327). -/
def execMclRead (sx a d : Nat) (s : State) : Out :=
  runGlobal (fun c _ => readTrap s.cur sx a d c) (readAct sx a d) s

/-- MCL_PUSH (R328). -/
def execMclPush (r e a : Nat) (s : State) : Out :=
  runGlobal (fun c _ => pushTrap r e a c) (pushAct r e a) s

/-- MCL_DONE (R329). -/
def execMclDone (s : State) : Out :=
  runGlobal (fun c _ => if c.current.isNone then some (illeg 4) else none) doneAct s

/-- BARISTA_RING_ENTER (R304). -/
def execBaristaRingEnter (s : State) : Out :=
  .next (ringEnter s.args.a s.args.b s.args.c s)

/-- MCL_READ_DONE (R327). -/
def execMclReadDone (s : State) : Out :=
  .next (readDone s.args.a (s.args.d - 1) s)

/-- BARISTA_PUSH_ARRIVE (R328). -/
def execBaristaPushArrive (s : State) : Out :=
  .next (pushArrives s.args.a s.args.b s)

/-- BARISTA_REQUEST_TIMEOUT (R305). -/
def execBaristaRequestTimeout (s : State) : Out :=
  .next (takeExpires s.args.a s.args.b s)

/-- BARISTA_START (R331). -/
def execBaristaStart (s : State) : Out :=
  .next (baristaStarts s.args.a s)

end Sys2Proof.Machine
end

