-- ==== Sys2Proof/Machine/System.lean ====
section
/-!
DEFINITION. System: the system instructions, the save engine, the fault queue and containment (18 R338 to R354).
-/

namespace Sys2Proof.Machine

/-- A system instruction that no gang executes: what its fields rule out, then privilege, then the checks of its entry (R67, R340). -/
def sysRun (field : Option Trap) (own : Core → Option Trap) (act : State → State) (s : State) : Out :=
  runGlobal (fun c _ => match field with | some t => some t | none => if isPriv c then own c else some (trapOf 8 1 0)) act s

/-! Leaving the handler (R342, R338). -/

/-- The checks of eret: the handler issues it, and W(a) is the slot whose trap it serves. -/
def eretTrap (a : Nat) (c : Core) : Option Trap :=
  match c.serving with
  | none => some (illeg 4)
  | some i => if rdW c a = slotBase c i then none else some (illeg 4)

/-- The slot in which a handler ran is free: its status word reads halted, as that of every slot without a task (log 8). -/
def handlerOver (c : Core) : Core := let o := curSlot c; if (slotAt c o).live then c else setSt c o 0 3 stHalted

/-- A trap that waits is taken in the next cycle (R338). -/
def nextTrap (k : Nat) (s : State) : State :=
  if (coreOf s k).slots.any fun x => x.trap.isSome then evAt (s.cycle + 1) 0 .pendingTrap { a := k } s else s

/-- eret: the task resumes at the RPC of its frame, and issues in the third cycle after. -/
def eretAct (a : Nat) (s : State) : State :=
  let k := s.cur
  let i := (coreOf s k).serving.getD 0
  let s := complete 4 (fun c => { core := c, rd := [rowW c a] }) s
  let s := updCore s k fun c =>
    let x := slotAt c i
    let c := setSlot (handlerOver c) i { x with pc := evenPc (lmRead c (slotBase c i + offFrame + 4) 4) }
    { c with wsp := BitVec.ofNat 32 (slotBase c i), serving := none, moved := false, busy := max c.busy (s.cycle + 3) }
  tryGangs k (nextTrap k (makeRunnable k i (s.cycle + 3) s))

/-- eret.kill: the task is halted, and the core returns to its rotation. -/
def killAct (a : Nat) (s : State) : State :=
  let k := s.cur
  let i := (coreOf s k).serving.getD 0
  let s := complete 4 (fun c => { core := c, rd := [rowW c a] }) s
  let s := updCore s k fun c => { handlerOver c with serving := none, moved := true }
  tryGangs k (nextTrap k (kick k (coreOf s k).busy (haltSlot k i s)))

/-- PENDING_TRAP of core a: the lowest slot whose trap is pending takes it, if no handler runs (R338). In a gang that is the member's: the
leader takes it for the gang (R339); a trap of another task waits until the gang ends (log 67). -/
def takePending (k : Nat) (s : State) : State :=
  let c := coreOf s k
  if c.serving.isSome then s
  else match (upTo 8).find? fun i => (slotAt c i).trap.isSome && (c.gangSize == 0 || i == curSlot c) with
    | none => s
    | some i =>
      let x := slotAt c i
      match x.trap with
      | some t =>
        if c.gangSize = 0 then takeTrap k i t 0 x.report s
        else takeTrap c.gangBase (curSlot (coreOf s c.gangBase)) t (k - c.gangBase) x.report (updSlot s k i fun x => { x with trap := none })
      | none => s

/-! trap, idle, tlb.inv, wipe.sec (R340, R343, R344). -/

/-- idle pauses; the clock of a core without a runnable task stops. -/
def idleAct (s : State) : State :=
  let s := complete 4 (fun c => { core := pauseEff c }) s
  updCore s s.cur fun c => { c with stopped := !((upTo 8).any (canRun c)) }

def tlbTrap (s : State) (d : Nat) (c : Core) : Option Trap :=
  let mask := rdX c d
  let own := (theDom s s.cur).mask
  if mask = 0 ∨ 2 ^ Config.dies ≤ mask ∨ (upTo Config.dies).any (fun n => bit mask n && !bit own n) then some (illeg 4) else none

/-- tlb.inv waits until every named die has removed its entries. -/
def tlbAct (m a d : Nat) (s : State) : State :=
  let k := s.cur
  let c := coreOf s k
  let own := rdX c d == 2 ^ dieOfCore k
  let t := s.cycle + atLeast (if own then 64 else 160) s
  let rd := rowX c d :: (if m = 0 then [rowX c a] else [])
  let s := blockIn (.tlbInv m a d) 6 2 rd (fun x => { x with opA := rdX c d, opB := rdX c a }) (tick s)
  evAt t 0 .tlbInvDone { a := k, b := curSlot c } (updCore s k fun c => { c with bound := c.bound + 1 })

/-- Entries go from the TLBs of the dies of a mask, and the walks there that could bring one back start again from the root: in mode 0 those
in the granule of the address (R246, R386). -/
def invalidate (mask mode va : Nat) (s : State) : State :=
  restartWalks mask (fun a => mode != 0 || a / 2 ^ 21 == va % 2 ^ 57 / 2 ^ 21) (removeTlb mask mode va s)

/-- TLB_INV_DONE of slot b of core a (R343, R246). -/
def tlbDone (k i : Nat) (s : State) : State :=
  let x := slotAt (coreOf s k) i
  match x.blockedIn with
  | some (.tlbInv m _ _) => unbind k (completeWait k i 4 (fun _ => []) id (invalidate x.opA m x.opB s))
  | _ => unbind k s

/-- The region tests of wipe.sec for one row: a protected word refuses only where its slot is resident or is the handler's (R344). -/
def wipeRow (c : Core) (r : Nat) : Option Trap :=
  let info := localInfo c r
  if 0x6000 ≤ r then some (trapOf 4 1 info)
  else if r < 0x400 then some (trapOf 4 2 info)
  else if c.lmscr.toNat ≤ r then some (trapOf 4 3 info)
  else if (upTo (slotCount c)).any (fun i => hitsProtected c i r 32 && ((slotAt c i).live || slotBase c i == tvecBase c)) then some (trapOf 4 4 info)
  else none

/-- The checks of wipe.sec; a range of more than 769 rows meets the end of local memory within them. -/
def wipeTrap (a d : Nat) (c : Core) : Option Trap :=
  let at_ := rdW c a
  let n := rdW c d
  if at_ % 32 ≠ 0 ∨ n % 32 ≠ 0 then some (trapOf 3 1 (localInfo c at_))
  else if n = 0 then some (illeg 4)
  else (upTo (min (n / 32) 769)).findSome? fun i => wipeRow c (at_ + 32 * i)

def wipeOp (a d : Nat) : Local := fun c _ =>
  let at_ := rdW c a
  let n := rdW c d
  .ok { core := { c with lm := Memory.clear c.lm at_ (at_ + n) }, rd := [rowW c a, rowW c d], bank := (upTo (n / 32)).map fun i => rowAt at_ + i, cost := 1 + n / 32 }

/-! The save engine (R341). -/

def swTrap (out : Bool) (a d : Nat) (c : Core) : Option Trap :=
  let b := rdW c a
  let va := rdX c d
  let i := slotOf c b
  if va % 1024 ≠ 0 ∨ 2 ^ 57 ≤ va ∨ !isSlotBase c b ∨ b = wsBase c ∨ b = tvecBase c then some (illeg 4)
  else if out then (if (slotAt c i).live && (stState c i == stPaused || stState c i == stFrozen) then none else some (illeg 4))
  else if (slotAt c i).live || (slotAt c i).reserved then some (illeg 4) else none

/-- What names transfer id of core k in its events. -/
def swArgs (k id : Nat) : Args := { a := k, b := id }

/-- The issuer blocks until the transfer is done; the engine begins it when the instruction's cycles are over. The transfer stands among the
flights, as of queue 3, with the issuer's slot and the slot it concerns. -/
def swAct (ins : Instr) (a d : Nat) (s : State) : State :=
  let k := s.cur
  let c := coreOf s k
  let j := slotOf c (rdW c a)
  let s := blockIn ins 6 2 [rowW c a, rowX c d] (fun x => { x with opA := j, opB := rdX c d }) s
  let s := updCore s k fun c => setSlot { c with bound := c.bound + 1 } j { slotAt c j with reserved := true }
  let r := newFlight { core := k, queue := 3, jobId := curSlot c, sector := j } s
  evAt (s.cycle + 2) 0 .wsSwDone (swArgs k r.1) r.2

/-- The slot that the transfer of slot i concerns is as free as it was. -/
def swRelease (k j : Nat) (s : State) : State :=
  let s := updSlot s k j fun y => { y with reserved := false }
  selectAt (s.cycle + 1) (dieOfCore k) s

/-- The transfer fails: its accesses are given up, and the issuer takes the trap (R341). -/
def swFails (k id : Nat) (f : Flight) (t : Trap) (s : State) : State :=
  trapSlot k f.jobId t 0 (unbind k (swRelease k f.sector (dropFlights (fun n _ => n == id) s)))

/-- Line i of the image is written, with its row of the slot read in each of the cycles before (R341). -/
def swSend (k id : Nat) (f : Flight) (va : Nat) (i : Nat) (s : State) : Nat × State :=
  let c := coreOf s k
  let c := savedSlot f.sector c
  unitStart { unitOf k true .wsSwDone (swArgs k id) s with
    kind := .uwrite, va := va + 1024 * i, pa := framePa f.frames (va + 1024 * i), home := frameHome f.frames (va + 1024 * i), n := 1024
    val := lmRead c (slotBase c f.sector + 1024 * i) 1024, page := 2, lead := 36 + 32 * (i + 1) } s

/-- Sector i of the image is read (R341). -/
def swAsk (k id : Nat) (f : Flight) (va : Nat) (i : Nat) (s : State) : Nat × State :=
  unitStart { unitOf k true .wsSwDone (swArgs k id) s with
    kind := .uread, va := va + 256 * i, pa := framePa f.frames (va + 256 * i), home := frameHome f.frames (va + 256 * i), n := 256, page := 2 } s

/-- The pages of the image are translated: its lines are written, or its sectors read. -/
def swGoes (k id : Nat) (f : Flight) (s : State) : State :=
  let c := coreOf s k
  let va := (slotAt c f.jobId).opB
  let q := match (slotAt c f.jobId).blockedIn with
    | some (.wsSwOut _ _) => askAll (swSend k id f va) (upTo (slotSize c / 1024)) s
    | _ => askAll (swAsk k id f va) (upTo (slotSize c / 256)) s
  { q.2 with flights := Table.set q.2.flights id { f with trans := false, wait := q.1 } }

/-- A transfer begins: once nothing is outstanding into the slot that is saved, the pages of the image are translated (R341). -/
def swBegin (k id : Nat) (f : Flight) (s : State) : State :=
  let c := coreOf s k
  let x := slotAt c f.jobId
  let out := match x.blockedIn with | some (.wsSwOut _ _) => true | _ => false
  if out && (slotAt c f.sector).outst != 0 then evAt (s.cycle + 1) 0 .wsSwDone (swArgs k id) s
  else
    let last := x.opB + slotSize c - 1
    let pages := x.opB :: (if last / 2 ^ 16 = x.opB / 2 ^ 16 then [] else [last / 2 ^ 16 * 2 ^ 16])
    let q := askAll (askPage k true (if out then 1 else 0) .wsSwDone (swArgs k id)) pages s
    { q.2 with flights := Table.set q.2.flights id { f with trans := true, wait := q.1 } }

/-- The image that a transfer has read, as a memory of the slot. -/
def swImage (f : Flight) : Mem := f.writes.foldl (fun m w => Memory.writeBytes m w.2.addr w.2.data) []

/-- The image enters slot j: SPFLOOR, SPCEIL and SP for the new slot (R30, R341). It holds no TASK: the task takes the next number of its domain's
count, the only numbers that no other task has (R163, log 8); nor TILE, a free value unless DIMS says the task has none. -/
def swLoad (k j : Nat) (m : Mem) (s : State) : State :=
  let task := newTask s k
  let tile := if fld (Memory.read m offStatus 4) 14 3 = 7 then 0 else Config.pick s.free % 2 ^ 64
  resumePauseW k j (updCore (takeTasks k 1 (tick s)) k fun c =>
    let b := slotBase c j
    let old := Memory.read m offFloor 4 - 0x400
    let c := { c with lm := setRange c.lm b (slotSize c) m, buf := c.buf.filter fun r => !(decide (b / 32 ≤ r) && decide (r < (b + slotSize c) / 32)) }
    let c := bankWrite c (b + offFloor) 4 (b + 0x400)
    let c := bankWrite c (b + offCeil) 4 (b + slotSize c)
    let c := bankWrite c (b + offSp) 4 (pat 32 ((Memory.read m offSp 4 : Int) - old + b))
    setSlot c j { live := true, pc := evenPc (Memory.read m offPcSave 4), task := task, tile := tile })

/-- The transfer is over (R341): the slot that was saved is freed and its task's queues are given up, or the image is that of a paused or
frozen task and enters the slot. -/
def swOver (k id : Nat) (f : Flight) (s : State) : State :=
  let ends (s : State) : State := unbind k (completeWait k f.jobId 4 (fun _ => []) (fun c => c) { s with flights := Table.erase s.flights id })
  match (slotAt (coreOf s k) f.jobId).blockedIn with
  | some (.wsSwOut _ _) => ends (freeSlot k f.sector (dropWatches k f.sector (updCore s k fun c => dropQueues c f.sector)))
  | _ =>
    let m := swImage f
    let st := fld (Memory.read m offStatus 4) 0 3
    if st ≠ stPaused ∧ st ≠ stFrozen ∨ slotBase (coreOf s k) f.sector = tvecBase (coreOf s k) then swFails k id f (illeg 4) s else ends (swLoad k f.sector m s)

/-- An access of transfer id has ended: a translation; a line that is written, which is clean at its home when it is acknowledged (second of
two events); a sector that is read. -/
def swAccess (k id acc : Nat) (f : Flight) (second : Bool) (s : State) : State :=
  let x := accAt s acc
  let f' := { f with wait := f.wait.filter (· != acc) }
  let keep (f : Flight) (s : State) : State := dropAcc acc { s with flights := Table.set s.flights id f }
  if !f.wait.contains acc then dropAcc acc s
  else if x.stage = .fault then swFails k id f (trapOf 5 (x.got / 2) x.va) (dropAcc acc s)
  else if x.op = 3 then
    let f' := { f' with frames := f'.frames ++ [frameOf x] }
    if f'.wait.isEmpty then swGoes k id f' (keep f' s) else keep f' s
  else if x.kind = .uwrite ∧ !second then
    evAt (s.cycle + (if isDram x.pa then cleanTime s (dieOfCore k) [lineOf x.pa] else 0)) 3 .wsSwDone { a := k, b := id, c := 1, d := acc + 1 } s
  else
    let f' := if x.kind = .uwrite then f' else { f' with writes := f'.writes ++ [(0, { addr := x.va - (slotAt (coreOf s k) f.jobId).opB, data := toBytes 256 x.got })] }
    let s := if x.kind = .uwrite ∧ isDram x.pa then cleanLine (lineOf x.pa) s else s
    if f'.wait.isEmpty then swOver k id f' (keep f' s) else keep f' s

/-- WS_SW_DONE: transfer b of core a begins, or access d - 1 of it has ended (R341). -/
def swStep (k id acc : Nat) (second : Bool) (s : State) : State :=
  match Table.find s.flights id with
  | none => if acc = 0 then s else dropAcc (acc - 1) s
  | some f => if acc = 0 then swBegin k id f s else swAccess k id (acc - 1) f second s

/-! The fault queue (R345 to R349). -/

def fqBase : Nat := 0x300000
def fqAt (i : Nat) : Nat := fqBase + 64 * i
/-- A field of an entry (Table 18.7). -/
def fqField (s : State) (die i off n : Nat) : Nat := poolRead s die (fqAt i + off) n

/-- What a fault concerns: its requester, with its class and address. -/
def wantOf (s : State) (kind id cls : Nat) : Option Want :=
  match kind with
  | 0 => (Table.find s.accs id).bind fun x => if x.stage = .fault then some { kind := 0, id := id, cls := cls, va := x.va, core := x.core } else none
  | 1 => (headJob s id 0).bind fun j => j.fault.map fun f => { kind := 1, id := id, cls := cls, va := f.2, core := id }
  | _ => (headJob s id 1).map fun j => { kind := 2, id := id, cls := cls, va := j.errVa, core := id }

/-- Bit of REQ for a requester (Table 18.7). -/
def reqBit (w : Want) : Nat := w.core % Config.coresPerDie / 128 + (if w.kind = 0 then 0 else 128)

/-- The entries in STATE 1 or 2 of a die. -/
def fqLive (s : State) (die : Nat) : List Nat := ((dieAt s die).fqOf.map Prod.fst).filter fun i => decide (i < Config.faultEntries)

/-- The oldest pending entry of a die (R348). -/
def fqOldest (s : State) (die : Nat) : Option Nat :=
  ((fqLive s die).filter fun i => fqField s die i 9 1 == 1).foldl (fun b i =>
    match b with
    | none => some i
    | some j => if fqField s die i 0x3C 4 < fqField s die j 0x3C 4 then some i else some j) none

/-- Entry i of a die is taken: STATE 2, and its 64 bytes (R348). -/
def fqClaim (die i : Nat) (s : State) : State × Nat :=
  let s := poolWrite die (fqAt i + 9) 1 2 s
  (s, fqField s die i 0 64)

/-- The entry's bytes go to local memory, then its index to W(d) (R348). -/
def fqGives (at_ d i bytes : Nat) (c : Core) : Core := wrW (lmWrite c at_ 64 bytes) d i
def fqRows (at_ d : Nat) (c : Core) : List Nat := [rowAt at_, rowAt (at_ + 32)] ++ rowsW c d

/-- A task of the die that waits in fq.take takes the oldest pending entry (R348); a handler's may wait too. -/
def serveTakers (die : Nat) (s : State) : State :=
  match fqOldest s die with
  | none => s
  | some e =>
    match (s.cores.find? fun q => !isBarista q.1 && dieOfCore q.1 == die && (upTo 8).any fun i => inFqTake (slotAt q.2 i)) with
    | none => s
    | some (k, c) =>
      let i := ((upTo 8).find? fun i => inFqTake (slotAt c i)).getD 0
      match (slotAt c i).blockedIn with
      | some (.fqTake _ d) =>
        let at_ := (slotAt c i).opA
        let q := fqClaim die e s
        completeWait k i 4 (fqRows at_ d) (fqGives at_ d e q.2) q.1
      | _ => s

/-- A fault merges into an entry, takes a free one, or waits for one (R347). -/
def postFault (die : Nat) (w : Want) (s : State) : State :=
  let page := w.va / 2 ^ 16 * 2 ^ 16
  let add (i : Nat) (s : State) : State :=
    updDie s die fun d => { d with fqOf := Table.set d.fqOf i (Table.get [] d.fqOf i ++ (if w.kind = 2 then [] else [w])) }
  match (fqLive s die).find? fun i => fqField s die i 0 8 == page && fqField s die i 8 1 == w.cls with
  | some i =>
    let s := add i s
    let cnt := min 0xFFFF (fqField s die i 0x0A 2 + 1)
    poolWrite die (fqAt i + 0x0A) 2 cnt (poolWrite die (fqAt i + 0x10) 32 (Nat.lor (fqField s die i 0x10 32) (2 ^ reqBit w)) s)
  | none =>
    match (upTo Config.faultEntries).find? fun i => !(fqLive s die).contains i with
    | none => updDie s die fun d => { d with fqWait := d.fqWait ++ [w] }
    | some i =>
      let seq := (dieAt s die).seq
      let dom := match domOfDie s die with | some m => (domAt s m).number | none => 0
      let word := page + w.cls * 2 ^ 64 + 2 ^ 72 + 2 ^ 80 + dom % 2 ^ 32 * 2 ^ 96 + 2 ^ reqBit w * 2 ^ 128 + w.va % 2 ^ 64 * 2 ^ 384 +
        w.core % 2 ^ 32 * 2 ^ 448 + seq.toNat * 2 ^ 480
      let s := add i (updDie s die fun d => { d with seq := d.seq + 1 })
      serveTakers die (poolWrite die (fqAt i) 64 word s)

/-- A fault is placed; the copy job whose fault it is goes on once it is posted, not while it waits for an entry (R347, R355). -/
def placeFault (die : Nat) (w : Want) (s : State) : State :=
  let s := postFault die w s
  if w.kind = 1 ∧ ¬ (dieAt s die).fqWait.contains w then faultIsPosted w.id s else s

/-- Faults that wait for an entry of a die: in order, each merges, takes a free entry or waits on (R347). -/
def placeFaults (die : Nat) (s : State) : State :=
  let ws := (dieAt s die).fqWait
  ws.foldl (fun s w => placeFault die w s) (updDie s die fun d => { d with fqWait := [] })

/-- FAULT_POST: a fault of kind b and number c, of class d, is posted on die a, behind those that wait (R345, R347). -/
def faultPosted (die kind id cls : Nat) (s : State) : State :=
  match wantOf s kind id cls with
  | none => s
  | some w => placeFaults die (updDie s die fun d => { d with fqWait := d.fqWait ++ [w] })

/-- A requester is released: an access walks again from the root, a copy job replays (R349); or it ends (R349). -/
def releaseWant (disp : Nat) (w : Want) (s : State) : State :=
  match w.kind with
  | 0 =>
    match Table.find s.accs w.id with
    | none => s
    | some x =>
      if x.stage ≠ .fault then s
      else if disp = 0 then joinWalk w.id (putAcc w.id { x with stage := .walk } s)
      else failAcc w.id 1 s
  | 1 => if disp = 0 then evAt s.cycle 3 .copyReplay { a := w.id, b := w.va / 2 ^ 16 } s else copyExhausted w.id w.va s
  | _ => s

/-- FAULT_REQUESTER_RELEASE: the requesters of entry b of die a, set aside by fq.done, with the disposition c (R349). -/
def releaseWants (die key disp : Nat) (s : State) : State :=
  let ws := Table.get [] (dieAt s die).fqOf key
  ws.foldl (fun s w => releaseWant disp w s) (updDie s die fun d => { d with fqOf := Table.erase d.fqOf key })

def fqTakeTrap (a : Nat) (c : Core) : Option Trap :=
  let at_ := rdW c a
  if at_ % 32 ≠ 0 then some (trapOf 3 1 (localInfo c at_))
  else match regionTrap c at_ 32 true with
    | some t => some t
    | none => regionTrap c (at_ + 32) 32 true

def fqTakeAct (nb : Bool) (ins : Instr) (a d : Nat) (s : State) : State :=
  let k := s.cur
  let die := dieOfCore k
  let c := coreOf s k
  let at_ := rdW c a
  match fqOldest s die with
  | some e =>
    let q := fqClaim die e s
    complete 4 (fun c => { core := fqGives at_ d e q.2 c, rd := [rowW c a], wr := fqRows at_ d c, cost := 2 }) q.1
  | none =>
    if nb then complete 4 (fun c => { core := wrW c d (2 ^ 32 - 1), rd := [rowW c a], wr := rowsW c d, cost := 2 }) s
    else blockIn ins 4 2 [rowW c a] (fun x => { x with opA := at_ }) s

def fqDoneTrap (s : State) (a : Nat) (c : Core) : Option Trap :=
  let i := rdW c a
  let die := dieOfCore s.cur
  if 1023 < i ∨ !(fqLive s die).contains i ∨ fqField s die i 9 1 ≠ 2 then some (illeg 4) else none

def fqDoneAct (n a : Nat) (s : State) : State :=
  let k := s.cur
  let die := dieOfCore k
  let i := rdW (coreOf s k) a
  let s := complete 4 (fun c => { core := c, rd := [rowW c a], cost := 2 }) s
  let key := Config.faultEntries + i
  let ws := Table.get [] (dieAt s die).fqOf i
  let s := updDie s die fun d => { d with fqOf := Table.set (Table.erase d.fqOf i) key ws }
  let s := poolWrite die (fqAt i + 9) 1 0 s
  let s := evAt (s.cycle + 1) 0 .faultRequesterRelease { a := die, b := key, c := n } s
  if (dieAt s die).fqWait.isEmpty then s else evAt s.cycle 3 .faultEntryResume { a := die } s

/-- UNCORRECTABLE_ERROR: core a detects one in data it reads, of subcode b (R352); or, with c not 0, one arises in DRAM line c - 1, which is
marked poisoned (R353). -/
def eccError (k sub line : Nat) (s : State) : State :=
  if line ≠ 0 then updHome s (line - 1) fun h => { h with poison := true }
  else match domOf s k with | some m => contain m 6 sub k 0 s | none => s

/-- WS_SW_OUT (R341). -/
def execWsSwOut (a d : Nat) (s : State) : Out :=
  sysRun none (swTrap true a d) (swAct (.wsSwOut a d) a d) s

/-- WS_SW_IN (R341). -/
def execWsSwIn (a d : Nat) (s : State) : Out :=
  sysRun none (swTrap false a d) (swAct (.wsSwIn a d) a d) s

/-- ERET (R342). -/
def execEret (a : Nat) (s : State) : Out :=
  sysRun none (eretTrap a) (eretAct a) s

/-- ERET_KILL (R342). -/
def execEretKill (a : Nat) (s : State) : Out :=
  sysRun none (eretTrap a) (killAct a) s

/-- SYSC (R340). -/
def execSysc (n : Nat) (s : State) : Out :=
  runGlobal (fun _ _ => some (trapOf 9 n 0)) id s

/-- TRAP (R340). -/
def execTrap (n a : Nat) (s : State) : Out :=
  sysRun (if n = 0 ∨ n = 6 ∨ 13 < n then some (illeg 4) else none) (fun c => some (trapOf n (rdW c a % 256) 0)) id s

/-- TLB_INV (R343). -/
def execTlbInv (m a d : Nat) (s : State) : Out :=
  sysRun (if (m = 1 ∨ m = 2) ∧ a ≠ 0 then some (illeg 2) else if m = 3 then some (illeg 4) else none) (tlbTrap s d) (tlbAct m a d) s

/-- FQ_TAKE (R348). -/
def execFqTake (a d : Nat) (s : State) : Out :=
  sysRun none (fqTakeTrap a) (fqTakeAct false (.fqTake a d) a d) s

/-- FQ_TAKE_NB (R348). -/
def execFqTakeNb (a d : Nat) (s : State) : Out :=
  sysRun none (fqTakeTrap a) (fqTakeAct true (.fqTakeNb a d) a d) s

/-- FQ_DONE (R349). -/
def execFqDone (n a : Nat) (s : State) : Out :=
  sysRun (if 1 < n then some (illeg 4) else none) (fqDoneTrap s a) (fqDoneAct n a) s

/-- IDLE (R340). -/
def execIdle (s : State) : Out :=
  sysRun none (fun _ => none) idleAct s

/-- WIPE_SEC (R344). -/
def execWipeSec (a d : Nat) (s : State) : Out :=
  sysRun none (wipeTrap a d) (fun s => match wipeOp a d (coreOf s s.cur) 0 with | .ok e => complete 4 (fun _ => e) s | .error _ => s) s

/-- PENDING_TRAP (R338). -/
def execPendingTrap (s : State) : Out :=
  .next (takePending s.args.a s)

/-- IDLE_WAKE (R340). -/
def execIdleWake (s : State) : Out :=
  .next (kick s.args.a s.cycle (updCore s s.args.a fun c => { c with stopped := false }))

/-- TLB_INV_DONE (R246). -/
def execTlbInvDone (s : State) : Out :=
  .next (tlbDone s.args.a s.args.b s)

/-- WS_SW_DONE (R341). -/
def execWsSwDone (s : State) : Out :=
  .next (swStep s.args.a s.args.b s.args.d (s.args.c == 1) s)

/-- FAULT_POST (R345). -/
def execFaultPost (s : State) : Out :=
  .next (faultPosted s.args.a s.args.b s.args.c s.args.d s)

/-- FAULT_ENTRY_RESUME (R347). -/
def execFaultEntryResume (s : State) : Out :=
  .next (placeFaults s.args.a s)

/-- FAULT_REQUESTER_RELEASE (R349). -/
def execFaultRequesterRelease (s : State) : Out :=
  .next (releaseWants s.args.a s.args.b s.args.c s)

/-- UNCORRECTABLE_ERROR (R353). -/
def execUncorrectableError (s : State) : Out :=
  .next (eccError s.args.a s.args.b s.args.c s)

end Sys2Proof.Machine
end

