-- ==== Sys2Proof/Machine/Launch.lean ====
section
/-!
DEFINITION. Launch: the launch queues, the packets that start, hold, release, evict and restore domains, and the end of a domain's dies
(22 R385 to R393, 18 R350, R351).
-/

namespace Sys2Proof.Machine

/-! Ranges of DRAM. -/

/-- Lines that hold bytes of a range. -/
def linesOf (pa n : Nat) : List Nat := if n = 0 then [] else (upTo ((pa + n - 1) / 1024 + 1 - pa / 1024)).map (pa / 1024 + ·)

/-- Lines of a range whose owner token is not at the home. -/
def linesOut (s : State) (pa n : Nat) : List Nat :=
  (s.homes.filter fun q => !q.2.owner && decide (pa < (q.1 + 1) * 1024) && decide (q.1 * 1024 < pa + n)).map Prod.fst

/-- The bytes of a range of DRAM as a coherent read returns them: those of the home, but for lines whose owner token is elsewhere (R359). -/
def dramRange (s : State) (pa n : Nat) : Mem :=
  let lo := pa / 1024 * 1024
  let atHomes := Memory.slice s.dram lo ((pa + n + 1023) / 1024 * 1024)
  let m := (linesOut s pa n).foldl (fun m l => setRange m (l * 1024 - lo) 1024 (lineBytes s l)) atHomes
  Memory.slice m (pa - lo) (pa - lo + n)

/-- An access lies in a range of DRAM. -/
def inRange (pa n : Nat) (x : Acc) : Bool := isDram x.pa && decide (pa / 1024 ≤ lineOf x.pa) && decide (x.pa < pa + n)

/-- The sectors of a range enter their LLC slices, as an access at the home has them (R235). -/
def homeTouch (pa n : Nat) (s : State) : State :=
  let within (l j : Nat) : Bool := decide (l * 1024 + 256 * j < pa + n) && decide (pa < l * 1024 + 256 * (j + 1))
  (linesOf pa n).foldl (fun s l => llcTouch l (((upTo 4).map fun j => b2n (within l j) * 2 ^ j).sum) s) s

/-- Bytes of a range of DRAM written at the home, which holds all tokens of each line (R383): older reads take no newer read in (R265), waits
on the sectors wake (R261), a line written whole loses a poison mark (R353). -/
def homeStore (pa n : Nat) (src : Mem) (s : State) : State :=
  let whole (l : Nat) : Bool := decide (pa ≤ l * 1024) && decide (l * 1024 + 1024 ≤ pa + n)
  let s := homeTouch pa n s
  let s := { s with dram := setRange s.dram pa n src, homes := s.homes.map fun q => if whole q.1 then (q.1, { q.2 with poison := false }) else q }
  let mine := s.accs.filter fun q => inRange pa n q.2
  let s := (distinct ((mine.filter fun q => q.2.stage == .tokens).map fun q => lineOf q.2.pa)).foldl (fun s l => shutReads l s) s
  (distinct ((mine.filter fun q => q.2.kind == .wait).map fun q => q.2.pa / 256)).foldl (fun s x => wakeWaits (x * 256) s) s

/-- A write of the host to bytes of one line begins at the line's home, which first collects all tokens by a request of its own (R383). -/
def homeStart (pa n v : Nat) (s : State) : State :=
  let q := freshId s
  atL2 q.1 (putAcc q.1 { kind := .uwrite, core := hostUnit, place := theHome, stage := .path, pa := pa, n := n, val := v, page := 2, phys := true, blocks := false
                         next := some (.hostDramWrite, { c := q.1 + 1 }) } q.2)

/-- The writes of the host to DRAM that are not performed yet. -/
def hostWrites (s : State) : List Nat :=
  (s.accs.filter fun q => (match q.2.next with | some (.hostDramWrite, _) => true | _ => false) && q.2.stage != .back && q.2.stage != .fault).map Prod.fst

/-! Packets (Tables 22.5, 22.7). -/

def launchQ (s : State) (qi : Nat) : LaunchQueue := Table.get {} s.launch qi
def updLaunchQ (s : State) (qi : Nat) (f : LaunchQueue → LaunchQueue) : State := { s with launch := Table.set s.launch qi (f (launchQ s qi)) }

/-- The packet of a slot of a launch queue, and a field of it. -/
def packetAt (s : State) (qi slot : Nat) : Mem := Memory.slice (launchQ s qi).slots (128 * slot) (128 * slot + 128)
def pkt (p : Mem) (off n : Nat) : Nat := Memory.read p off n

/-- Fields of a launch packet (Table 22.5). -/
def pkSpill (p : Mem) : Nat := fld (pkt p 0x3C 4) 0 5 * 0x400
def pkL1 (p : Mem) : Nat := fld (pkt p 0x3C 4) 5 5 * 0x400
def pkCarve (p : Mem) : Nat := fld (pkt p 0x3C 4) 10 3
def pkFirst (p : Mem) (off : Nat) : Nat := fld (pkt p off 4) 0 14
def pkCount (p : Mem) (off : Nat) : Nat := fld (pkt p off 4) 14 15
def pkTvec (p : Mem) : Word := BitVec.ofNat 32 (pkt p 0x48 4 / 2 ^ 10 * 2 ^ 10)

/-- A core as the launch writes it, before its identity words (R19, R390). -/
def pkCore (s : State) (p : Mem) : Core :=
  { lm := Memory.write (Memory.clear (dramRange s (pkt p 0x28 8) 960) 960 1024) (4 * 245) 4 (pkt p 4 4)
    lmspill := BitVec.ofNat 32 (pkSpill p), lmscr := BitVec.ofNat 32 (pkL1 p), lml1 := BitVec.ofNat 32 (pkL1 p)
    tvec := pkTvec p, carve := pkCarve p }

/-- A domain that has not ended bears a number. -/
def liveNumber (s : State) (n : Nat) : Option Nat := (s.domains.find? fun q => q.2.number == n && !q.2.ended).map Prod.fst

/-- BOUND is valid under R22 and holds a slot (R24, R390). -/
def boundOk (p : Mem) : Bool :=
  pkt p 0x3C 4 / 2 ^ 13 == 0 && decide (0x800 ≤ pkSpill p) && decide (pkSpill p ≤ pkL1 p) && [0x4000, 0x5000, 0x6000].contains (pkL1 p) &&
  decide (1 ≤ (pkSpill p - 0x400) / ((1 + pkCarve p) * 0x400))

/-- TVEC with EN = 1 names a slot base other than slot 0 (R334, R390). -/
def tvecOk (s : State) (p : Mem) : Bool :=
  let c := pkCore s p
  !tvecEn c || (isSlotBase c (tvecBase c) && tvecBase c != 0x400)

/-- CORES and PCORES (Table 22.5, R390). -/
def coresOk (p : Mem) : Bool :=
  let f := pkFirst p 0x40
  let n := pkCount p 0x40
  let g := pkFirst p 0x44
  let m := pkCount p 0x44
  pkt p 0x40 4 / 2 ^ 29 == 0 && pkt p 0x44 4 / 2 ^ 29 == 0 && decide (1 ≤ n) && decide (f + n ≤ Config.coresPerDie) &&
  (m == 0 || (decide (f ≤ g) && decide (g + m ≤ f + n)))

/-- A privileged field is set (R390). -/
def pkPrivileged (p : Mem) : Bool := pkCount p 0x44 != 0 || bit (pkt p 0x48 4) 15 || pkt p 0x5F 1 != 0

/-- Bytes of the save area of an eviction of D dies (R392). -/
def saveSize (d : Nat) : Nat := 0x6000 * Config.coresPerDie * d + 0x4000000 * d

/-- A launch or a restore is accepted (R389, R390); a module in RETIRED runs no domain (Table 22.11). -/
def launchOk (s : State) (qi : Nat) (p : Mem) : Bool :=
  let dram (a n : Nat) : Bool := decide (a + n ≤ dramTop)
  let mask := pkt p 8 8
  let codeLen := pkt p 0x20 4
  s.lcs != 3 && pkt p 1 3 == 0 && (liveNumber s (pkt p 4 4)).isNone &&
  mask != 0 && decide (mask < 2 ^ Config.dies) &&
  pkt p 0x10 8 % 4096 == 0 && isDram (pkt p 0x10 8) &&
  pkt p 0x18 8 % 256 == 0 && dram (pkt p 0x18 8) codeLen && decide (2 ≤ codeLen) && decide (codeLen ≤ 2 ^ 24) && codeLen % 2 == 0 &&
  pkt p 0x24 4 % 2 == 0 && decide (pkt p 0x24 4 < codeLen) &&
  dram (pkt p 0x28 8) 960 && decide (pkt p 0x38 4 ≤ 0x5C00) && (pkt p 0x30 8 == 0 || dram (pkt p 0x30 8) (pkt p 0x38 4)) &&
  boundOk p && coresOk p && tvecOk s p &&
  pkt p 0x66 2 == 0 && (upTo 16).all (fun i => fld (pkt p 0x60 8) (3 * i) 3 != 7) &&
  pkt p 0x68 8 % 32 == 0 &&
  (if pkt p 0 1 = 1 then pkt p 0x70 8 == 0 && pkt p 0x78 8 == 0 else dram (pkt p 0x70 8) (saveSize (diesOf mask).length)) &&
  (!pkPrivileged p || (launchQ s qi).priv)

/-- A refusal changes nothing and is reported (R390, R391). -/
def refuse (qi report dom : Nat) (s : State) : State := writeReport report (qi / 16) dom 3 0 0 0 0 s

/-- A record that stands for the entry task of a launch (R160, R390). -/
def entryRecord (p : Mem) (priv : Bool) : Mem :=
  Memory.write (Memory.write (Memory.write [] 0 4 (pkt p 0x24 4)) 4 4 (b2n priv * 2 ^ 3 + 7 * 2 ^ 4)) 0x20 16 (pkt p 0x50 16)

/-- The launch writes core k, which it names: its local image, and the entry task in slot 0 (R160, R167, R390). -/
def launchCore (p loc : Mem) (m k : Nat) (s : State) : State :=
  let i := k % Config.coresPerDie
  let img := entryRecord p (decide (pkFirst p 0x44 ≤ i) && decide (i < pkFirst p 0x44 + pkCount p 0x44))
  let n := (domAt s m).nextTask
  let s := updCore (updDom s m fun d => { d with nextTask := n + 1 }) k fun c =>
    let c := { c with lm := Memory.overlay c.lm 0x400 loc }
    setSlot (bindWorkspace c 0 s.free img (bindStatus img 0 false)) 0 { live := true, pc := pkt p 0x24 4, task := n }
  tick s

/-- What a launch and a restore have in common (R390): the domain, number m of the model's own, and its dies. -/
def launchDies (m qi : Nat) (p : Mem) (s : State) : State :=
  let mask := pkt p 8 8
  let die (k : Nat) : Bool := bit mask (dieOfCore k) && !isBarista k
  let proto := pkCore s p
  let loc := if pkt p 0x30 8 = 0 then [] else dramRange s (pkt p 0x30 8) (pkt p 0x38 4)
  let d : Domain :=
    { number := pkt p 4 4, mask := mask, root := pkt p 0x10 8, code := dramRange s (pkt p 0x18 8) (pkt p 0x20 4), codeLen := pkt p 0x20 4
      entry := pkt p 0x24 4, comb := (upTo 16).map fun i => fld (pkt p 0x60 8) (3 * i) 3, limit := pkt p 0x4C 4, carve := pkCarve p
      fn := qi / 16, report := pkt p 0x68 8 }
  let s := { s with dieBusy := Nat.lor s.dieBusy mask
                    domains := Table.set s.domains m d
                    cores := s.cores.filter fun q => !die q.1
                    protos := (diesOf mask).foldl (fun t n => Table.set t n proto) s.protos
                    rods := s.rods.map fun q => if bit mask (q.1 / Config.rodsPerDie) then (q.1, { tlb := q.2.tlb, nTiles := q.2.nTiles }) else q
                    frames := s.frames.filter fun q => !bit mask (q.1 / 128) }
  let ks := (diesOf mask).flatMap fun n => (upTo (pkCount p 0x40)).map fun i => n * Config.coresPerDie + pkFirst p 0x40 + i
  ks.foldl (fun s k => launchCore p loc m k s) s

/-- Cycles from taking a launch packet to the opening (R390). -/
def launchTime (p : Mem) (s : State) : Nat := between 1024 (4096 + (pkt p 0x38 4 + 7) / 8) s

/-- The dies that a packet names are not free (R388). -/
def diesBusy (s : State) (p : Mem) : Bool := Nat.land (pkt p 8 8) s.dieBusy != 0

/-- LAUNCH of slot b of queue a (R390); one whose dies are not free waits for them (R388). -/
def launchPacket (qi slot : Nat) (s : State) : State :=
  let p := packetAt s qi slot
  if diesBusy s p then evAt (s.cycle + 1) 2 .launch { a := qi, b := slot } s
  else if !launchOk s qi p then refuse qi (pkt p 0x68 8) (pkt p 4 4) s
  else
    let q := freshId s
    evAt (s.cycle + launchTime p s) 0 .instantOpen { a := q.1, b := 1 } (launchDies q.1 qi p (tick q.2))

/-! Evicted images (R351). -/

/-- Bytes of the images of rank r, of a die of a domain of D dies (R392). -/
def coreImageAt (save r : Nat) : Nat := save + 0x6000 * r
def poolImageAt (save d i : Nat) : Nat := save + 0x6000 * Config.coresPerDie * d + 0x4000000 * i

/-- Cores of the dies of a mask, in increasing index. -/
def coresOfMask (mask : Nat) : List Nat := (diesOf mask).flatMap fun n => (upTo Config.coresPerDie).map (n * Config.coresPerDie + ·)

/-- The words of a list as a number, 4 bytes each, lowest first. -/
def wordsOf (l : List Nat) : Nat := l.foldr (fun w v => w % 2 ^ 32 + 2 ^ 32 * v) 0

/-- The barriers of a unit as the state block holds them. -/
def barWords (s : State) (sx n k : Nat) : List Nat :=
  (upTo n).flatMap fun ix => let b := barOf s sx ix k; [b.parts, b.arrivals, b.phase.toNat]

/-- The state block of core k (Table 18.9); mask: the signals injected, in the block of the lowest core. -/
def stateBlock (s : State) (k mask : Nat) : Mem :=
  let c := coreOf s k
  let put (m : Mem) (off n v : Nat) : Mem := Memory.write m off n v
  let m := put [] 0x000 16 (wordsOf [c.lmspill.toNat, c.lmscr.toNat, c.lml1.toNat, c.tvec.toNat])
  let m := put m 0x010 4 (c.wseq.toNat + c.wack.toNat * 2 ^ 16)
  let m := put m 0x014 12 (wordsOf ((upTo 3).map fun q => nth 0 c.jobCount q))
  let m := put m 0x020 16 (c.cfg0.toNat + c.cfg1.toNat * 2 ^ 64)
  let m := if k % 8 = 0 then put m 0x030 4 (rodOf s (rodOfCore k)).weight.toNat else m
  let m := (upTo 4).foldl (fun m n =>
    let q := nth {} c.queues n
    let own := match q.owner with | some i => i * 2 ^ 4 + 2 ^ 7 | none => 0
    put (put m (0x040 + 32 * n) 32 (wordsOf q.words)) (0x0C0 + 4 * n) 4 (q.words.length + own)) m
  let m := if k % 8 = 0 then put m 0x0D0 48 (wordsOf (barWords s 0 4 k)) else m
  let m := if k % 128 = 0 then put m 0x100 192 (wordsOf (barWords s 1 16 k)) else m
  let m := put m 0x1C0 20 (wordsOf [c.stall0.toNat, c.stall1.toNat, c.stall2.toNat, c.pinBypass.toNat, c.spillRedir.toNat])
  put m 0x1D4 1 mask

/-- The image of core k (R351). -/
def coreImage (s : State) (k mask : Nat) : Mem :=
  let c := coreOf s k
  stateBlock s k mask ++ c.lm.filter fun x => decide (0x400 ≤ x.1) && decide (x.1 < c.lmscr.toNat)

/-- The distributor's state: the ready records of each level, each list ending with 0xFFFF (R351). -/
def readyBytes (d : Die) : List Byte :=
  ((upTo 8).flatMap fun lv => levelReady d lv ++ [0xFFFF]).flatMap fun w => toBytes 2 w

/-- The image of the pool of a die (R351). -/
def poolImage (d : Die) : Mem := Memory.writeBytes (Memory.clear d.pool 0x320000 0x330000) 0x320000 (readyBytes d)

/-- Lines of a range whose home lacks tokens, and that no request of the save engine has asked for. -/
def linesAway (s : State) (pa n : Nat) : List Nat :=
  (s.homes.filter fun q => q.2.tokens != Config.tokens && decide (pa < (q.1 + 1) * 1024) && decide (q.1 * 1024 < pa + n)).map Prod.fst

/-- The home of a line collects all its tokens for the save engine of domain m (R383). -/
def saveCollect (m line : Nat) (s : State) : State :=
  (unitStart { kind := .uwrite, core := hostUnit, place := theHome, pa := line * 1024, n := 1, op := 2, page := 2, phys := true
               next := some (.evictSave, { a := m, d := s.nextId + 1 }) } s).2

/-- The save engine of domain m still collects tokens. -/
def collecting (s : State) (m : Nat) : Bool :=
  s.accs.any fun q => match q.2.next with | some (.evictSave, a) => a.a == m | _ => false

/-- The slots of a core as its image has them (R30, R351). -/
def savedSlots (c : Core) : Core := (upTo 8).foldl (fun c i => if (slotAt c i).live then savedSlot i c else c) c

/-- The images of domain m are written, its dies are wiped, and the host receives the report (R351, R391). -/
def evictWrites (m save report : Nat) (s : State) : State :=
  let d := domAt s m
  let s := (coresOfDom s m).foldl (fun s k => updCore s k savedSlots) s
  let ks := coresOfMask d.mask
  let ds := diesOf d.mask
  let sig := fld (d.injected ||| d.inject).toNat 120 8
  let s := (ks.zip (upTo ks.length)).foldl (fun s q =>
    homeStore (coreImageAt save q.2) 0x6000 (coreImage s q.1 (if q.2 = 0 then sig else 0)) s) s
  let s := (ds.zip (upTo ds.length)).foldl (fun s q => homeStore (poolImageAt save ds.length q.2) 0x4000000 (poolImage (dieAt s q.1)) s) s
  writeReport report d.fn d.number 2 0 0 (d.instant % 2 ^ 64) 0 (stopDomain m s)

/-- EVICT_SAVE of domain a, or the end of a collection (d - 1) of it: once every job is done, every selected record bound and every token of
the save area at its home, the images are written (R173, R351, R383). -/
def evictNow (m acc : Nat) (s : State) : State :=
  let s := if acc = 0 then s else dropAcc (acc - 1) s
  let d := domAt s m
  match d.evicting with
  | none => s
  | some (save, report) =>
    if !d.held || d.ended || !jobsDone s m || collecting s m then s
    else if (diesOf d.mask).any fun n => selecting (dieAt s n) then evAt (s.cycle + 1) 0 .evictSave { a := m } s
    else
      match linesAway s save (saveSize (diesOf d.mask).length) with
      | [] => evictWrites m save report s
      | ls => ls.foldl (fun s l => saveCollect m l s) s

/-- A word of an image. -/
def imgWord (m : Mem) (off : Nat) : Word := BitVec.ofNat 32 (Memory.read m off 4)

/-- A slot of a restored core holds a task: it is not the handler slot, its status word is not that of a free slot, and SPFLOOR is as binding
writes it (R30, R334, log 8). -/
def slotHeld (c : Core) (i : Nat) : Bool :=
  decide (i < slotCount c) && !(tvecEn c && slotBase c i == tvecBase c) && stState c i != stHalted && lmRead c (slotBase c i + offFloor) 4 == slotBase c i + 0x400

/-- The task that a restored slot holds, which bears a number: as bound, paused or frozen, or blocked in fq.take with its operand read again from
the register (R351, log 8). TILE, which the image does not hold, is free where DIMS names one (R163). -/
def restoredTask (s : State) (k seed task : Nat) (c : Core) (i : Nat) : Slot :=
  let pc := evenPc (lmRead c (slotBase c i + offPcSave) 4)
  let tile := if fld (lmRead c (slotBase c i + offStatus) 4) 14 3 = 7 then 0 else Config.pick (seed + i) % 2 ^ 64
  let x : Slot := { live := true, pc := pc, task := task, tile := tile }
  let w := imageWord (imageOf s k) pc
  let here : Core := { c with wsp := BitVec.ofNat 32 (slotBase c i) }
  match decodeWord (8 * w.1) w.2 with
  | .ok (.fqTake a d) => if stState c i = stBlocked then { x with blockedIn := some (.fqTake a d), opA := rdW here a } else x
  | _ => x

/-- Slot i of a restored core: a task that is held stands in no co-launched set, which the image does not name (R174, R351, log 8). -/
def restoredSlot (s : State) (k seed task : Nat) (c : Core) (i : Nat) : Core :=
  if slotHeld c i then setSlot c i (restoredTask s k seed (task + i) c i) else c

/-- Core k from its image (R351, Table 18.9). -/
def restoredCore (s : State) (k task : Nat) (m : Mem) (c : Core) : Core :=
  let jobs := (upTo 3).map fun q => Memory.read m (0x014 + 4 * q) 4
  let lmscr := imgWord m 4
  let c := { c with
    lm := c.lm.filter (fun x => decide (x.1 < 0x400)) ++ m.filter fun x => decide (0x400 ≤ x.1) && decide (x.1 < lmscr.toNat)
    lmspill := imgWord m 0, lmscr := lmscr, lml1 := imgWord m 8, tvec := imgWord m 12
    wseq := BitVec.ofNat 16 (Memory.read m 0x010 2), wack := BitVec.ofNat 16 (Memory.read m 0x012 2)
    jobCount := jobs, jobDone := jobs
    cfg0 := BitVec.ofNat 64 (Memory.read m 0x020 8), cfg1 := BitVec.ofNat 64 (Memory.read m 0x028 8)
    queues := (upTo 4).map fun n =>
      let w := Memory.read m (0x0C0 + 4 * n) 4
      { words := (upTo (fld w 0 4)).map fun j => Memory.read m (0x040 + 32 * n + 4 * j) 4
        owner := if bit w 7 then some (fld w 4 3) else none }
    stall0 := imgWord m 0x1C0, stall1 := imgWord m 0x1C4, stall2 := imgWord m 0x1C8, pinBypass := imgWord m 0x1CC, spillRedir := imgWord m 0x1D0
    slots := [] }
  (upTo 8).foldl (restoredSlot s k (s.free + 8 * k) task) c

/-- Barriers of an image. -/
def restoredBars (m : Mem) (off n : Nat) : List Barrier :=
  (upTo n).map fun i => { parts := Memory.read m (off + 12 * i) 4, arrivals := Memory.read m (off + 12 * i + 4) 4, phase := imgWord m (off + 12 * i + 8) }

/-- The restored tasks in pause.w wait there again (R203). -/
def rewatch (k : Nat) (s : State) : State :=
  (upTo 8).foldl (fun s i => if (slotAt (coreOf s k) i).live then resumePauseW k i s else s) s

def restoreCore (m : Mem) (k task : Nat) (s : State) : State :=
  let s := rewatch k (setCore s k (restoredCore s k task m (coreOf s k)))
  let s := if k % 8 = 0 then updRod s (rodOfCore k) fun r => { r with weight := imgWord m 0x030, bars := restoredBars m 0x0D0 4 } else s
  if k % 128 = 0 then { s with frames := Table.set s.frames (frameOfCore k) (restoredBars m 0x100 16) } else s

/-- The list of 2-byte indices up to 0xFFFF, and what follows it. -/
def readyList : List Nat → List Nat × List Nat
  | [] => ([], [])
  | w :: ws => if w = 0xFFFF then ([], ws) else let q := readyList ws; (w :: q.1, q.2)

/-- The lists of n levels. -/
def readyLists : Nat → List Nat → List (List Nat)
  | 0, _ => []
  | n + 1, ws => let q := readyList ws; q.1 :: readyLists n q.2

/-- The pool of a die and its ready records from the image (R351). -/
def restorePool (die : Nat) (m : Mem) (s : State) : State :=
  let lists := readyLists 8 ((upTo 0x8000).map fun i => Memory.read m (0x320000 + 2 * i) 2)
  let s := updDie s die fun d => { d with pool := m, ready := lists.flatten }
  lists.flatten.foldl (fun s j => updDie s die fun d => { d with recs := Table.set d.recs j { st := 3, held := true } }) s

/-- The waiting records of a die: those that are not bound or ready and have a condition that is not met; one watch entry for each (R351,
log 8). -/
def restoreRecords (die : Nat) (s : State) : State :=
  (upTo Config.records).foldl (fun s j =>
    let m := recImg s die j
    let un := unmetConds s m
    if un.isEmpty || 4 < imgLevel m || (Table.find (dieAt s die).recs j).isSome then s
    else
      let s := updDie s die fun d => { d with recs := Table.set d.recs j { st := 2, held := true, unmet := un } }
      un.foldl (fun s i => addWatch (imgCtr m i) { thr := imgThr m i, kind := 0, die := die, a := j, b := i } s) s) s

/-- Which restored records park wrote: the instruction before the PC is a park (R200, R201). The conditions met by a set ERR bit are those of
its RESUME, or of a spawn's record those whose counter shows ERR (R169, log 8). -/
def markParked (m die : Nat) (s : State) : State :=
  let d := domAt s m
  updDie s die fun x => { x with recs := x.recs.map fun q =>
    let img := recImg s die q.1
    let w := imageWord d ((imgFld img 0 4 + 2 ^ 32 - 4) % 2 ^ 32)
    let parked := match decodeWord (8 * w.1) w.2 with | .ok (.park _ _) => true | _ => false
    let met := (upTo (imgNcond img)).filter fun i => !q.2.unmet.contains i && bit (counterWord s (imgCtr img i)) 63
    (q.1, { q.2 with park := parked, err := if parked then imgFld img 0xB4 4 else met.foldl (fun e i => e + 2 ^ i) 0 }) }

/-- A task number above those of the restored records of the dies: free, and none of theirs (R163, log 8). -/
def restoredCount (s : State) (ds : List Nat) : Nat :=
  let top := ds.foldl (fun t n => (dieAt s n).recs.foldl (fun t q => max t (imgFld (recImg s n q.1) 0x0C 4 + 1)) t) 0
  top + Config.pick s.free % 2 ^ 31

/-- RESTORE of slot b of queue a: as a launch, then the images from SAVE; the held instant opens when the last is written (R351, R390). -/
def restorePacket (qi slot : Nat) (s : State) : State :=
  let p := packetAt s qi slot
  if diesBusy s p then evAt (s.cycle + 1) 2 .restore { a := qi, b := slot } s
  else if !launchOk s qi p then refuse qi (pkt p 0x68 8) (pkt p 4 4) s
  else
    let save := pkt p 0x70 8
    let mask := pkt p 8 8
    let ks := coresOfMask mask
    let ds := diesOf mask
    let q := freshId s
    let m := q.1
    let t := s.cycle + launchTime p s + Config.slack (s.free + 1)
    let s := launchDies m qi p (tick (tick q.2))
    let sig := Memory.read (dramRange s (save + 0x1D4) 1) 0 1
    let s := updDom s m fun d => { d with instant := pkt p 0x78 8, injected := BitVec.ofNat 128 (sig * 2 ^ 120), held := true }
    let s := (ds.zip (upTo ds.length)).foldl (fun s q => restorePool q.1 (dramRange s (poolImageAt save ds.length q.2) 0x4000000) s) s
    let s := ds.foldl (fun s n => restoreRecords n s) s
    let s := ds.foldl (fun s n => markParked m n s) s
    let base := restoredCount s ds
    let s := tick (updDom s m fun d => { d with nextTask := (base + 8 * ks.length) % 2 ^ 32 })
    let s := (ks.zip (upTo ks.length)).foldl (fun s q =>
      restoreCore (dramRange s (coreImageAt save q.2) 0x6000) q.1 ((base + 8 * q.2) % 2 ^ 32) s) s
    let s := { s with free := s.free + 8 * Config.cores }
    evAt t 0 .instantOpen { a := m, b := 1 } s

/-! Control packets (Table 22.7). -/

/-- The reserved bytes of a control packet are zero (R389, R392); from: where the unused bytes at offset 0x08 begin. -/
def controlOk (p : Mem) (from_ : Nat) : Bool := pkt p 1 3 == 0 && pkt p from_ (0x18 - from_) == 0 && pkt p 0x20 96 == 0

/-- A control packet that is refused is reported; an inject with REPORT 0 is not (R392). -/
def refuseControl (qi : Nat) (p : Mem) (s : State) : State :=
  if pkt p 0 1 = 5 ∧ pkt p 0x18 8 = 0 then s else refuse qi (pkt p 0x18 8) (pkt p 4 4) s

/-- A domain is held and not being evicted. -/
def isHeld (d : Domain) : Bool := d.held && !d.isOpen && d.evicting.isNone

/-- RELEASE: the held instant opens within 4 cycles (R392). -/
def releasePacket (qi slot : Nat) (s : State) : State :=
  let p := packetAt s qi slot
  match liveNumber s (pkt p 4 4) with
  | none => refuseControl qi p s
  | some m =>
    if !controlOk p 8 || !isHeld (domAt s m) || (s.agenda.any fun e => e.item == .ev .instantOpen { a := m, b := 1 }) then refuseControl qi p s
    else evAt (s.cycle + between 1 4 s) 0 .instantOpen { a := m, b := 1 } (tick s)

/-- EVICT: a held domain is saved once its jobs are done (R351, R392). -/
def evictPacket (qi slot : Nat) (s : State) : State :=
  let p := packetAt s qi slot
  match liveNumber s (pkt p 4 4) with
  | none => refuseControl qi p s
  | some m =>
    let d := domAt s m
    if !controlOk p 16 || !isHeld d || dramTop < pkt p 8 8 + saveSize (diesOf d.mask).length ||
      (s.agenda.any fun e => e.item == .ev .instantOpen { a := m, b := 1 }) then refuseControl qi p s
    else
      let s := updDom s m fun d => { d with evicting := some (pkt p 8 8, pkt p 0x18 8) }
      if jobsDone s m then evAt (s.cycle + atLeast 1 s) 0 .evictSave { a := m } (tick s) else s

/-- INJECT: the signals are set in the next instant (R392, R393). -/
def injectPacket (qi slot : Nat) (s : State) : State :=
  let p := packetAt s qi slot
  match liveNumber s (pkt p 4 4) with
  | none => refuseControl qi p s
  | some m =>
    if !controlOk p 9 then refuseControl qi p s
    else updDom s m fun d => { d with inject := d.inject ||| BitVec.ofNat 128 (pkt p 8 1 * 2 ^ 120) }

/-! Taking packets (R387, R388). -/

/-- The device looks at its queues within 256 cycles, unless it is about to (R390). -/
def takeSoon (s : State) : State :=
  if s.agenda.any fun e => e.item == .ev .launchQueueTake {} then s else evAt (s.cycle + between 1 256 s) 0 .launchQueueTake {} (tick s)

/-- A TAIL write of queue qi (R387): dropped where it would make the queue look empty, with OVF set and vector 1 raised (R380). The packets it adds come
behind the host's writes that are in progress (R385, log 47). -/
def tailWrite (qi v : Nat) (s : State) : State :=
  if s.wiping then s
  else if v % 64 = (launchQ s qi).head then raiseVec (qi / 16) 1 (updLaunchQ s qi fun q => { q with ovf := true })
  else
    let t := (launchQ s qi).tail
    let new := (upTo ((v % 64 + 64 - t) % 64)).flatMap fun i => (hostWrites s).map fun id => ((t + i) % 64, id)
    takeSoon (updLaunchQ s qi fun q => { q with tail := v % 64, behind := q.behind ++ new })

/-- The head packet of a queue is a launch or a restore whose dies are not free (R388), or for which a host write made before its TAIL write is not
performed yet, which a launch orders before its domain (R276, R385, log 47). -/
def headWaits (s : State) (qi : Nat) : Bool :=
  let q := launchQ s qi
  let p := packetAt s qi q.head
  (pkt p 0 1 == 1 || pkt p 0 1 == 4) && (diesBusy s p || (hostWrites s).any fun id => q.behind.contains (q.head, id))

/-- The queues a packet may be taken from. -/
def readyQueues (s : State) : List Nat :=
  (upTo 32).filter fun qi => let q := launchQ s qi; q.en && q.head != q.tail && !headWaits s qi

/-- The queue that is served: of the highest priority, the next in rotation (R388). -/
def chooseQueue (s : State) : Option Nat :=
  let qs := readyQueues s
  match qs with
  | [] => none
  | x :: _ =>
    let best := qs.foldl (fun b qi => min b (launchQ s qi).prio) (launchQ s x).prio
    let last := Table.get 31 s.lastServed best
    ((upTo 32).map fun i => (last + 1 + i) % 32).find? fun qi => qs.contains qi && (launchQ s qi).prio == best

/-- What a packet of an OP does; an OP with no meaning is consumed. -/
def packetEvent (op : Nat) : Option Instr :=
  match op with
  | 1 => some .launch
  | 2 => some .release
  | 3 => some .evict
  | 4 => some .restore
  | 5 => some .inject
  | _ => none

/-- LAUNCH_QUEUE_TAKE: a packet of the chosen queue is consumed and acts at the end of the cycle (R388, R393, R402). -/
def takePacket (s : State) : State :=
  if s.wiping || !s.booted then s
  else
    match chooseQueue s with
    | none => s
    | some qi =>
      let q := launchQ s qi
      let op := pkt (packetAt s qi q.head) 0 1
      let s := { s with lastServed := Table.set s.lastServed q.prio qi }
      let s := updLaunchQ s qi fun x => { x with head := (x.head + 1) % 64, behind := x.behind.filter fun b => b.1 != q.head }
      let s := match packetEvent op with | some i => evAt s.cycle 2 i { a := qi, b := q.head } s | none => s
      takeSoon s

/-! The end of a die (R391, R247). -/

/-- The local memories, the pool and the records of a die are zero; TLB entries with G = 0 go. -/
def wipeDie (die : Nat) (s : State) : State :=
  let keep (l : List TlbEntry) : List TlbEntry := l.filter fun t => t.g
  let s := { s with cores := s.cores.filter (fun q => isBarista q.1 || dieOfCore q.1 != die)
                    protos := Table.erase s.protos die
                    rods := s.rods.map fun q => if q.1 / Config.rodsPerDie = die then (q.1, { tlb := keep q.2.tlb, nTiles := q.2.nTiles }) else q
                    frames := s.frames.filter fun q => q.1 / 128 != die }
  let s := dropAccs (fun _ x => x.core == moveUnit die) s
  updDie s die fun d =>
    { d with pool := [], watches := [], recs := [], ready := [], placing := none, tlb := keep d.tlb, seq := 0, fqOf := [], fqWait := [], move := none
             l2 := (d.l2.map fun q => (q.1, { q.2 with pins := 0 })).filter fun q => q.2.tokens != 0
             l2Use := d.l2Use.filter fun l => (Table.get {} d.l2 l).tokens != 0 }

/-- DIE_WIPE_COMPLETE of die a (R391). -/
def dieWiped (die : Nat) (s : State) : State :=
  let s := wipeDie die s
  let s := { s with dieBusy := s.dieBusy - Nat.land s.dieBusy (2 ^ die)
                    domains := (s.domains.map fun q => if q.2.ended then (q.1, { q.2 with mask := q.2.mask - Nat.land q.2.mask (2 ^ die) }) else q).filter
                      fun q => q.2.mask != 0 }
  takeSoon s

/-- LAUNCH_QUEUE_TAIL (R387). -/
def execLaunchQueueTail (s : State) : Out := .next (tailWrite s.args.a s.args.b s)

/-- LAUNCH_QUEUE_TAKE (R388). -/
def execLaunchQueueTake (s : State) : Out := .next (takePacket s)

/-- LAUNCH (R390). -/
def execLaunch (s : State) : Out := .next (launchPacket s.args.a s.args.b s)

/-- RELEASE (R392). -/
def execRelease (s : State) : Out := .next (releasePacket s.args.a s.args.b s)

/-- EVICT (R392). -/
def execEvict (s : State) : Out := .next (evictPacket s.args.a s.args.b s)

/-- EVICT_SAVE (R351). -/
def execEvictSave (s : State) : Out := .next (evictNow s.args.a s.args.d s)

/-- RESTORE (R390). -/
def execRestore (s : State) : Out := .next (restorePacket s.args.a s.args.b s)

/-- INJECT (R393). -/
def execInject (s : State) : Out := .next (injectPacket s.args.a s.args.b s)

/-- DIE_WIPE_COMPLETE (R391). -/
def execDieWipeComplete (s : State) : Out := .next (dieWiped s.args.a s)

end Sys2Proof.Machine
end

