-- ==== Sys2Proof/Machine/HostIo.lean ====
section
/-!
DEFINITION. HostIo: what the host, the peers and the scale-out ports do to the module: memory through the base address registers, module
registers, launch queues, peer writes and doorbells (22 R379 to R387, R394 to R397).
-/

namespace Sys2Proof.Machine

/-! Memory (R383, R384). -/

/-- HOST_DRAM_WRITE of b bytes of value d at physical address a, line by line; beyond the DRAM it is dropped (R379, R383). -/
def hostDramStore (pa n v : Nat) (s : State) : State :=
  if dramTop < pa + n then s
  else (linesOf pa n).foldl (fun s l =>
    let lo := max pa (l * 1024)
    let hi := min (pa + n) (l * 1024 + 1024)
    homeStart lo (hi - lo) (fld v (8 * (lo - pa)) (8 * (hi - lo))) s) s

/-- The host's write (c - 1) to a line is performed (R383): a launch that waits for it may be taken (R276). -/
def hostWritten (id : Nat) (s : State) : State := takeSoon (dropAcc id s)

/-- HOST_DRAM_READ of b bytes at physical address a: the bytes at the home (R368); all ones beyond the DRAM (R379). -/
def hostDramLoad (pa n : Nat) (s : State) : State :=
  if pa + n ≤ dramTop then homeTouch pa n { s with reply := Memory.read s.dram pa n } else { s with reply := 2 ^ (8 * n) - 1 }

/-- A BAR4 offset that a host access reaches (R384). -/
def bar4Hits (off : Nat) : Bool := decide (off < Config.dies * 2 ^ 26) && decide (0x400000 ≤ off % 2 ^ 26)

/-- HOST_POOL_WRITE of b bytes of value d at BAR4 offset a (R384). -/
def hostPoolStore (off n v : Nat) (s : State) : State :=
  if bar4Hits off then poolWrite (off / 2 ^ 26) (off % 2 ^ 26) n v s else s

/-- HOST_POOL_READ of b bytes at BAR4 offset a (R384). -/
def hostPoolLoad (off n : Nat) (s : State) : State :=
  { s with reply := if bar4Hits off then poolRead s (off / 2 ^ 26) (off % 2 ^ 26) n else 2 ^ (8 * n) - 1 }

/-- HOST_BARISTA_WRITE of c bytes of value d at local address b of barista a; the write that makes START non-zero starts it (R331, R383). -/
def hostBaristaStore (i off n v : Nat) (s : State) : State :=
  if Config.channels ≤ i ∨ 0x10000 < off + n then s
  else
    let k := baristaOf i
    let old := lmRead (coreOf s k) 0x40 4
    let s := updCore s k fun c => bankWrite c off n v
    let c := coreOf s k
    if old = 0 ∧ lmRead c 0x40 4 ≠ 0 ∧ !c.running then evAt s.cycle 3 .baristaStart { a := k } s else s

/-! Registers (Tables 22.3, 22.4). -/

/-- A register of n bytes at an offset after a write of bytes at another offset. -/
def merge (old base n off m v : Nat) : Nat := Memory.read (Memory.write (Memory.write [] base n old) off m v) base n

/-- A write touches a register. -/
def touchesReg (base n off m : Nat) : Bool := decide (off < base + n) && decide (base < off + m)

/-- A TLB invalidation of function fn starts (R386); a GO that is ignored leaves only MODE written. -/
def tlbGo (fn mode : Nat) (s : State) : State :=
  let s := { s with tlbMode := mode % 4 }
  if s.tlbBusy.isSome ∨ s.tlbMode = 3 ∨ s.tlbDies = 0 then s
  else evAt (s.cycle + atLeast 160 s) 0 .hostTlbInvDone { a := fn, b := s.tlbMode, c := s.tlbDies, d := s.tlbVa } (tick { s with tlbBusy := some fn })

/-- HOST_TLB_INV_DONE (R386, R246); function 2 stands for management, which has no vector. -/
def tlbGoDone (fn mode mask va : Nat) (s : State) : State :=
  let s := { invalidate mask mode va s with tlbBusy := none }
  if fn < 2 then raiseVec fn 4 s else s

/-- The module registers that software writes (Table 22.3). -/
def moduleRegs (fn off n v : Nat) (s : State) : State :=
  let s := if touchesReg 0x020 8 off n then { s with tlbVa := merge s.tlbVa 0x020 8 off n v } else s
  let s := if touchesReg 0x028 8 off n then { s with tlbDies := merge s.tlbDies 0x028 8 off n v % 2 ^ Config.dies } else s
  if touchesReg 0x030 4 off n then
    let w := merge s.tlbMode 0x030 4 off n v
    if bit w 2 then tlbGo fn w s else { s with tlbMode := w % 4 }
  else s

/-- Pending vectors that are no longer masked are sent (R380). -/
def sendPending (fn : Nat) (s : State) : State :=
  let f := Table.get {} s.funcs fn
  let now := (upTo 32).filter fun v => bit f.pending v && !bit (Memory.read f.msix (16 * v + 12) 4) 0
  { s with funcs := Table.set s.funcs fn { f with pending := now.foldl (fun p v => p - 2 ^ v) f.pending, raised := f.raised ++ now } }

/-- The MSI-X table of a function (R380). -/
def msixWrite (fn off n v : Nat) (s : State) : State :=
  let f := Table.get {} s.funcs fn
  sendPending fn { s with funcs := Table.set s.funcs fn { f with msix := Memory.write f.msix off n v } }

/-- The registers and slots of launch queue qi, at an offset of the queue (R387, Table 22.4). -/
def queueRegs (qi off n v : Nat) (s : State) : State :=
  if off + n ≤ 0x2000 then updLaunchQ s qi fun q => { q with slots := Memory.write q.slots off n v }
  else
    let q := launchQ s qi
    let s :=
      if touchesReg 0x2000 4 off n then
        let w := merge (q.prio + b2n q.en * 2 ^ 3 + b2n q.priv * 2 ^ 4) 0x2000 4 off n v
        takeSoon (updLaunchQ s qi fun q => { q with prio := fld w 0 3, en := bit w 3, priv := bit w 4 })
      else s
    let s := if touchesReg 0x2004 4 off n then tailWrite qi (merge q.tail 0x2004 4 off n v % 64) s else s
    if touchesReg 0x200C 4 off n && bit (merge 0 0x200C 4 off n v) 0 then updLaunchQ s qi fun q => { q with ovf := false } else s

def portAt (s : State) (p : Nat) : Port := Table.get {} s.ports p
def updPort (s : State) (p : Nat) (f : Port → Port) : State := { s with ports := Table.set s.ports p (f (portAt s p)) }

/-- A count register holds 1 to 4,096; another value is ignored (R397, log 9). -/
def countReg (old v : Nat) : Nat := if 1 ≤ v ∧ v ≤ 4096 then v else old

/-- Doorbells (R397); one beyond the table of contexts has no meaning. -/
def qpBell (p q v : Nat) (s : State) : State :=
  if 8 ≤ p ∨ (portAt s p).qpCount ≤ q then s else updPort s p fun x => { x with qp := Table.set x.qp q (v % 2 ^ 64) }
def cqBell (p q v : Nat) (s : State) : State :=
  if 8 ≤ p ∨ (portAt s p).cqCount ≤ q then s else updPort s p fun x => { x with cq := Table.set x.cq q (v % 2 ^ 64) }

/-- The network registers of port p, at an offset of its region (R397). -/
def portRegs (p off n v : Nat) (s : State) : State :=
  let x := portAt s p
  let s := if touchesReg 0x08 8 off n then updPort s p fun x => { x with qpBase := merge x.qpBase 0x08 8 off n v / 4096 * 4096 } else s
  let s := if touchesReg 0x10 8 off n then updPort s p fun y => { y with qpCount := countReg x.qpCount (merge x.qpCount 0x10 8 off n v) } else s
  let s := if touchesReg 0x18 8 off n then updPort s p fun x => { x with cqBase := merge x.cqBase 0x18 8 off n v / 4096 * 4096 } else s
  let s := if touchesReg 0x20 8 off n then updPort s p fun y => { y with cqCount := countReg x.cqCount (merge x.cqCount 0x20 8 off n v) } else s
  if 0x10000 ≤ off ∧ off < 0x18000 then qpBell p ((off - 0x10000) / 8) (merge 0 off 8 off n v) s
  else if 0x18000 ≤ off ∧ off < 0x20000 then cqBell p ((off - 0x18000) / 8) (merge 0 off 8 off n v) s
  else s

/-! Reads of registers (R13, R14, R379, R380): reserved bits, write-only bits and what Table 22.1 does not name read as zero. -/

/-- n bytes of a space that holds registers: each its offset, bytes and value. -/
def regsRead (l : List (Nat × Nat × Nat)) (off n : Nat) : Nat := Memory.read (l.foldl (fun m r => Memory.write m r.1 r.2.1 r.2.2) []) off n

/-- The module registers (Table 22.3). -/
def moduleImage (s : State) : List (Nat × Nat × Nat) :=
  [(0x000, 4, Config.idRegister), (0x004, 4, s.module), (0x008, 4, s.lcs), (0x00C, 4, b2n s.wiping * 2 + b2n s.alarm), (0x010, 8, s.dieBusy),
   (0x020, 8, s.tlbVa), (0x028, 8, s.tlbDies), (0x030, 4, b2n s.tlbBusy.isSome * 2 ^ 31 + s.tlbMode % 4)]

/-- The registers of a launch queue (Table 22.4). -/
def queueImage (q : LaunchQueue) : List (Nat × Nat × Nat) :=
  [(0x2000, 4, q.prio + b2n q.en * 2 ^ 3 + b2n q.priv * 2 ^ 4), (0x2004, 4, q.tail), (0x2008, 4, q.head), (0x200C, 4, b2n q.ovf)]

/-- The network registers of a port; a doorbell reads as it was written last (R397, log 9). -/
def portImage (x : Port) : List (Nat × Nat × Nat) :=
  [(0x00, 4, b2n x.up + b2n x.pfc * 2), (0x08, 8, x.qpBase), (0x10, 8, x.qpCount), (0x18, 8, x.cqBase), (0x20, 8, x.cqCount)] ++
  x.qp.map (fun q => (0x10000 + 8 * q.1, 8, q.2)) ++ x.cq.map fun q => (0x18000 + 8 * q.1, 8, q.2)

/-- A read of n bytes at BAR0 offset off of function fn (Table 22.1). -/
def bar0Read (s : State) (fn off n : Nat) : Nat :=
  let f := Table.get {} s.funcs fn
  if off < 0x1000 then regsRead (moduleImage s) off n
  else if off < 0x1200 then Memory.read f.msix (off - 0x1000) n
  else if 0x1800 ≤ off ∧ off < 0x1808 then regsRead [(0, 8, f.pending)] (off - 0x1800) n
  else if 0x100000 ≤ off ∧ off < 0x140000 then
    let q := launchQ s (fn * 16 + (off - 0x100000) / 0x4000)
    let o := (off - 0x100000) % 0x4000
    if o < 0x2000 then Memory.read q.slots o n else regsRead (queueImage q) o n
  else if 0x1000000 ≤ off ∧ off < 0x1200000 then regsRead (portImage (portAt s ((off - 0x1000000) / 0x40000))) ((off - 0x1000000) % 0x40000) n
  else if 0x2000000 ≤ off ∧ off < 0x4000000 then lmRead (coreOf s (baristaOf ((off - 0x2000000) / 0x10000))) ((off - 0x2000000) % 0x10000) n
  else 0

/-- A read of the configuration space of a function, where PCI Express places the identification of R380 (log 9). -/
def configRead (off n : Nat) : Nat :=
  regsRead [(0x00, 2, Config.vendorId), (0x02, 2, Config.deviceId), (0x08, 1, Config.revisionId), (0x09, 3, Config.classCode), (0x2C, 2, Config.vendorId),
            (0x2E, 2, Config.deviceId)] off n

/-- A host read of b bytes at offset a: of DRAM (c = 0, R368), of BAR0 of function c - 1, or of the configuration space of function c - 3. -/
def hostLoad (off n c : Nat) (s : State) : State :=
  if c = 0 then hostDramLoad off n s
  else { s with reply := if c ≤ 2 then bar0Read s (c - 1) off n else configRead off n }

/-- REGISTER_WRITE of c bytes of value d at BAR0 offset b of function a (R13, Table 22.1); while a wipe is in progress it is ignored. -/
def bar0Write (fn off n v : Nat) (s : State) : State :=
  if s.wiping then s
  else if off < 0x1000 then moduleRegs fn off n v s
  else if 0x1000 ≤ off ∧ off + n ≤ 0x1200 then msixWrite fn (off - 0x1000) n v s
  else if 0x100000 ≤ off ∧ off < 0x140000 then queueRegs (fn * 16 + (off - 0x100000) / 0x4000) ((off - 0x100000) % 0x4000) n v s
  else if 0x1000000 ≤ off ∧ off < 0x1200000 then portRegs ((off - 0x1000000) / 0x40000) ((off - 0x1000000) % 0x40000) n v s
  else if 0x2000000 ≤ off ∧ off < 0x4000000 then hostBaristaStore ((off - 0x2000000) / 0x10000) ((off - 0x2000000) % 0x10000) n v s
  else s

/-! Peers (R394 to R396). -/

/-- Entry m of the access-control table and its fields (Table 22.9). -/
def aclAt (s : State) (m : Nat) : Nat := Table.get (7 * 2 ^ 20) s.acl m
def aclV (e : Nat) : Bool := bit e 0
def aclQmask (e : Nat) : Nat := fld e 4 16
def aclMaxp (e : Nat) : Nat := fld e 20 3
def aclHalo (e : Nat) : Bool := bit e 23
def aclHdom (e : Nat) : Nat := fld e 24 32

/-- A peer may write queue q of function 0 (R396). -/
def peerMay (s : State) (m q : Nat) : Bool :=
  let e := aclAt s m
  decide (m < 64) && decide (q < 16) && aclV e && bit (aclQmask e) q && decide (aclMaxp e ≤ (launchQ s q).prio)

/-- The answer to a peer's write: 1 a refusal, which ends the sender's job with CODE 0x08; 0 none (R396). -/
def answerPeer (refused : Nat) (s : State) : State := { s with reply := refused }

/-- A peer's write of n bytes at offset off of the launch queues of function 0: a slot or a TAIL (R396). -/
def peerQueueWrite (m off n v : Nat) (s : State) : State :=
  let q := off / 0x4000
  let o := off % 0x4000
  if s.wiping then s
  else if !peerMay s m q then answerPeer 1 s
  else if o + n ≤ 0x2000 then answerPeer 0 (queueRegs q o n v s)
  else if o = 0x2004 then answerPeer 0 (tailWrite q (v % 64) s)
  else answerPeer 1 s

/-- A write of a peer module; it bears the module in its slot. Those of one module are performed in the order in which they come (R396, log
69). -/
def isPeer (x : Acc) : Bool := match x.next with | some (.haloWrite, _) => true | some (.peerLaunchWrite, _) => true | _ => false

/-- The write of a peer is over, with its answer. -/
def peerAnswers (id refused : Nat) (s : State) : State := answerPeer refused (dropAcc id s)

/-- A halo write begins: the access table permits it and HDOM is live; then it is translated there as a store of an unprivileged task, and
performed at its home (R383, R396). True where it is over at once. -/
def haloBegins (id : Nat) (s : State) : State × Bool :=
  let x := accAt s id
  let e := aclAt s x.slot
  if 64 ≤ x.slot ∨ !aclV e ∨ !aclHalo e ∨ 2 ^ 57 ≤ x.va then (peerAnswers id 1 s, true)
  else
    match liveNumber s (aclHdom e) with
    | none => (peerAnswers id 1 s, true)
    | some k =>
      let x := { x with core := haloUnit (nth 0 (diesOf (domAt s k).mask) 0), stage := .walk }
      (beginWalk id (putAcc id x s), false)

/-- The writes of module m that wait begin, one after another, until one of them is under way. -/
def peerGoes (m : Nat) : Nat → State → State
  | 0, s => s
  | n + 1, s =>
    match s.accs.find? fun q => isPeer q.2 && q.2.slot == m with
    | none => s
    | some (id, x) =>
      if x.stage ≠ .order then s
      else if x.op = 6 then peerGoes m n (peerQueueWrite m x.va x.n x.val (dropAcc id s))
      else match haloBegins id s with
        | (s, true) => peerGoes m n s
        | (s, false) => s

/-- A write of module m comes, of bytes to a launch queue (op 6) or of a halo (op 0). -/
def peerComes (m op va n v : Nat) (s : State) : State :=
  let q := freshId s
  let next : Instr := if op = 6 then .peerLaunchWrite else .haloWrite
  peerGoes m (q.2.accs.length + 1) (putAcc q.1
    { kind := .uwrite, core := hostUnit, slot := m, stage := .order, place := theHome, va := va, n := n, val := v, op := op, page := 2, lead := 0, blocks := false
      next := some (next, { a := m, d := q.1 + 1 }) } q.2)

/-- The halo write of module m (d - 1) is performed or has failed (R396). -/
def haloEnds (m id : Nat) (s : State) : State :=
  let refused := b2n (decide ((accAt s id).stage = .fault))
  peerGoes m s.accs.length (peerAnswers id refused s)

/-- HALO_WRITE from module a of c bytes of value d at virtual address b of domain HDOM; with c = 0, the end of halo write d - 1 (R396). -/
def haloStore (m va n v : Nat) (s : State) : State := if n = 0 then haloEnds m (v - 1) s else peerComes m 0 va n v s

/-! Links (R379, R381, R397). -/

/-- LINK_TRAINING of port a: rate b in GT/s, width c; d asks for CXL, which port 0 alone offers. -/
def linkTrained (fn rate width cxl : Nat) (s : State) : State :=
  let f := Table.get {} s.funcs fn
  { s with funcs := Table.set s.funcs fn { f with rate := min rate 128, width := min width 16, cxl := fn == 0 && cxl == 1 } }

/-- LINK_UP of scale-out port a: its link is up if b is 1, with priority flow control if c is 1. -/
def linkChanged (p up pfc : Nat) (s : State) : State := if 8 ≤ p then s else updPort s p fun x => { x with up := up == 1, pfc := pfc == 1 }

/-- HOST_DRAM_WRITE (R383). -/
def execHostDramWrite (s : State) : Out :=
  .next (if s.args.c = 0 then hostDramStore s.args.a s.args.b s.args.d s else hostWritten (s.args.c - 1) s)

/-- HOST_DRAM_READ (R368). -/
def execHostDramRead (s : State) : Out := .next (hostLoad s.args.a s.args.b s.args.c s)

/-- HOST_POOL_WRITE (R384). -/
def execHostPoolWrite (s : State) : Out := .next (hostPoolStore s.args.a s.args.b s.args.d s)

/-- HOST_POOL_READ (R384). -/
def execHostPoolRead (s : State) : Out := .next (hostPoolLoad s.args.a s.args.b s)

/-- HOST_BARISTA_WRITE (R383). -/
def execHostBaristaWrite (s : State) : Out := .next (hostBaristaStore s.args.a s.args.b s.args.c s.args.d s)

/-- REGISTER_WRITE (R13). -/
def execRegisterWrite (s : State) : Out := .next (bar0Write s.args.a s.args.b s.args.c s.args.d s)

/-- HOST_TLB_INVALIDATE of function a with MODE b (R386). -/
def execHostTlbInvalidate (s : State) : Out := .next (if s.wiping then s else tlbGo s.args.a s.args.b s)

/-- HOST_TLB_INV_DONE (R386). -/
def execHostTlbInvDone (s : State) : Out := .next (tlbGoDone s.args.a s.args.b s.args.c s.args.d s)

/-- PEER_LAUNCH_WRITE from module a of c bytes of value d at offset b of the launch queues of function 0 (R396). -/
def execPeerLaunchWrite (s : State) : Out := .next (peerComes s.args.a 6 s.args.b s.args.c s.args.d s)

/-- HALO_WRITE (R396). -/
def execHaloWrite (s : State) : Out := .next (haloStore s.args.a s.args.b s.args.c s.args.d s)

/-- QP_DOORBELL: queue pair b of port a, value c (R397). -/
def execQpDoorbell (s : State) : Out := .next (if s.wiping then s else qpBell s.args.a s.args.b s.args.c s)

/-- CQ_DOORBELL: completion queue b of port a, value c (R397). -/
def execCqDoorbell (s : State) : Out := .next (if s.wiping then s else cqBell s.args.a s.args.b s.args.c s)

/-- LINK_TRAINING (R381). -/
def execLinkTraining (s : State) : Out := .next (linkTrained s.args.a s.args.b s.args.c s.args.d s)

/-- LINK_UP (R397). -/
def execLinkUp (s : State) : Out := .next (linkChanged s.args.a s.args.b s.args.c s)

end Sys2Proof.Machine
end

