-- ==== Sys2Proof/Machine/Manage.lean ====
section
/-!
DEFINITION. Manage: management, firmware and boot, life cycle, resets and wipes, power and clock (22 R394 to R405, 20 R375).
-/

namespace Sys2Proof.Machine

/-! What management sets and reads (R394, R395, R398, R404). -/

/-- The fields of an access-control entry that exist (Table 22.9). -/
def aclMask (v : Nat) : Nat := fld v 0 1 + fld v 4 52 * 2 ^ 4

def setAcl (m v : Nat) (s : State) : State := if m < 64 then { s with acl := Table.set s.acl m (aclMask v) } else s

def setLimit (w : Nat) (s : State) : State := if 6000 ≤ w ∧ w ≤ 18000 then { s with powerLimit := w } else s

/-- Telemetry item a; item 0 is the life-cycle state. -/
def telemetryRead (item : Nat) (s : State) : State :=
  tick { s with reply := if item = 0 then s.lcs else Config.telemetry item s.free }

/-- The three measurements and their signature, 384 bits each (R400). -/
def measurements (s : State) : Nat :=
  let m := s.measure.foldr (fun x v => x % 2 ^ 384 + 2 ^ 384 * v) 0
  m + 2 ^ 1152 * Config.attest s.lcs m

/-! Firmware (R399, R400). -/

/-- The length of an image, from its header (Table 22.10), and the image in the slot as a number. -/
def imageLen (header : Nat) : Nat := 0x40F0 + fld header 64 32
def slotImage (s : State) : Nat := Memory.read s.flash 0 (imageLen (Memory.read s.flash 0 16))

/-- The checks of the boot ROM. -/
def imageAccepted (v : Nat) : Bool :=
  fld v 0 32 == 0x4A594657 && decide (Config.minVersion ≤ fld v 32 32) && Config.signaturesVerify v

/-- FIRMWARE_UPDATE: an image of a bytes, of value d, is verified and then written to the slot. -/
def updateFirmware (n v : Nat) (s : State) : State :=
  if imageAccepted v && decide (n ≤ 2 ^ 24) && decide (imageLen v ≤ 2 ^ 24) then { s with flash := Memory.write [] 0 n v } else s

/-! Life cycle (Table 22.11). -/

def lcsNextOk (now next : Nat) : Bool :=
  match now with
  | 0 => next == 1
  | 1 => next == 2 || next == 3
  | 2 => next == 1 || next == 3
  | _ => false

/-! Resets and wipes (R402). -/

/-- The module after a reset: wiped, with every register at its reset value. What lies outside the module or in fuses and flash stays, and
so does the module number, which management set (R398); the model's own counters go on. -/
def afterReset (s : State) : State :=
  { agenda := resetAgenda s.free, free := s.free + 1, nextId := s.nextId, host := s.host, module := s.module, lcs := s.lcs, lcsNext := s.lcsNext
    flash := s.flash, booted := s.booted, measure := s.measure, reply := s.reply }

/-- The measurements after a boot of image v in a life-cycle state, which is part of the fuse state: without an accepted image only measurement
0 is extended (R400). -/
def bootMeasures (lcs v : Nat) : List Nat :=
  Config.digest 0 lcs :: (if imageAccepted v then [Config.digest 1 v, Config.digest 2 v] else [Config.digest 3 1, Config.digest 3 2])

/-- COLD_RESET: the requested life-cycle state takes effect, and the ROM boots (R399 to R402). -/
def resetCold (s : State) : State :=
  let v := slotImage s
  let t := afterReset s
  { t with lcs := s.lcsNext.getD s.lcs, lcsNext := none, booted := imageAccepted v, measure := bootMeasures (s.lcsNext.getD s.lcs) v }

/-- WIPE_COMPLETE: WIPING falls, and vector 3 is raised on both functions (R402, R380). -/
def wipeDone (s : State) : State := takeSoon (raiseVec 1 3 (raiseVec 0 3 { s with wiping := false }))

/-! Power and clock (R404, R405, R375). -/

/-- The alarm changes: vector 2 on both functions (R380). -/
def setAlarm (on : Bool) (s : State) : State :=
  if s.alarm = on then s else raiseVec 1 2 (raiseVec 0 2 { s with alarm := on })

/-- POWER_ESTIMATE: the estimate of a millisecond; the next follows after another (R404). -/
def powerEstimated (s : State) : State :=
  let w := Config.power s.free
  let s := tick s
  let below := if w * 100 < s.powerLimit * 95 then s.below + 1 else 0
  let s := { s with below := below }
  let s := if s.powerLimit < w then setAlarm true s else if 10 ≤ below then setAlarm false s else s
  evAt (s.cycle + 1000 * s.clock) 0 .powerEstimate {} s

/-- A clock that may be requested (R405). -/
def clockOk (f : Nat) : Bool := decide (525 ≤ f) && decide (f ≤ 1050) && f % 25 == 0

/-- SET_CLOCK: the change begins; no cycle passes until it is done (R375). A request behind another waits for it (R405). -/
def requestClock (f : Nat) (s : State) : State :=
  if !clockOk f then s
  else if s.clockNext.isSome then { s with clockWait := some f }
  else evAt s.cycle 3 .clockChangeDone {} { s with clockNext := some f }

/-- CLOCK_CHANGE_DONE (R375, R405). -/
def clockChanged (s : State) : State :=
  let s := { s with clock := s.clockNext.getD s.clock, clockNext := none }
  match s.clockWait with
  | some f => evAt s.cycle 3 .clockChangeDone {} { s with clockNext := some f, clockWait := none }
  | none => s

/-- SET_MODULE_NUMBER a (R394). -/
def execSetModuleNumber (s : State) : Out := .next (if s.args.a < 64 then { s with module := s.args.a } else s)

/-- WRITE_ACCESS_CONTROL: entry a, value d (R395). -/
def execWriteAccessControl (s : State) : Out := .next (setAcl s.args.a s.args.d s)

/-- SET_POWER_LIMIT of a watts (R404). -/
def execSetPowerLimit (s : State) : Out := .next (setLimit s.args.a s)

/-- SET_CLOCK to a MHz (R405). -/
def execSetClock (s : State) : Out := .next (requestClock s.args.a s)

/-- CLOCK_CHANGE_DONE (R375). -/
def execClockChangeDone (s : State) : Out := .next (clockChanged s)

/-- READ_TELEMETRY (R398). -/
def execReadTelemetry (s : State) : Out := .next (telemetryRead s.args.a s)

/-- GET_MEASUREMENTS (R400). -/
def execGetMeasurements (s : State) : Out := .next { s with reply := measurements s }

/-- FIRMWARE_UPDATE (R399). -/
def execFirmwareUpdate (s : State) : Out := .next (updateFirmware s.args.a s.args.d s)

/-- LIFECYCLE_TRANSITION to state a (R401). -/
def execLifecycleTransition (s : State) : Out := .next (if lcsNextOk s.lcs s.args.a then { s with lcsNext := some s.args.a } else s)

/-- COLD_RESET (R402). -/
def execColdReset (s : State) : Out := .next (resetCold s)

/-- WARM_RESET (R402). -/
def execWarmReset (s : State) : Out := .next (afterReset s)

/-- WIPE_COMPLETE (R402). -/
def execWipeComplete (s : State) : Out := .next (wipeDone s)

/-- POWER_ESTIMATE (R404). -/
def execPowerEstimate (s : State) : Out := .next (powerEstimated s)

end Sys2Proof.Machine
end

