-- ==== Sys2Proof/Machine/Special.lean ====
section
/-!
DEFINITION. Special: special registers, extension registers, nop and brk (03 R80, 04 R110 to R114, 01 R21 to R23, R31, 18 R334).
-/

namespace Sys2Proof.Machine

/-- Special registers that ctl.get and ctl.set name: whether the number is listed with this width (Table 3.18). -/
def srListed (w n : Nat) : Bool :=
  if w = 1 then [0x07, 0x08, 0x09, 0x18, 0x19, 0x1A, 0x1B].contains n
  else [0x00, 0x01, 0x02, 0x03, 0x04, 0x05, 0x06, 0x10, 0x11, 0x12, 0x13, 0x14, 0x15, 0x16, 0x20, 0x21, 0x28, 0x29, 0x2A, 0x2B, 0x30,
        0x31, 0x38, 0x39, 0x3A, 0x3B, 0x3C].contains n

/-- Registers that a ctl.set may name, and those of them that need privilege (Table 3.18). -/
def srWritable (n : Nat) : Bool := [0x10, 0x11, 0x12, 0x13, 0x14, 0x15, 0x16, 0x31, 0x38, 0x39, 0x3A, 0x3B, 0x3C].contains n
def srPrivileged (n : Nat) : Bool := [0x10, 0x11, 0x14, 0x15, 0x16, 0x31].contains n

/-- The registers that behave on a barista as on a core (R331). -/
def srBarista (n : Nat) : Bool := [0x09, 0x12, 0x13, 0x28, 0x29, 0x2A, 0x2B, 0x38, 0x39, 0x3A, 0x3C].contains n

/-- Entries in use of job queue q (R283). -/
def jobsIn (c : Core) (q : Nat) : Nat := (nth [] c.jobs q).length

/-- MXSTAT (14 Table 14.6). -/
def mxstat (s : State) (k : Nat) (c : Core) : Nat :=
  (rodOf s (rodOfCore k)).nTiles.toNat * 2 ^ 16 + jobsIn c 2 * 2 ^ 12 + jobsIn c 0 * 2 ^ 8 + jobsIn c 1 * 2 ^ 4 + b2n s.alarm

/-- The value of a special register on a compute core (R111, Table 4.14). While a trap handler runs, TASK, TILE and MAYEMIT are those of its slot,
which hold 0 since no task is resident there (DESIGN CHOICE, log 82: R163 names no task for a handler). -/
def srValue (s : State) (k : Nat) (c : Core) (n : Nat) : Nat :=
  let x := slotAt c (curSlot c)
  match n with
  | 0x00 => rdK c 0 240
  | 0x01 => rdK c 0 241
  | 0x02 => rdK c 0 242
  | 0x03 => rdK c 0 243
  | 0x04 => rdK c 0 244
  | 0x05 => rdK c 0 245
  | 0x06 => x.task
  | 0x07 => x.tile
  | 0x08 => (theDom s k).instant % 2 ^ 64
  | 0x09 => s.cycle % 2 ^ 64
  | 0x10 => c.wsp.toNat
  | 0x11 => c.tvec.toNat
  | 0x12 => fstat c % 32
  | 0x13 => lmRead c (wsBase c + offFmode) 4 % 8
  | 0x14 => c.lmspill.toNat
  | 0x15 => c.lmscr.toNat
  | 0x16 => c.lml1.toNat
  | 0x18 => emset c (curSlot c) % 2 ^ 64
  | 0x19 => emset c (curSlot c) / 2 ^ 64
  | 0x1A => x.may.toNat % 2 ^ 64
  | 0x1B => x.may.toNat / 2 ^ 64
  | 0x20 => c.wseq.toNat
  | 0x21 => c.wack.toNat
  | 0x28 => 0x00014016
  | 0x29 => 0x01 + b2n c.bar * 2 ^ 8
  | 0x30 => mxstat s k c
  | 0x31 => (rodOf s (rodOfCore k)).weight.toNat
  | 0x38 => c.stall0.toNat
  | 0x39 => c.stall1.toNat
  | 0x3A => c.stall2.toNat
  | 0x3B => c.pinBypass.toNat
  | 0x3C => c.spillRedir.toNat
  | _ => 0

/-- The value of a special register, on a core or a barista (R331). -/
def srRead (s : State) (k : Nat) (c : Core) (n : Nat) : Nat :=
  if !c.bar || srBarista n then srValue s k c n
  else if n = 0x00 then k
  else if n = 0x04 then 40 + (k - Config.cores) / 64
  else if n = 0x10 then 0x400
  else 0

/-- FSTAT and FMODE cost a read or write of row 25; no other register costs a row (R112). -/
def srRows (c : Core) (n : Nat) : List Nat := if n = 0x12 ∨ n = 0x13 then [rowAt (wsBase c + offFstat)] else []

/-- ctl.get (R80, R110, R111). -/
def ctlGetOp (s : State) (w n d : Nat) (k : Nat) : Local := fun c _ =>
  if w = 1 ∧ 8 ≤ d then .error (illeg 2)
  else if !srListed w n then .error (illeg 4)
  else eff (wrR c w d (srRead s k c n)) (srRows c n) (rowsR c w d) 1

/-- A division of local memory is valid (R22). -/
def divisionValid (spill scr l1 : Nat) : Bool :=
  decide (0x800 ≤ spill) && decide (spill ≤ scr) && decide (scr ≤ l1) && [0x4000, 0x5000, 0x6000].contains l1

/-- Top of the carve-outs of the resident workspaces (R22): those of slots that hold a task; whether the handler's workspace or a reserved
slot counts is left open (DESIGN CHOICE, log 71). -/
def residentTop (c : Core) : Nat :=
  (upTo 8).foldl (fun m i => if (slotAt c i).live then max m (slotBase c i + slotSize c) else m) 0

/-- Core k lies in a co-launched set that is bound: a task of the set is resident on one of its cores, this one or another (R22, R174). -/
def inBoundSet (s : State) (k : Nat) : Bool :=
  s.cores.any fun q => q.2.slots.any fun x => x.live && x.setSize != 0 && decide (x.setBase ≤ k) && decide (k < x.setBase + x.setSize)

/-- A write of LMSPILL, LMSCR or LML1 of a core that lies in a bound co-launched set or in none is performed (R22). -/
def boundaryOk (inSet : Bool) (c : Core) (n v : Nat) : Bool :=
  let spill := if n = 0x14 then v else c.lmspill.toNat
  let scr := if n = 0x15 then v else c.lmscr.toNat
  let l1 := if n = 0x16 then v else c.lml1.toNat
  divisionValid spill scr l1 && (n != 0x14 || decide (residentTop c ≤ v)) &&
  !(inSet && ((n == 0x14 && v != c.lmspill.toNat) || (n == 0x15 && v != c.lmscr.toNat)))

/-- Bytes that leave the L1 region are undefined: free values (R23, R15, log 3). -/
def freeBytes (c : Core) (seed lo hi : Nat) : Core :=
  { c with lm := (upTo (hi - lo)).foldl (fun m i => Memory.put m (lo + i) (Config.freeByte (seed * 2 ^ 16 + lo + i))) c.lm }

/-- The whole L1 is invalidated (R23, R230). -/
def dropL1 (c : Core) : Core := { c with l1 := [], l1Gen := c.l1Gen + 1 }

/-- A register that a ctl.set writes, once every check is passed: the effect with its rows (R21 to R23, R31, R41, R49, R112, R334). -/
def srWrite (s : State) (k a v n : Nat) (c : Core) : TrapOr Eff :=
  let rd := [rowW c a]
  let ok := boundaryOk (inBoundSet s k) c n (fld v 10 5 * 0x400)
  let bound := BitVec.ofNat 32 (fld v 10 5 * 0x400)
  match n with
  | 0x10 =>
    if isSlotBase c bound.toNat then
      .ok { core := c, rd := rd, post := fun c =>
        let i := curSlot c
        if bound = c.wsp then c
        else { bankWrite c (wsBase c + offPcSave) 4 (slotAt c i).pc with wsp := bound, busy := c.busy + 2, moved := false } }
    else .error (trapOf 4 5 (v % 2 ^ 15))
  | 0x11 =>
    let t := BitVec.ofNat 32 (v / 2 ^ 10 * 2 ^ 10)
    let h := fld v 10 5 * 0x400
    if bit v 15 ∧ (!isSlotBase c h ∨ (slotAt c (slotOf c h)).live) then .error (illeg 4)
    else eff { c with tvec := t } rd [] 1
  | 0x12 => eff (lmWrite c (wsBase c + offFstat) 4 (v % 32)) rd [rowAt (wsBase c + offFstat)] 1
  | 0x13 => eff (lmWrite c (wsBase c + offFmode) 4 (v % 8)) rd [rowAt (wsBase c + offFstat)] 1
  | 0x14 => if ok then eff { c with lmspill := bound } rd [] 1 else .error (illeg 4)
  | 0x15 => if ok then eff { c with lmscr := bound } rd [] 1 else .error (illeg 4)
  | 0x16 =>
    if !ok then .error (illeg 4)
    else if bound = c.lml1 then eff c rd [] 1
    else
      let c' := freeBytes (dropL1 c) s.free c.lml1.toNat bound.toNat
      eff { c' with lml1 := bound } rd [] (1 + Config.slack s.free)
  | 0x31 => .ok { core := c, rd := rd, weight := some (BitVec.ofNat 32 v) }
  | 0x38 => .ok { core := c, rd := rd, post := fun c => { c with stall0 := BitVec.ofNat 32 v } }
  | 0x39 => .ok { core := c, rd := rd, post := fun c => { c with stall1 := BitVec.ofNat 32 v } }
  | 0x3A => .ok { core := c, rd := rd, post := fun c => { c with stall2 := BitVec.ofNat 32 v } }
  | 0x3B => eff { c with pinBypass := BitVec.ofNat 32 v } rd [] 1
  | _ => eff { c with spillRedir := BitVec.ofNat 32 v } rd [] 1

/-- ctl.set (R80, R110). Every writable register has 32 bits. -/
def ctlSetOp (s : State) (w n a k : Nat) : Local := fun c _ =>
  if w = 1 ∧ 8 ≤ a then .error (illeg 2)
  else if !srListed w n ∨ !srWritable n ∨ (c.bar ∧ !srBarista n) then .error (illeg 4)
  else if srPrivileged n ∧ !isPriv c then .error (trapOf 8 2 0)
  else srWrite s k a (rdW c a) n c

/-- ext.set: en ← xa (R113). -/
def extSetOp (a d : Nat) : Local := fun c _ =>
  if 8 ≤ a ∨ 8 ≤ d then .error (illeg 2) else eff (wrE c d (rdX c a)) [rowX c a] [rowE c d] 1

/-- ext.get: xd ← en (R113). -/
def extGetOp (a d : Nat) : Local := fun c _ =>
  if 8 ≤ a ∨ 8 ≤ d then .error (illeg 2) else eff (wrX c d (rdE c a)) [rowE c a] [rowX c d] 1

/-- nop (R114). -/
def nopOp : Local := fun c _ => eff c [] [] 1

/-- brk: takes BREAK with subcode n8 (R114). -/
def brkOp (n : Nat) : Local := fun _ _ => .error (trapOf 10 n 0)

/-- CTL_GET (R110). -/
def execCtlGet (w n d : Nat) (s : State) : Out :=
  runAt .members 4 (ctlGetOp s w n d) s

/-- A write of TVEC or LMSPILL may free a slot for a record that waits (R171, R334). -/
def slotsChange (n : Nat) (s : State) : State :=
  let die := dieOfCore s.cur
  if (n = 0x11 ∨ n = 0x14) ∧ !(dieAt s die).ready.isEmpty then selectAt (s.cycle + 1) die s else s

/-- CTL_SET (R110). -/
def execCtlSet (w n a : Nat) (s : State) : Out :=
  match runAt .members 4 (ctlSetOp s w n a) (tick s) with
  | .next t => .next (match ctlSetOp s w n a s.cur (coreOf s s.cur) 0 with | .ok _ => slotsChange n t | .error _ => t)
  | o => o

/-- EXT_SET (R113). -/
def execExtSet (a d : Nat) (s : State) : Out :=
  runLocal .members 4 (extSetOp a d) s

/-- EXT_GET (R113). -/
def execExtGet (a d : Nat) (s : State) : Out :=
  runLocal .members 4 (extGetOp a d) s

/-- NOP (R114). -/
def execNop (s : State) : Out :=
  runLocal .leader 4 nopOp s

/-- NOP_16 (R114). -/
def execNop16 (s : State) : Out :=
  runLocal .leader 2 nopOp s

/-- BRK (R114). -/
def execBrk (n : Nat) (s : State) : Out :=
  runLocal .members 4 (brkOp n) s

end Sys2Proof.Machine
end

