-- ==== Sys2Proof/Machine/VecMem.lean ====
section
/-!
DEFINITION. VecMem: vector access to local memory and the stream forms (05 R129 to R131, R137, R138, 01 R29, R39).
-/

namespace Sys2Proof.Machine

/-- Address and stride of a stream pointer (Table 1.6, R331). -/
def ptrBits (c : Core) : Nat := if c.bar then 16 else 15
def ptrAddr (c : Core) (p : Nat) : Nat := p % 2 ^ ptrBits c
/-- The pointer after an access: ADDR moved by STRIDE (R29). -/
def ptrNext (c : Core) (p : Nat) : Nat := setFld p 0 (ptrBits c) (pat (ptrBits c) ((ptrAddr c p : Int) + sgn 16 (fld p 16 16)))

/-- The signed row offset of vld and vst (R129). -/
def off7 (h o : Nat) : Int := sgn 7 (h * 16 + o)

/-- Address of vld and vst. -/
def vecAddr (c : Core) (h o a : Nat) : Nat := pat 32 ((rdW c a : Int) + 32 * off7 h o)

/-- Effect of a vector load of the row at ea (R129, R130). -/
def vloadEff (c : Core) (t d ea : Nat) (rd : List Nat) : TrapOr Eff :=
  let w := typeWidth t
  vectorEff c w d (rowAt ea :: rd) 1 fun i => (lane w (lmRead c ea 32) i, 0)

/-- Effect of a vector store to the row at ea: the bytes of the active elements (R129, R130). -/
def vstoreEff (c : Core) (t d ea : Nat) (rd : List Nat) : TrapOr Eff :=
  let w := typeWidth t
  let v := elements w (256 / w) (activeMask c) 0 (lmRead c ea 32) fun i => (lane w (rdV c d) i, 0)
  eff (lmWrite c ea 32 v.1) (rowV c d :: rd ++ maskRows c) [rowAt ea] 1

def vldOp (h t o a d : Nat) : Local := fun c _ =>
  match vectorCheck c { m := true, z := true } false (!anyType t) with
  | some x => .error x
  | none =>
    let ea := vecAddr c h o a
    match localTrap c ea 32 false with
    | some x => .error x
    | none => vloadEff c t d ea [rowW c a]

def vstOp (h t o a d : Nat) : Local := fun c _ =>
  match vectorCheck c { m := true } false (!anyType t) with
  | some x => .error x
  | none =>
    let ea := vecAddr c h o a
    match localTrap c ea 32 true with
    | some x => .error x
    | none => vstoreEff c t d ea [rowW c a]

/-- vldp: the row at pointer pa, then the increment; the pointer is no access of R37 or R38 (R130). -/
def vldpOp (t a d : Nat) : Local := fun c _ =>
  match vectorCheck c { m := true, z := true } (decide (4 ≤ a)) (!anyType t) with
  | some x => .error x
  | none =>
    let ea := ptrAddr c (rdP c a)
    match localTrap c ea 32 false with
    | some x => .error x
    | none =>
      match vloadEff c t d ea [] with
      | .error x => .error x
      | .ok e => .ok { e with core := wrP e.core a (ptrNext c (rdP c a)) }

def vstpOp (t a d : Nat) : Local := fun c _ =>
  match vectorCheck c { m := true } (decide (4 ≤ a)) (!anyType t) with
  | some x => .error x
  | none =>
    let ea := ptrAddr c (rdP c a)
    match localTrap c ea 32 true with
    | some x => .error x
    | none =>
      match vstoreEff c t d ea [] with
      | .error x => .error x
      | .ok e => .ok { e with core := wrP e.core a (ptrNext c (rdP c a)) }

/-- Address of element i of vgath and vscat (R131). -/
def gatherAddr (c : Core) (t b a i : Nat) : Nat :=
  (rdW c a + lane (typeWidth t) (rdV c b) i * (typeWidth t / 8)) % 2 ^ 32

/-- The active elements, and the trap of the lowest element whose address is refused: the spec does not say which of several refused
addresses a trap reports (R131, DESIGN CHOICE, log 70). -/
def gatherActive (c : Core) (t : Nat) : List Nat := (upTo (lanesOf t)).filter fun i => bit (activeMask c) i
def gatherTrap (c : Core) (t b a : Nat) (store : Bool) : Option Trap :=
  (gatherActive c t).findSome? fun i => localTrap c (gatherAddr c t b a i) (typeWidth t / 8) store

def vgathOp (t b a d : Nat) : Local := fun c _ =>
  match vectorCheck c { m := true, z := true } false (!anyType t) with
  | some x => .error x
  | none =>
    match gatherTrap c t b a false with
    | some x => .error x
    | none =>
      vectorEff c (typeWidth t) d
        ([rowW c a, rowV c b] ++ (gatherActive c t).map fun i => rowAt (gatherAddr c t b a i)) 1
        fun i => (lmRead c (gatherAddr c t b a i) (typeWidth t / 8), 0)

/-- vscat: the element of higher index stands; one distinct row a cycle, straight to the banks (R131). -/
def vscatOp (t b a d : Nat) : Local := fun c _ =>
  match vectorCheck c { m := true } false (!anyType t) with
  | some x => .error x
  | none =>
    match gatherTrap c t b a true with
    | some x => .error x
    | none =>
      let w := typeWidth t
      let rows := distinct ((gatherActive c t).map fun i => rowAt (gatherAddr c t b a i))
      let c' := (gatherActive c t).foldl (fun x i => lmWrite x (gatherAddr c t b a i) (w / 8) (lane w (rdV c d) i)) c
      .ok { core := c', rd := [rowW c a, rowV c b, rowV c d] ++ maskRows c, bank := rows, cost := max 1 rows.length }

/-! Stream forms (R137, R138). -/

/-- An access through pointer n: its address, and the core with the pointer moved; the check is that of a 32-byte access. -/
def streamAccess (c : Core) (n : Nat) (store : Bool) : Except Trap (Nat × Core) :=
  let p := rdP c n
  let ea := ptrAddr c p
  match localTrap c ea 32 store with
  | some x => .error x
  | none => .ok (ea, wrP c n (ptrNext c p))

/-- The reads of a stream instruction, in order: each takes its row from the core as it stands at that access, so a pointer's row
shows the increments before it (R137). The rows' addresses and bytes, and the core with the pointers moved. Where several accesses of the
instruction are refused, the first in this order is reported, its writes after its reads (DESIGN CHOICE, log 70). -/
def streamReads (c : Core) : List Nat → Except Trap (List (Nat × Nat) × Core)
  | [] => .ok ([], c)
  | n :: ns =>
    match streamAccess c n false with
    | .error x => .error x
    | .ok (ea, c1) =>
      match streamReads c1 ns with
      | .error x => .error x
      | .ok (rows, c2) => .ok ((ea, lmRead c ea 32) :: rows, c2)

/-- A stream instruction: the pointers read in order, the pointer written, extra rows read, the row from the rows read. A row it
both reads and writes counts once under the rule of R37 (R137, R39, DESIGN CHOICE, log 66). -/
def streamOp (reads : List Nat) (d : Nat) (rd : List Nat) (cost : Nat) (f : List Nat → Nat × Nat) : Core → TrapOr Eff := fun c =>
  match streamReads c reads with
  | .error x => .error x
  | .ok (rows, c1) =>
    match streamAccess c1 d true with
    | .error x => .error x
    | .ok (ea, c2) =>
      let r := f (rows.map Prod.snd)
      .ok { core := raise (lmWrite c2 ea 32 r.1) r.2, rd := rows.map (fun x => rowAt x.1) ++ rd, wr := rowsFstat c r.2,
            direct := [rowAt ea], cost := cost }

/-- A row from two rows, element by element. -/
def rowOp (t : Nat) (op : Nat → Nat → Nat × Nat) (rows : List Nat) : Nat × Nat :=
  let w := typeWidth t
  elements w (256 / w) (2 ^ 32 - 1) 0 0 fun i => op (lane w (nth 0 rows 0) i) (lane w (nth 0 rows 1) i)

/-- sop.add, sop.sub, sop.mul, sop.min and sop.max (Table 5.13). The prefix field R is accepted for types in F (R137). -/
def sop2 (satVariant : Bool) (cost : Nat) (op : Nat → RMode → Bool → Nat → Nat → Nat × Nat) (v t b a d : Nat) : Local := fun c _ =>
  match vectorCheck c { r := isF t } (decide (4 ≤ a) || decide (4 ≤ b) || decide (4 ≤ d) || (!satVariant && v != 0))
      (!arithTypes t || (satVariant && (decide (2 ≤ v) || (v == 1 && isF t)))) with
  | some x => .error x
  | none => streamOp [a, b] d [] cost (rowOp t (op t (roundMode c) (v == 1))) c

/-- sop.fma: A × s + B with s in w0 to w7 (R138). -/
def sopFmaOp (w t b a d : Nat) : Local := fun c _ =>
  match vectorCheck c { r := isF t } (decide (4 ≤ a) || decide (4 ≤ b) || decide (4 ≤ d)) (!arithTypes t) with
  | some x => .error x
  | none =>
    streamOp [a, b] d [rowW c w] 2 (rowOp t fun x y => fmaE t (roundMode c) false false x (rdW c w % 2 ^ typeWidth t) y) c

/-- sop.cvt from type t to type b: equal widths, or half with two rows read (R138). -/
def sopCvtOp (sat t b a d : Nat) : Local := fun c _ =>
  let ws := typeWidth t
  let wd := typeWidth b
  match vectorCheck c { r := true } (decide (4 ≤ a) || decide (4 ≤ d)) (cvtBad t b sat || !(wd == ws || 2 * wd == ws)) with
  | some x => .error x
  | none =>
    streamOp (if wd = ws then [a] else [a, a]) d [] 1 (fun rows =>
      let src := rows.foldr (fun r xs => (upTo (lanesOf t)).map (fun i => lane ws r i) ++ xs) []
      let xs := src.map fun x => convert t b (roundMode c) (sat == 1) x
      (joinLanes wd (xs.map Prod.fst), orFlags xs)) c

/-- VLD (R129). -/
def execVld (h t o a d : Nat) (s : State) : Out :=
  runLocal .members 4 (ordering (vldOp h t o a d)) s

/-- VST (R129). -/
def execVst (h t o a d : Nat) (s : State) : Out :=
  runLocal .members 4 (ordering (vstOp h t o a d)) s

/-- VLDP (R130). -/
def execVldp (t a d : Nat) (s : State) : Out :=
  runLocal .members 4 (ordering (vldpOp t a d)) s

/-- VSTP (R130). -/
def execVstp (t a d : Nat) (s : State) : Out :=
  runLocal .members 4 (ordering (vstpOp t a d)) s

/-- VGATH (R131). -/
def execVgath (t b a d : Nat) (s : State) : Out :=
  runLocal .members 4 (ordering (vgathOp t b a d)) s

/-- VSCAT (R131). -/
def execVscat (t b a d : Nat) (s : State) : Out :=
  runLocal .members 4 (ordering (vscatOp t b a d)) s

/-- SOP_ADD (R137). -/
def execSopAdd (v t b a d : Nat) (s : State) : Out :=
  runLocal .members 4 (ordering (sop2 true 1 addE v t b a d)) s

/-- SOP_SUB (R137). -/
def execSopSub (v t b a d : Nat) (s : State) : Out :=
  runLocal .members 4 (ordering (sop2 true 1 subE v t b a d)) s

/-- SOP_MUL (R137). -/
def execSopMul (t b a d : Nat) (s : State) : Out :=
  runLocal .members 4 (ordering (sop2 false 2 (fun t m _ => mulE t m) 0 t b a d)) s

/-- SOP_FMA (R138). -/
def execSopFma (w t b a d : Nat) (s : State) : Out :=
  runLocal .members 4 (ordering (sopFmaOp w t b a d)) s

/-- SOP_MIN (R137). -/
def execSopMin (t b a d : Nat) (s : State) : Out :=
  runLocal .members 4 (ordering (sop2 false 1 (fun t _ _ => minE t) 0 t b a d)) s

/-- SOP_MAX (R137). -/
def execSopMax (t b a d : Nat) (s : State) : Out :=
  runLocal .members 4 (ordering (sop2 false 1 (fun t _ _ => maxE t) 0 t b a d)) s

/-- SOP_CVT (R138). -/
def execSopCvt (sx t b a d : Nat) (s : State) : Out :=
  runLocal .members 4 (ordering (sopCvtOp sx t b a d)) s

end Sys2Proof.Machine
end

