-- ==== Sys2Proof/Machine/Dispatch.lean ====
section
/-!
DEFINITION. Dispatch: one arm for each row of spec/opcode_table.json, each a call of the row's meaning.
-/

namespace Sys2Proof.Machine

open Sys2Proof

/-- What an instruction, or the event of a row without an encoding, does. -/
def exec (i : Instr) (s : State) : Host.Outcome State Fault Refusal :=
  match i with
  | .add t b a d => Sys2Proof.Machine.execAdd t b a d s
  | .sub t b a d => Sys2Proof.Machine.execSub t b a d s
  | .mul t b a d => Sys2Proof.Machine.execMul t b a d s
  | .mulh t b a d => Sys2Proof.Machine.execMulh t b a d s
  | .mulhn t b a d => Sys2Proof.Machine.execMulhn t b a d s
  | .div t b a d => Sys2Proof.Machine.execDiv t b a d s
  | .divn t b a d => Sys2Proof.Machine.execDivn t b a d s
  | .rem t b a d => Sys2Proof.Machine.execRem t b a d s
  | .remn t b a d => Sys2Proof.Machine.execRemn t b a d s
  | .and t b a d => Sys2Proof.Machine.execAnd t b a d s
  | .or t b a d => Sys2Proof.Machine.execOr t b a d s
  | .xor t b a d => Sys2Proof.Machine.execXor t b a d s
  | .andn t b a d => Sys2Proof.Machine.execAndn t b a d s
  | .orn t b a d => Sys2Proof.Machine.execOrn t b a d s
  | .shl t b a d => Sys2Proof.Machine.execShl t b a d s
  | .shr t b a d => Sys2Proof.Machine.execShr t b a d s
  | .sra t b a d => Sys2Proof.Machine.execSra t b a d s
  | .rotl t b a d => Sys2Proof.Machine.execRotl t b a d s
  | .min t b a d => Sys2Proof.Machine.execMin t b a d s
  | .max t b a d => Sys2Proof.Machine.execMax t b a d s
  | .minn t b a d => Sys2Proof.Machine.execMinn t b a d s
  | .maxn t b a d => Sys2Proof.Machine.execMaxn t b a d s
  | .slt t b a d => Sys2Proof.Machine.execSlt t b a d s
  | .sltn t b a d => Sys2Proof.Machine.execSltn t b a d s
  | .sel c t b a d => Sys2Proof.Machine.execSel c t b a d s
  | .clz t a d => Sys2Proof.Machine.execClz t a d s
  | .ctz t a d => Sys2Proof.Machine.execCtz t a d s
  | .popc t a d => Sys2Proof.Machine.execPopc t a d s
  | .bswap t a d => Sys2Proof.Machine.execBswap t a d s
  | .add16 a d => Sys2Proof.Machine.execAdd16 a d s
  | .sub16 a d => Sys2Proof.Machine.execSub16 a d s
  | .and16 a d => Sys2Proof.Machine.execAnd16 a d s
  | .or16 a d => Sys2Proof.Machine.execOr16 a d s
  | .xor16 a d => Sys2Proof.Machine.execXor16 a d s
  | .shl16 a d => Sys2Proof.Machine.execShl16 a d s
  | .shr16 a d => Sys2Proof.Machine.execShr16 a d s
  | .sra16 a d => Sys2Proof.Machine.execSra16 a d s
  | .mov16 a d => Sys2Proof.Machine.execMov16 a d s
  | .min16 a d => Sys2Proof.Machine.execMin16 a d s
  | .max16 a d => Sys2Proof.Machine.execMax16 a d s
  | .minn16 a d => Sys2Proof.Machine.execMinn16 a d s
  | .maxn16 a d => Sys2Proof.Machine.execMaxn16 a d s
  | .mul16 a d => Sys2Proof.Machine.execMul16 a d s
  | .slt16 a d => Sys2Proof.Machine.execSlt16 a d s
  | .sltn16 a d => Sys2Proof.Machine.execSltn16 a d s
  | .addImmediate ix a d => Sys2Proof.Machine.execAddImmediate ix a d s
  | .addImmediate16 ix d => Sys2Proof.Machine.execAddImmediate16 ix d s
  | .lih ix d => Sys2Proof.Machine.execLih ix d s
  | .addK t k a d => Sys2Proof.Machine.execAddK t k a d s
  | .subK t k a d => Sys2Proof.Machine.execSubK t k a d s
  | .mulK t k a d => Sys2Proof.Machine.execMulK t k a d s
  | .mulhK t k a d => Sys2Proof.Machine.execMulhK t k a d s
  | .mulhnK t k a d => Sys2Proof.Machine.execMulhnK t k a d s
  | .divK t k a d => Sys2Proof.Machine.execDivK t k a d s
  | .divnK t k a d => Sys2Proof.Machine.execDivnK t k a d s
  | .remK t k a d => Sys2Proof.Machine.execRemK t k a d s
  | .remnK t k a d => Sys2Proof.Machine.execRemnK t k a d s
  | .andK t k a d => Sys2Proof.Machine.execAndK t k a d s
  | .orK t k a d => Sys2Proof.Machine.execOrK t k a d s
  | .xorK t k a d => Sys2Proof.Machine.execXorK t k a d s
  | .andnK t k a d => Sys2Proof.Machine.execAndnK t k a d s
  | .ornK t k a d => Sys2Proof.Machine.execOrnK t k a d s
  | .shlK t k a d => Sys2Proof.Machine.execShlK t k a d s
  | .shrK t k a d => Sys2Proof.Machine.execShrK t k a d s
  | .sraK t k a d => Sys2Proof.Machine.execSraK t k a d s
  | .rotlK t k a d => Sys2Proof.Machine.execRotlK t k a d s
  | .minK t k a d => Sys2Proof.Machine.execMinK t k a d s
  | .maxK t k a d => Sys2Proof.Machine.execMaxK t k a d s
  | .minnK t k a d => Sys2Proof.Machine.execMinnK t k a d s
  | .maxnK t k a d => Sys2Proof.Machine.execMaxnK t k a d s
  | .sltK t k a d => Sys2Proof.Machine.execSltK t k a d s
  | .sltnK t k a d => Sys2Proof.Machine.execSltnK t k a d s
  | .ldk t k d => Sys2Proof.Machine.execLdk t k d s
  | .ldk16 k d => Sys2Proof.Machine.execLdk16 k d s
  | .bext w p a d => Sys2Proof.Machine.execBext w p a d s
  | .bins w p a d => Sys2Proof.Machine.execBins w p a d s
  | .ld o sx z a d => Sys2Proof.Machine.execLd o sx z a d s
  | .st o sx z a d => Sys2Proof.Machine.execSt o sx z a d s
  | .ld3216 o a d => Sys2Proof.Machine.execLd3216 o a d s
  | .st3216 o a d => Sys2Proof.Machine.execSt3216 o a d s
  | .push t a => Sys2Proof.Machine.execPush t a s
  | .pop t d => Sys2Proof.Machine.execPop t d s
  | .beq o b a => Sys2Proof.Machine.execBeq o b a s
  | .bne o b a => Sys2Proof.Machine.execBne o b a s
  | .blt o b a => Sys2Proof.Machine.execBlt o b a s
  | .bge o b a => Sys2Proof.Machine.execBge o b a s
  | .bltn o b a => Sys2Proof.Machine.execBltn o b a s
  | .bgen o b a => Sys2Proof.Machine.execBgen o b a s
  | .bz o a => Sys2Proof.Machine.execBz o a s
  | .bnz o a => Sys2Proof.Machine.execBnz o a s
  | .bz16 o a => Sys2Proof.Machine.execBz16 o a s
  | .bnz16 o a => Sys2Proof.Machine.execBnz16 o a s
  | .b o => Sys2Proof.Machine.execB o s
  | .b16 o => Sys2Proof.Machine.execB16 o s
  | .call o => Sys2Proof.Machine.execCall o s
  | .loop o a => Sys2Proof.Machine.execLoop o a s
  | .jr a => Sys2Proof.Machine.execJr a s
  | .jalr a => Sys2Proof.Machine.execJalr a s
  | .ctlGet w n d => Sys2Proof.Machine.execCtlGet w n d s
  | .ctlSet w n a => Sys2Proof.Machine.execCtlSet w n a s
  | .extSet a d => Sys2Proof.Machine.execExtSet a d s
  | .extGet a d => Sys2Proof.Machine.execExtGet a d s
  | .brk n => Sys2Proof.Machine.execBrk n s
  | .vectorPrefix c r z m => Sys2Proof.Machine.execVectorPrefix c r z m s
  | .vadd v t b a d => Sys2Proof.Machine.execVadd v t b a d s
  | .vsub v t b a d => Sys2Proof.Machine.execVsub v t b a d s
  | .vmul t b a d => Sys2Proof.Machine.execVmul t b a d s
  | .vfma t b a d => Sys2Proof.Machine.execVfma t b a d s
  | .vfms t b a d => Sys2Proof.Machine.execVfms t b a d s
  | .vfnma t b a d => Sys2Proof.Machine.execVfnma t b a d s
  | .vmin t b a d => Sys2Proof.Machine.execVmin t b a d s
  | .vmax t b a d => Sys2Proof.Machine.execVmax t b a d s
  | .vabs v t a d => Sys2Proof.Machine.execVabs v t a d s
  | .vneg v t a d => Sys2Proof.Machine.execVneg v t a d s
  | .vand t b a d => Sys2Proof.Machine.execVand t b a d s
  | .vor t b a d => Sys2Proof.Machine.execVor t b a d s
  | .vxor t b a d => Sys2Proof.Machine.execVxor t b a d s
  | .vandn t b a d => Sys2Proof.Machine.execVandn t b a d s
  | .vshl v t b a d => Sys2Proof.Machine.execVshl v t b a d s
  | .vshr v t b a d => Sys2Proof.Machine.execVshr v t b a d s
  | .vsra v t b a d => Sys2Proof.Machine.execVsra v t b a d s
  | .vcmp c t b a d => Sys2Proof.Machine.execVcmp c t b a d s
  | .vsel m t b a d => Sys2Proof.Machine.execVsel m t b a d s
  | .vcvt p sx t b a d => Sys2Proof.Machine.execVcvt p sx t b a d s
  | .vmov t a d => Sys2Proof.Machine.execVmov t a d s
  | .vsplat t a d => Sys2Proof.Machine.execVsplat t a d s
  | .vbcast h t j a d => Sys2Proof.Machine.execVbcast h t j a d s
  | .vperm t b a d => Sys2Proof.Machine.execVperm t b a d s
  | .vrot h t j a d => Sys2Proof.Machine.execVrot h t j a d s
  | .vzip v t b a d => Sys2Proof.Machine.execVzip v t b a d s
  | .vunzip v t b a d => Sys2Proof.Machine.execVunzip v t b a d s
  | .vred v t a d => Sys2Proof.Machine.execVred v t a d s
  | .vdot t b a d => Sys2Proof.Machine.execVdot t b a d s
  | .vld h t o a d => Sys2Proof.Machine.execVld h t o a d s
  | .vst h t o a d => Sys2Proof.Machine.execVst h t o a d s
  | .vldp t a d => Sys2Proof.Machine.execVldp t a d s
  | .vstp t a d => Sys2Proof.Machine.execVstp t a d s
  | .vgath t b a d => Sys2Proof.Machine.execVgath t b a d s
  | .vscat t b a d => Sys2Proof.Machine.execVscat t b a d s
  | .vfnExp2 t a d => Sys2Proof.Machine.execVfnExp2 t a d s
  | .vfnExp t a d => Sys2Proof.Machine.execVfnExp t a d s
  | .vfnLog2 t a d => Sys2Proof.Machine.execVfnLog2 t a d s
  | .vfnLog t a d => Sys2Proof.Machine.execVfnLog t a d s
  | .vfnRcp t a d => Sys2Proof.Machine.execVfnRcp t a d s
  | .vfnRsqrt t a d => Sys2Proof.Machine.execVfnRsqrt t a d s
  | .vfnSqrt t a d => Sys2Proof.Machine.execVfnSqrt t a d s
  | .vfnSin t a d => Sys2Proof.Machine.execVfnSin t a d s
  | .vfnCos t a d => Sys2Proof.Machine.execVfnCos t a d s
  | .vfnTanh t a d => Sys2Proof.Machine.execVfnTanh t a d s
  | .vfnSigmoid t a d => Sys2Proof.Machine.execVfnSigmoid t a d s
  | .vfnErf t a d => Sys2Proof.Machine.execVfnErf t a d s
  | .vexpr e t b a d => Sys2Proof.Machine.execVexpr e t b a d s
  | .sopAdd v t b a d => Sys2Proof.Machine.execSopAdd v t b a d s
  | .sopSub v t b a d => Sys2Proof.Machine.execSopSub v t b a d s
  | .sopMul t b a d => Sys2Proof.Machine.execSopMul t b a d s
  | .sopFma w t b a d => Sys2Proof.Machine.execSopFma w t b a d s
  | .sopMin t b a d => Sys2Proof.Machine.execSopMin t b a d s
  | .sopMax t b a d => Sys2Proof.Machine.execSopMax t b a d s
  | .sopCvt sx t b a d => Sys2Proof.Machine.execSopCvt sx t b a d s
  | .mand b a d => Sys2Proof.Machine.execMand b a d s
  | .mor b a d => Sys2Proof.Machine.execMor b a d s
  | .mxor b a d => Sys2Proof.Machine.execMxor b a d s
  | .mnot a d => Sys2Proof.Machine.execMnot a d s
  | .mpop t a d => Sys2Proof.Machine.execMpop t a d s
  | .mfirst t a d => Sys2Proof.Machine.execMfirst t a d s
  | .mset a d => Sys2Proof.Machine.execMset a d s
  | .ckMk m t a d => Sys2Proof.Machine.execCkMk m t a d s
  | .ckAx t ix a d => Sys2Proof.Machine.execCkAx t ix a d s
  | .ckAdd m t b a d => Sys2Proof.Machine.execCkAdd m t b a d s
  | .ckSub m t b a d => Sys2Proof.Machine.execCkSub m t b a d s
  | .ckCmp t b a d => Sys2Proof.Machine.execCkCmp t b a d s
  | .ckDom t b a d => Sys2Proof.Machine.execCkDom t b a d s
  | .ckInbox t b a d => Sys2Proof.Machine.execCkInbox t b a d s
  | .ckNext m t b a d => Sys2Proof.Machine.execCkNext m t b a d s
  | .ckPrev m t b a d => Sys2Proof.Machine.execCkPrev m t b a d s
  | .ckClip m t b a d => Sys2Proof.Machine.execCkClip m t b a d s
  | .ckChk t a d => Sys2Proof.Machine.execCkChk t a d s
  | .ckSplit m t b a d => Sys2Proof.Machine.execCkSplit m t b a d s
  | .vckAdd m t b a d => Sys2Proof.Machine.execVckAdd m t b a d s
  | .spawn a d => Sys2Proof.Machine.execSpawn a d s
  | .spawnBox f c b a d => Sys2Proof.Machine.execSpawnBox f c b a d s
  | .park a d => Sys2Proof.Machine.execPark a d s
  | .pauseW a d => Sys2Proof.Machine.execPauseW a d s
  | .gangForm n d => Sys2Proof.Machine.execGangForm n d s
  | .emit n => Sys2Proof.Machine.execEmit n s
  | .emit16 n => Sys2Proof.Machine.execEmit16 n s
  | .emitV n a => Sys2Proof.Machine.execEmitV n a s
  | .test n d => Sys2Proof.Machine.execTest n d s
  | .tval n d => Sys2Proof.Machine.execTval n d s
  | .cant n => Sys2Proof.Machine.execCant n s
  | .rgAbort n a => Sys2Proof.Machine.execRgAbort n a s
  | .rgAborts n a => Sys2Proof.Machine.execRgAborts n a s
  | .rgSusp n => Sys2Proof.Machine.execRgSusp n s
  | .barInit sx ix a => Sys2Proof.Machine.execBarInit sx ix a s
  | .barArr sx ix d => Sys2Proof.Machine.execBarArr sx ix d s
  | .barWait sx ix a => Sys2Proof.Machine.execBarWait sx ix a s
  | .barArrw sx ix d => Sys2Proof.Machine.execBarArrw sx ix d s
  | .ctrWait a d => Sys2Proof.Machine.execCtrWait a d s
  | .qPut q a d => Sys2Proof.Machine.execQPut q a d s
  | .qPoll q d => Sys2Proof.Machine.execQPoll q d s
  | .qPollNb q a d => Sys2Proof.Machine.execQPollNb q a d s
  | .gld o sx z a d => Sys2Proof.Machine.execGld o sx z a d s
  | .gst o sx z a d => Sys2Proof.Machine.execGst o sx z a d s
  | .gldHome h k a d => Sys2Proof.Machine.execGldHome h k a d s
  | .gstHome h k a d => Sys2Proof.Machine.execGstHome h k a d s
  | .sld w b a d => Sys2Proof.Machine.execSld w b a d s
  | .sst w b a d => Sys2Proof.Machine.execSst w b a d s
  | .amoAdd m sx w b a d => Sys2Proof.Machine.execAmoAdd m sx w b a d s
  | .amoAnd m sx w b a d => Sys2Proof.Machine.execAmoAnd m sx w b a d s
  | .amoOr m sx w b a d => Sys2Proof.Machine.execAmoOr m sx w b a d s
  | .amoXor m sx w b a d => Sys2Proof.Machine.execAmoXor m sx w b a d s
  | .amoMin m sx w b a d => Sys2Proof.Machine.execAmoMin m sx w b a d s
  | .amoMax m sx w b a d => Sys2Proof.Machine.execAmoMax m sx w b a d s
  | .amoMinn m sx w b a d => Sys2Proof.Machine.execAmoMinn m sx w b a d s
  | .amoMaxn m sx w b a d => Sys2Proof.Machine.execAmoMaxn m sx w b a d s
  | .amoSwap m sx w b a d => Sys2Proof.Machine.execAmoSwap m sx w b a d s
  | .amoCas m sx w b a d => Sys2Proof.Machine.execAmoCas m sx w b a d s
  | .wait c w b a d => Sys2Proof.Machine.execWait c w b a d s
  | .fence sx k => Sys2Proof.Machine.execFence sx k s
  | .pref l a => Sys2Proof.Machine.execPref l a s
  | .cln a => Sys2Proof.Machine.execCln a s
  | .inv a => Sys2Proof.Machine.execInv a s
  | .cpSend r p f e a d => Sys2Proof.Machine.execCpSend r p f e a d s
  | .cpPut r p f e a d => Sys2Proof.Machine.execCpPut r p f e a d s
  | .cpRl r p f e a d => Sys2Proof.Machine.execCpRl r p f e a d s
  | .cpHalo r p f e a d => Sys2Proof.Machine.execCpHalo r p f e a d s
  | .mxCfg e => Sys2Proof.Machine.execMxCfg e s
  | .mxMm f e a d => Sys2Proof.Machine.execMxMm f e a d s
  | .mcPost n f e a d => Sys2Proof.Machine.execMcPost n f e a d s
  | .jobFence q => Sys2Proof.Machine.execJobFence q s
  | .mclTake a d => Sys2Proof.Machine.execMclTake a d s
  | .mclRead sx a d => Sys2Proof.Machine.execMclRead sx a d s
  | .mclPush r e a => Sys2Proof.Machine.execMclPush r e a s
  | .wsSwOut a d => Sys2Proof.Machine.execWsSwOut a d s
  | .wsSwIn a d => Sys2Proof.Machine.execWsSwIn a d s
  | .eret a => Sys2Proof.Machine.execEret a s
  | .eretKill a => Sys2Proof.Machine.execEretKill a s
  | .sysc n => Sys2Proof.Machine.execSysc n s
  | .trap n a => Sys2Proof.Machine.execTrap n a s
  | .tlbInv m a d => Sys2Proof.Machine.execTlbInv m a d s
  | .fqTake a d => Sys2Proof.Machine.execFqTake a d s
  | .fqTakeNb a d => Sys2Proof.Machine.execFqTakeNb a d s
  | .fqDone n a => Sys2Proof.Machine.execFqDone n a s
  | .wipeSec a d => Sys2Proof.Machine.execWipeSec a d s
  | .ret => Sys2Proof.Machine.execRet s
  | .nop => Sys2Proof.Machine.execNop s
  | .nop16 => Sys2Proof.Machine.execNop16 s
  | .halt => Sys2Proof.Machine.execHalt s
  | .halt16 => Sys2Proof.Machine.execHalt16 s
  | .pause => Sys2Proof.Machine.execPause s
  | .pause16 => Sys2Proof.Machine.execPause16 s
  | .yield => Sys2Proof.Machine.execYield s
  | .yield16 => Sys2Proof.Machine.execYield16 s
  | .gangEnd => Sys2Proof.Machine.execGangEnd s
  | .cantAll => Sys2Proof.Machine.execCantAll s
  | .rgEnd => Sys2Proof.Machine.execRgEnd s
  | .invAll => Sys2Proof.Machine.execInvAll s
  | .mclDone => Sys2Proof.Machine.execMclDone s
  | .idle => Sys2Proof.Machine.execIdle s
  | .pendingTrap => Sys2Proof.Machine.execPendingTrap s
  | .writeBufferRetire => Sys2Proof.Machine.execWriteBufferRetire s
  | .roundSample => Sys2Proof.Machine.execRoundSample s
  | .roundResult => Sys2Proof.Machine.execRoundResult s
  | .instantBoundary => Sys2Proof.Machine.execInstantBoundary s
  | .instantOpen => Sys2Proof.Machine.execInstantOpen s
  | .instantLimitExpiry => Sys2Proof.Machine.execInstantLimitExpiry s
  | .uncorrectableError => Sys2Proof.Machine.execUncorrectableError s
  | .recordHeld => Sys2Proof.Machine.execRecordHeld s
  | .distributorSelect => Sys2Proof.Machine.execDistributorSelect s
  | .recordBind => Sys2Proof.Machine.execRecordBind s
  | .coLaunchPlacement => Sys2Proof.Machine.execCoLaunchPlacement s
  | .watchEntryResume => Sys2Proof.Machine.execWatchEntryResume s
  | .gangFormed => Sys2Proof.Machine.execGangFormed s
  | .barrierApply => Sys2Proof.Machine.execBarrierApply s
  | .barrierRelease => Sys2Proof.Machine.execBarrierRelease s
  | .queueWordLand => Sys2Proof.Machine.execQueueWordLand s
  | .qPutRetry => Sys2Proof.Machine.execQPutRetry s
  | .ctrReadReturn => Sys2Proof.Machine.execCtrReadReturn s
  | .ctrWaitWake => Sys2Proof.Machine.execCtrWaitWake s
  | .slotFreeAfterDrain => Sys2Proof.Machine.execSlotFreeAfterDrain s
  | .idleWake => Sys2Proof.Machine.execIdleWake s
  | .depositApply => Sys2Proof.Machine.execDepositApply s
  | .globalLoadArrival => Sys2Proof.Machine.execGlobalLoadArrival s
  | .l1Fill => Sys2Proof.Machine.execL1Fill s
  | .prefFill => Sys2Proof.Machine.execPrefFill s
  | .storeAck => Sys2Proof.Machine.execStoreAck s
  | .tagRoomResume => Sys2Proof.Machine.execTagRoomResume s
  | .loadAfterStoreAck => Sys2Proof.Machine.execLoadAfterStoreAck s
  | .soAccessStart => Sys2Proof.Machine.execSoAccessStart s
  | .fenceReleaseDone => Sys2Proof.Machine.execFenceReleaseDone s
  | .waitWakeOnWrite => Sys2Proof.Machine.execWaitWakeOnWrite s
  | .waitTimeout => Sys2Proof.Machine.execWaitTimeout s
  | .mshrReissue => Sys2Proof.Machine.execMshrReissue s
  | .walkStart => Sys2Proof.Machine.execWalkStart s
  | .tlbWalkFill => Sys2Proof.Machine.execTlbWalkFill s
  | .migRewalk => Sys2Proof.Machine.execMigRewalk s
  | .dirtyReread => Sys2Proof.Machine.execDirtyReread s
  | .tlbInvDone => Sys2Proof.Machine.execTlbInvDone s
  | .wsSwDone => Sys2Proof.Machine.execWsSwDone s
  | .jobEntryTake => Sys2Proof.Machine.execJobEntryTake s
  | .copySectorTurn => Sys2Proof.Machine.execCopySectorTurn s
  | .copyDepositLand => Sys2Proof.Machine.execCopyDepositLand s
  | .copyFaultPost => Sys2Proof.Machine.execCopyFaultPost s
  | .jobCompletion => Sys2Proof.Machine.execJobCompletion s
  | .gatherRequestArrive => Sys2Proof.Machine.execGatherRequestArrive s
  | .gatherReadDone => Sys2Proof.Machine.execGatherReadDone s
  | .pinGranted => Sys2Proof.Machine.execPinGranted s
  | .tileFetch => Sys2Proof.Machine.execTileFetch s
  | .tileStart => Sys2Proof.Machine.execTileStart s
  | .tileDone => Sys2Proof.Machine.execTileDone s
  | .baristaRingEnter => Sys2Proof.Machine.execBaristaRingEnter s
  | .mclReadDone => Sys2Proof.Machine.execMclReadDone s
  | .baristaPushArrive => Sys2Proof.Machine.execBaristaPushArrive s
  | .baristaRequestTimeout => Sys2Proof.Machine.execBaristaRequestTimeout s
  | .baristaStart => Sys2Proof.Machine.execBaristaStart s
  | .faultPost => Sys2Proof.Machine.execFaultPost s
  | .faultEntryResume => Sys2Proof.Machine.execFaultEntryResume s
  | .faultRequesterRelease => Sys2Proof.Machine.execFaultRequesterRelease s
  | .copyReplay => Sys2Proof.Machine.execCopyReplay s
  | .tokenRequestReceive => Sys2Proof.Machine.execTokenRequestReceive s
  | .tokenMessageReceive => Sys2Proof.Machine.execTokenMessageReceive s
  | .requestReissue => Sys2Proof.Machine.execRequestReissue s
  | .moduleRoundSample => Sys2Proof.Machine.execModuleRoundSample s
  | .moduleRoundResult => Sys2Proof.Machine.execModuleRoundResult s
  | .atomicRequestReceive => Sys2Proof.Machine.execAtomicRequestReceive s
  | .nackReceive => Sys2Proof.Machine.execNackReceive s
  | .move => Sys2Proof.Machine.execMove s
  | .releaseMovedMarks => Sys2Proof.Machine.execReleaseMovedMarks s
  | .moveLineStep => Sys2Proof.Machine.execMoveLineStep s
  | .launchQueueTail => Sys2Proof.Machine.execLaunchQueueTail s
  | .launchQueueTake => Sys2Proof.Machine.execLaunchQueueTake s
  | .launch => Sys2Proof.Machine.execLaunch s
  | .release => Sys2Proof.Machine.execRelease s
  | .evict => Sys2Proof.Machine.execEvict s
  | .evictSave => Sys2Proof.Machine.execEvictSave s
  | .restore => Sys2Proof.Machine.execRestore s
  | .inject => Sys2Proof.Machine.execInject s
  | .dieWipeComplete => Sys2Proof.Machine.execDieWipeComplete s
  | .hostTlbInvalidate => Sys2Proof.Machine.execHostTlbInvalidate s
  | .hostTlbInvDone => Sys2Proof.Machine.execHostTlbInvDone s
  | .hostDramWrite => Sys2Proof.Machine.execHostDramWrite s
  | .hostDramRead => Sys2Proof.Machine.execHostDramRead s
  | .hostPoolWrite => Sys2Proof.Machine.execHostPoolWrite s
  | .hostPoolRead => Sys2Proof.Machine.execHostPoolRead s
  | .hostBaristaWrite => Sys2Proof.Machine.execHostBaristaWrite s
  | .registerWrite => Sys2Proof.Machine.execRegisterWrite s
  | .peerLaunchWrite => Sys2Proof.Machine.execPeerLaunchWrite s
  | .haloWrite => Sys2Proof.Machine.execHaloWrite s
  | .qpDoorbell => Sys2Proof.Machine.execQpDoorbell s
  | .cqDoorbell => Sys2Proof.Machine.execCqDoorbell s
  | .setModuleNumber => Sys2Proof.Machine.execSetModuleNumber s
  | .writeAccessControl => Sys2Proof.Machine.execWriteAccessControl s
  | .setPowerLimit => Sys2Proof.Machine.execSetPowerLimit s
  | .setClock => Sys2Proof.Machine.execSetClock s
  | .clockChangeDone => Sys2Proof.Machine.execClockChangeDone s
  | .readTelemetry => Sys2Proof.Machine.execReadTelemetry s
  | .getMeasurements => Sys2Proof.Machine.execGetMeasurements s
  | .firmwareUpdate => Sys2Proof.Machine.execFirmwareUpdate s
  | .lifecycleTransition => Sys2Proof.Machine.execLifecycleTransition s
  | .coldReset => Sys2Proof.Machine.execColdReset s
  | .warmReset => Sys2Proof.Machine.execWarmReset s
  | .wipeComplete => Sys2Proof.Machine.execWipeComplete s
  | .powerEstimate => Sys2Proof.Machine.execPowerEstimate s
  | .unallocatedOpcode => Sys2Proof.Machine.execUnallocatedOpcode s
  | .emulMajor => Sys2Proof.Machine.execEmulMajor s
  | .fetchBeyondCodeImage => Sys2Proof.Machine.execFetchBeyondCodeImage s
  | .linkTraining => Sys2Proof.Machine.execLinkTraining s
  | .linkUp => Sys2Proof.Machine.execLinkUp s

end Sys2Proof.Machine
end

