-- ==== Sys2Proof/Machine/Step.lean ====
section
/-!
DEFINITION. Step: one step of the module: the next entry of the agenda, or the issue that the latest step left open (03 R65 to R75, 08 R165),
and the state in which a given word is fetched next.
-/

namespace Sys2Proof.Machine

/-- Core k issues: it fetches, decodes and executes; a word that no unit of its kind accepts traps (R67). -/
def issueNow (k : Nat) (s : State) : Out :=
  let t := issuing k s
  match (fetch t).2 with
  | .ok i => exec i t
  | .error tr => .next (trapNow tr t)

/-- An entry of the agenda in its cycle. -/
def runItem (it : Item) (s : State) : Out :=
  match it with
  | .ev i x => exec i { s with args := x }
  | .issue k =>
    match turnOf k s with
    | .wait t => .next t
    | .go t => issueNow k t

/-- One step: the second half of a prefixed pair (R75), or the earliest entry of the agenda (log 1). -/
def step (s : State) : Out :=
  match s.turn with
  | some k => issueNow k s
  | none =>
    match leastOf s.agenda with
    | none => .fault .idle
    | some (e, rest) => runItem e.item { s with agenda := rest, cycle := max s.cycle (e.time / 4) }

/-- A task of core 0 is about to issue the word at PC 0 of the code image of a domain on die 0. -/
def withCoreWord (s : State) (w : Nat) : State :=
  let s := { s with domains := Table.set s.domains 0 { mask := 1, isOpen := true, code := Memory.write [] 0 8 w, codeLen := 8 } }
  let s := updCore s 0 fun c => { c with wsp := 0x400, pfx := none, slots := [{ live := true }] }
  { s with turn := some 0 }

/-- Barista 0 is about to issue the word at 0x1000 of its local memory. -/
def withBaristaWord (s : State) (w : Nat) : State :=
  let s := updCore s Config.cores fun c =>
    { c with lm := Memory.write c.lm 0x1000 8 w, wsp := 0x400, pfx := none, running := true, slots := [{ live := true, pc := 0x1000 }] }
  { s with turn := some Config.cores }

/-- The state with an instruction where step fetches the next one: for the words of major 0x29 a barista's memory (R331), for the others
the code image of a domain (R65). It stands for the load that the host performs with a launch packet (log 10). -/
def State.withFetchWord (s : State) (nbits w : Nat) : State :=
  let v := w % 2 ^ nbits
  if v % 2 = 1 ∧ fld v 1 6 = 0x29 then withBaristaWord s v else withCoreWord s v

end Sys2Proof.Machine
end

