-- ==== Sys2Proof/Laws/PerInstr.lean ====
section
/-!
SUPPORT. PerInstr: statements made for every constructor of Instr. EncodedLength: the first halfword of an instruction's word gives the
length of the word (03 R65, R66); an event has no word.
-/

namespace Sys2Proof.Laws

/-- The lowest bit of a word is that of its fixed part when every field lies above it. -/
theorem place_even (m : Nat) : ∀ fs : List (Nat × Nat), (∀ f ∈ fs, 1 ≤ f.2) → place m fs % 2 = m % 2
  | [], _ => rfl
  | f :: fs, h => by
    obtain ⟨k, hk⟩ := Nat.exists_eq_add_of_le (h f (.head _))
    have ih := place_even m fs fun g hg => h g (.tail _ hg)
    have : f.1 * 2 ^ f.2 = 2 * (f.1 * 2 ^ k) := by rw [hk, Nat.pow_add, Nat.pow_one, Nat.mul_left_comm]
    simp only [place]
    omega

namespace EncodedLength

/-- An instruction's word has the length that its first halfword gives. -/
def Statement (i : Instr) : Prop := ∀ n w, encode i = some (n, w) → (n = 32 ↔ w % 2 = 1) ∧ (n = 16 ↔ w % 2 = 0)

/-- A word of a length, made of a fixed part and fields above bit 0. -/
theorem of_place {i : Instr} (n m : Nat) (fs : List (Nat × Nat)) (he : encode i = some (n, place m fs)) (hf : fs.all (fun f => decide (1 ≤ f.2)) = true)
    (h : (n = 32 ∧ m % 2 = 1) ∨ (n = 16 ∧ m % 2 = 0)) : Statement i := by
  intro n' w' hw
  rw [he] at hw
  obtain ⟨rfl, rfl⟩ : n = n' ∧ place m fs = w' := by simpa using hw
  have := place_even m fs fun f hm => by simpa using List.all_eq_true.mp hf f hm
  omega

theorem of_none {i : Instr} (he : encode i = none) : Statement i := by
  intro n w hw
  simp [he] at hw

theorem add (t b a d : Nat) : Statement (.add t b a d) := of_place _ _ _ rfl rfl (by decide)
theorem sub (t b a d : Nat) : Statement (.sub t b a d) := of_place _ _ _ rfl rfl (by decide)
theorem mul (t b a d : Nat) : Statement (.mul t b a d) := of_place _ _ _ rfl rfl (by decide)
theorem mulh (t b a d : Nat) : Statement (.mulh t b a d) := of_place _ _ _ rfl rfl (by decide)
theorem mulhn (t b a d : Nat) : Statement (.mulhn t b a d) := of_place _ _ _ rfl rfl (by decide)
theorem div (t b a d : Nat) : Statement (.div t b a d) := of_place _ _ _ rfl rfl (by decide)
theorem divn (t b a d : Nat) : Statement (.divn t b a d) := of_place _ _ _ rfl rfl (by decide)
theorem rem (t b a d : Nat) : Statement (.rem t b a d) := of_place _ _ _ rfl rfl (by decide)
theorem remn (t b a d : Nat) : Statement (.remn t b a d) := of_place _ _ _ rfl rfl (by decide)
theorem and (t b a d : Nat) : Statement (.and t b a d) := of_place _ _ _ rfl rfl (by decide)
theorem or (t b a d : Nat) : Statement (.or t b a d) := of_place _ _ _ rfl rfl (by decide)
theorem xor (t b a d : Nat) : Statement (.xor t b a d) := of_place _ _ _ rfl rfl (by decide)
theorem andn (t b a d : Nat) : Statement (.andn t b a d) := of_place _ _ _ rfl rfl (by decide)
theorem orn (t b a d : Nat) : Statement (.orn t b a d) := of_place _ _ _ rfl rfl (by decide)
theorem shl (t b a d : Nat) : Statement (.shl t b a d) := of_place _ _ _ rfl rfl (by decide)
theorem shr (t b a d : Nat) : Statement (.shr t b a d) := of_place _ _ _ rfl rfl (by decide)
theorem sra (t b a d : Nat) : Statement (.sra t b a d) := of_place _ _ _ rfl rfl (by decide)
theorem rotl (t b a d : Nat) : Statement (.rotl t b a d) := of_place _ _ _ rfl rfl (by decide)
theorem min (t b a d : Nat) : Statement (.min t b a d) := of_place _ _ _ rfl rfl (by decide)
theorem max (t b a d : Nat) : Statement (.max t b a d) := of_place _ _ _ rfl rfl (by decide)
theorem minn (t b a d : Nat) : Statement (.minn t b a d) := of_place _ _ _ rfl rfl (by decide)
theorem maxn (t b a d : Nat) : Statement (.maxn t b a d) := of_place _ _ _ rfl rfl (by decide)
theorem slt (t b a d : Nat) : Statement (.slt t b a d) := of_place _ _ _ rfl rfl (by decide)
theorem sltn (t b a d : Nat) : Statement (.sltn t b a d) := of_place _ _ _ rfl rfl (by decide)
theorem sel (c t b a d : Nat) : Statement (.sel c t b a d) := of_place _ _ _ rfl rfl (by decide)
theorem clz (t a d : Nat) : Statement (.clz t a d) := of_place _ _ _ rfl rfl (by decide)
theorem ctz (t a d : Nat) : Statement (.ctz t a d) := of_place _ _ _ rfl rfl (by decide)
theorem popc (t a d : Nat) : Statement (.popc t a d) := of_place _ _ _ rfl rfl (by decide)
theorem bswap (t a d : Nat) : Statement (.bswap t a d) := of_place _ _ _ rfl rfl (by decide)
theorem add16 (a d : Nat) : Statement (.add16 a d) := of_place _ _ _ rfl rfl (by decide)
theorem sub16 (a d : Nat) : Statement (.sub16 a d) := of_place _ _ _ rfl rfl (by decide)
theorem and16 (a d : Nat) : Statement (.and16 a d) := of_place _ _ _ rfl rfl (by decide)
theorem or16 (a d : Nat) : Statement (.or16 a d) := of_place _ _ _ rfl rfl (by decide)
theorem xor16 (a d : Nat) : Statement (.xor16 a d) := of_place _ _ _ rfl rfl (by decide)
theorem shl16 (a d : Nat) : Statement (.shl16 a d) := of_place _ _ _ rfl rfl (by decide)
theorem shr16 (a d : Nat) : Statement (.shr16 a d) := of_place _ _ _ rfl rfl (by decide)
theorem sra16 (a d : Nat) : Statement (.sra16 a d) := of_place _ _ _ rfl rfl (by decide)
theorem mov16 (a d : Nat) : Statement (.mov16 a d) := of_place _ _ _ rfl rfl (by decide)
theorem min16 (a d : Nat) : Statement (.min16 a d) := of_place _ _ _ rfl rfl (by decide)
theorem max16 (a d : Nat) : Statement (.max16 a d) := of_place _ _ _ rfl rfl (by decide)
theorem minn16 (a d : Nat) : Statement (.minn16 a d) := of_place _ _ _ rfl rfl (by decide)
theorem maxn16 (a d : Nat) : Statement (.maxn16 a d) := of_place _ _ _ rfl rfl (by decide)
theorem mul16 (a d : Nat) : Statement (.mul16 a d) := of_place _ _ _ rfl rfl (by decide)
theorem slt16 (a d : Nat) : Statement (.slt16 a d) := of_place _ _ _ rfl rfl (by decide)
theorem sltn16 (a d : Nat) : Statement (.sltn16 a d) := of_place _ _ _ rfl rfl (by decide)
theorem addImmediate (ix a d : Nat) : Statement (.addImmediate ix a d) := of_place _ _ _ rfl rfl (by decide)
theorem addImmediate16 (ix d : Nat) : Statement (.addImmediate16 ix d) := of_place _ _ _ rfl rfl (by decide)
theorem lih (ix d : Nat) : Statement (.lih ix d) := of_place _ _ _ rfl rfl (by decide)
theorem addK (t k a d : Nat) : Statement (.addK t k a d) := of_place _ _ _ rfl rfl (by decide)
theorem subK (t k a d : Nat) : Statement (.subK t k a d) := of_place _ _ _ rfl rfl (by decide)
theorem mulK (t k a d : Nat) : Statement (.mulK t k a d) := of_place _ _ _ rfl rfl (by decide)
theorem mulhK (t k a d : Nat) : Statement (.mulhK t k a d) := of_place _ _ _ rfl rfl (by decide)
theorem mulhnK (t k a d : Nat) : Statement (.mulhnK t k a d) := of_place _ _ _ rfl rfl (by decide)
theorem divK (t k a d : Nat) : Statement (.divK t k a d) := of_place _ _ _ rfl rfl (by decide)
theorem divnK (t k a d : Nat) : Statement (.divnK t k a d) := of_place _ _ _ rfl rfl (by decide)
theorem remK (t k a d : Nat) : Statement (.remK t k a d) := of_place _ _ _ rfl rfl (by decide)
theorem remnK (t k a d : Nat) : Statement (.remnK t k a d) := of_place _ _ _ rfl rfl (by decide)
theorem andK (t k a d : Nat) : Statement (.andK t k a d) := of_place _ _ _ rfl rfl (by decide)
theorem orK (t k a d : Nat) : Statement (.orK t k a d) := of_place _ _ _ rfl rfl (by decide)
theorem xorK (t k a d : Nat) : Statement (.xorK t k a d) := of_place _ _ _ rfl rfl (by decide)
theorem andnK (t k a d : Nat) : Statement (.andnK t k a d) := of_place _ _ _ rfl rfl (by decide)
theorem ornK (t k a d : Nat) : Statement (.ornK t k a d) := of_place _ _ _ rfl rfl (by decide)
theorem shlK (t k a d : Nat) : Statement (.shlK t k a d) := of_place _ _ _ rfl rfl (by decide)
theorem shrK (t k a d : Nat) : Statement (.shrK t k a d) := of_place _ _ _ rfl rfl (by decide)
theorem sraK (t k a d : Nat) : Statement (.sraK t k a d) := of_place _ _ _ rfl rfl (by decide)
theorem rotlK (t k a d : Nat) : Statement (.rotlK t k a d) := of_place _ _ _ rfl rfl (by decide)
theorem minK (t k a d : Nat) : Statement (.minK t k a d) := of_place _ _ _ rfl rfl (by decide)
theorem maxK (t k a d : Nat) : Statement (.maxK t k a d) := of_place _ _ _ rfl rfl (by decide)
theorem minnK (t k a d : Nat) : Statement (.minnK t k a d) := of_place _ _ _ rfl rfl (by decide)
theorem maxnK (t k a d : Nat) : Statement (.maxnK t k a d) := of_place _ _ _ rfl rfl (by decide)
theorem sltK (t k a d : Nat) : Statement (.sltK t k a d) := of_place _ _ _ rfl rfl (by decide)
theorem sltnK (t k a d : Nat) : Statement (.sltnK t k a d) := of_place _ _ _ rfl rfl (by decide)
theorem ldk (t k d : Nat) : Statement (.ldk t k d) := of_place _ _ _ rfl rfl (by decide)
theorem ldk16 (k d : Nat) : Statement (.ldk16 k d) := of_place _ _ _ rfl rfl (by decide)
theorem bext (w p a d : Nat) : Statement (.bext w p a d) := of_place _ _ _ rfl rfl (by decide)
theorem bins (w p a d : Nat) : Statement (.bins w p a d) := of_place _ _ _ rfl rfl (by decide)
theorem ld (o sx z a d : Nat) : Statement (.ld o sx z a d) := of_place _ _ _ rfl rfl (by decide)
theorem st (o sx z a d : Nat) : Statement (.st o sx z a d) := of_place _ _ _ rfl rfl (by decide)
theorem ld3216 (o a d : Nat) : Statement (.ld3216 o a d) := of_place _ _ _ rfl rfl (by decide)
theorem st3216 (o a d : Nat) : Statement (.st3216 o a d) := of_place _ _ _ rfl rfl (by decide)
theorem push (t a : Nat) : Statement (.push t a) := of_place _ _ _ rfl rfl (by decide)
theorem pop (t d : Nat) : Statement (.pop t d) := of_place _ _ _ rfl rfl (by decide)
theorem beq (o b a : Nat) : Statement (.beq o b a) := of_place _ _ _ rfl rfl (by decide)
theorem bne (o b a : Nat) : Statement (.bne o b a) := of_place _ _ _ rfl rfl (by decide)
theorem blt (o b a : Nat) : Statement (.blt o b a) := of_place _ _ _ rfl rfl (by decide)
theorem bge (o b a : Nat) : Statement (.bge o b a) := of_place _ _ _ rfl rfl (by decide)
theorem bltn (o b a : Nat) : Statement (.bltn o b a) := of_place _ _ _ rfl rfl (by decide)
theorem bgen (o b a : Nat) : Statement (.bgen o b a) := of_place _ _ _ rfl rfl (by decide)
theorem bz (o a : Nat) : Statement (.bz o a) := of_place _ _ _ rfl rfl (by decide)
theorem bnz (o a : Nat) : Statement (.bnz o a) := of_place _ _ _ rfl rfl (by decide)
theorem bz16 (o a : Nat) : Statement (.bz16 o a) := of_place _ _ _ rfl rfl (by decide)
theorem bnz16 (o a : Nat) : Statement (.bnz16 o a) := of_place _ _ _ rfl rfl (by decide)
theorem b (o : Nat) : Statement (.b o) := of_place _ _ _ rfl rfl (by decide)
theorem b16 (o : Nat) : Statement (.b16 o) := of_place _ _ _ rfl rfl (by decide)
theorem call (o : Nat) : Statement (.call o) := of_place _ _ _ rfl rfl (by decide)
theorem loop (o a : Nat) : Statement (.loop o a) := of_place _ _ _ rfl rfl (by decide)
theorem jr (a : Nat) : Statement (.jr a) := of_place _ _ _ rfl rfl (by decide)
theorem jalr (a : Nat) : Statement (.jalr a) := of_place _ _ _ rfl rfl (by decide)
theorem ctlGet (w n d : Nat) : Statement (.ctlGet w n d) := of_place _ _ _ rfl rfl (by decide)
theorem ctlSet (w n a : Nat) : Statement (.ctlSet w n a) := of_place _ _ _ rfl rfl (by decide)
theorem extSet (a d : Nat) : Statement (.extSet a d) := of_place _ _ _ rfl rfl (by decide)
theorem extGet (a d : Nat) : Statement (.extGet a d) := of_place _ _ _ rfl rfl (by decide)
theorem brk (n : Nat) : Statement (.brk n) := of_place _ _ _ rfl rfl (by decide)
theorem vectorPrefix (c r z m : Nat) : Statement (.vectorPrefix c r z m) := of_place _ _ _ rfl rfl (by decide)
theorem vadd (v t b a d : Nat) : Statement (.vadd v t b a d) := of_place _ _ _ rfl rfl (by decide)
theorem vsub (v t b a d : Nat) : Statement (.vsub v t b a d) := of_place _ _ _ rfl rfl (by decide)
theorem vmul (t b a d : Nat) : Statement (.vmul t b a d) := of_place _ _ _ rfl rfl (by decide)
theorem vfma (t b a d : Nat) : Statement (.vfma t b a d) := of_place _ _ _ rfl rfl (by decide)
theorem vfms (t b a d : Nat) : Statement (.vfms t b a d) := of_place _ _ _ rfl rfl (by decide)
theorem vfnma (t b a d : Nat) : Statement (.vfnma t b a d) := of_place _ _ _ rfl rfl (by decide)
theorem vmin (t b a d : Nat) : Statement (.vmin t b a d) := of_place _ _ _ rfl rfl (by decide)
theorem vmax (t b a d : Nat) : Statement (.vmax t b a d) := of_place _ _ _ rfl rfl (by decide)
theorem vabs (v t a d : Nat) : Statement (.vabs v t a d) := of_place _ _ _ rfl rfl (by decide)
theorem vneg (v t a d : Nat) : Statement (.vneg v t a d) := of_place _ _ _ rfl rfl (by decide)
theorem vand (t b a d : Nat) : Statement (.vand t b a d) := of_place _ _ _ rfl rfl (by decide)
theorem vor (t b a d : Nat) : Statement (.vor t b a d) := of_place _ _ _ rfl rfl (by decide)
theorem vxor (t b a d : Nat) : Statement (.vxor t b a d) := of_place _ _ _ rfl rfl (by decide)
theorem vandn (t b a d : Nat) : Statement (.vandn t b a d) := of_place _ _ _ rfl rfl (by decide)
theorem vshl (v t b a d : Nat) : Statement (.vshl v t b a d) := of_place _ _ _ rfl rfl (by decide)
theorem vshr (v t b a d : Nat) : Statement (.vshr v t b a d) := of_place _ _ _ rfl rfl (by decide)
theorem vsra (v t b a d : Nat) : Statement (.vsra v t b a d) := of_place _ _ _ rfl rfl (by decide)
theorem vcmp (c t b a d : Nat) : Statement (.vcmp c t b a d) := of_place _ _ _ rfl rfl (by decide)
theorem vsel (m t b a d : Nat) : Statement (.vsel m t b a d) := of_place _ _ _ rfl rfl (by decide)
theorem vcvt (p sx t b a d : Nat) : Statement (.vcvt p sx t b a d) := of_place _ _ _ rfl rfl (by decide)
theorem vmov (t a d : Nat) : Statement (.vmov t a d) := of_place _ _ _ rfl rfl (by decide)
theorem vsplat (t a d : Nat) : Statement (.vsplat t a d) := of_place _ _ _ rfl rfl (by decide)
theorem vbcast (h t j a d : Nat) : Statement (.vbcast h t j a d) := of_place _ _ _ rfl rfl (by decide)
theorem vperm (t b a d : Nat) : Statement (.vperm t b a d) := of_place _ _ _ rfl rfl (by decide)
theorem vrot (h t j a d : Nat) : Statement (.vrot h t j a d) := of_place _ _ _ rfl rfl (by decide)
theorem vzip (v t b a d : Nat) : Statement (.vzip v t b a d) := of_place _ _ _ rfl rfl (by decide)
theorem vunzip (v t b a d : Nat) : Statement (.vunzip v t b a d) := of_place _ _ _ rfl rfl (by decide)
theorem vred (v t a d : Nat) : Statement (.vred v t a d) := of_place _ _ _ rfl rfl (by decide)
theorem vdot (t b a d : Nat) : Statement (.vdot t b a d) := of_place _ _ _ rfl rfl (by decide)
theorem vld (h t o a d : Nat) : Statement (.vld h t o a d) := of_place _ _ _ rfl rfl (by decide)
theorem vst (h t o a d : Nat) : Statement (.vst h t o a d) := of_place _ _ _ rfl rfl (by decide)
theorem vldp (t a d : Nat) : Statement (.vldp t a d) := of_place _ _ _ rfl rfl (by decide)
theorem vstp (t a d : Nat) : Statement (.vstp t a d) := of_place _ _ _ rfl rfl (by decide)
theorem vgath (t b a d : Nat) : Statement (.vgath t b a d) := of_place _ _ _ rfl rfl (by decide)
theorem vscat (t b a d : Nat) : Statement (.vscat t b a d) := of_place _ _ _ rfl rfl (by decide)
theorem vfnExp2 (t a d : Nat) : Statement (.vfnExp2 t a d) := of_place _ _ _ rfl rfl (by decide)
theorem vfnExp (t a d : Nat) : Statement (.vfnExp t a d) := of_place _ _ _ rfl rfl (by decide)
theorem vfnLog2 (t a d : Nat) : Statement (.vfnLog2 t a d) := of_place _ _ _ rfl rfl (by decide)
theorem vfnLog (t a d : Nat) : Statement (.vfnLog t a d) := of_place _ _ _ rfl rfl (by decide)
theorem vfnRcp (t a d : Nat) : Statement (.vfnRcp t a d) := of_place _ _ _ rfl rfl (by decide)
theorem vfnRsqrt (t a d : Nat) : Statement (.vfnRsqrt t a d) := of_place _ _ _ rfl rfl (by decide)
theorem vfnSqrt (t a d : Nat) : Statement (.vfnSqrt t a d) := of_place _ _ _ rfl rfl (by decide)
theorem vfnSin (t a d : Nat) : Statement (.vfnSin t a d) := of_place _ _ _ rfl rfl (by decide)
theorem vfnCos (t a d : Nat) : Statement (.vfnCos t a d) := of_place _ _ _ rfl rfl (by decide)
theorem vfnTanh (t a d : Nat) : Statement (.vfnTanh t a d) := of_place _ _ _ rfl rfl (by decide)
theorem vfnSigmoid (t a d : Nat) : Statement (.vfnSigmoid t a d) := of_place _ _ _ rfl rfl (by decide)
theorem vfnErf (t a d : Nat) : Statement (.vfnErf t a d) := of_place _ _ _ rfl rfl (by decide)
theorem vexpr (e t b a d : Nat) : Statement (.vexpr e t b a d) := of_place _ _ _ rfl rfl (by decide)
theorem sopAdd (v t b a d : Nat) : Statement (.sopAdd v t b a d) := of_place _ _ _ rfl rfl (by decide)
theorem sopSub (v t b a d : Nat) : Statement (.sopSub v t b a d) := of_place _ _ _ rfl rfl (by decide)
theorem sopMul (t b a d : Nat) : Statement (.sopMul t b a d) := of_place _ _ _ rfl rfl (by decide)
theorem sopFma (w t b a d : Nat) : Statement (.sopFma w t b a d) := of_place _ _ _ rfl rfl (by decide)
theorem sopMin (t b a d : Nat) : Statement (.sopMin t b a d) := of_place _ _ _ rfl rfl (by decide)
theorem sopMax (t b a d : Nat) : Statement (.sopMax t b a d) := of_place _ _ _ rfl rfl (by decide)
theorem sopCvt (sx t b a d : Nat) : Statement (.sopCvt sx t b a d) := of_place _ _ _ rfl rfl (by decide)
theorem mand (b a d : Nat) : Statement (.mand b a d) := of_place _ _ _ rfl rfl (by decide)
theorem mor (b a d : Nat) : Statement (.mor b a d) := of_place _ _ _ rfl rfl (by decide)
theorem mxor (b a d : Nat) : Statement (.mxor b a d) := of_place _ _ _ rfl rfl (by decide)
theorem mnot (a d : Nat) : Statement (.mnot a d) := of_place _ _ _ rfl rfl (by decide)
theorem mpop (t a d : Nat) : Statement (.mpop t a d) := of_place _ _ _ rfl rfl (by decide)
theorem mfirst (t a d : Nat) : Statement (.mfirst t a d) := of_place _ _ _ rfl rfl (by decide)
theorem mset (a d : Nat) : Statement (.mset a d) := of_place _ _ _ rfl rfl (by decide)
theorem ckMk (m t a d : Nat) : Statement (.ckMk m t a d) := of_place _ _ _ rfl rfl (by decide)
theorem ckAx (t ix a d : Nat) : Statement (.ckAx t ix a d) := of_place _ _ _ rfl rfl (by decide)
theorem ckAdd (m t b a d : Nat) : Statement (.ckAdd m t b a d) := of_place _ _ _ rfl rfl (by decide)
theorem ckSub (m t b a d : Nat) : Statement (.ckSub m t b a d) := of_place _ _ _ rfl rfl (by decide)
theorem ckCmp (t b a d : Nat) : Statement (.ckCmp t b a d) := of_place _ _ _ rfl rfl (by decide)
theorem ckDom (t b a d : Nat) : Statement (.ckDom t b a d) := of_place _ _ _ rfl rfl (by decide)
theorem ckInbox (t b a d : Nat) : Statement (.ckInbox t b a d) := of_place _ _ _ rfl rfl (by decide)
theorem ckNext (m t b a d : Nat) : Statement (.ckNext m t b a d) := of_place _ _ _ rfl rfl (by decide)
theorem ckPrev (m t b a d : Nat) : Statement (.ckPrev m t b a d) := of_place _ _ _ rfl rfl (by decide)
theorem ckClip (m t b a d : Nat) : Statement (.ckClip m t b a d) := of_place _ _ _ rfl rfl (by decide)
theorem ckChk (t a d : Nat) : Statement (.ckChk t a d) := of_place _ _ _ rfl rfl (by decide)
theorem ckSplit (m t b a d : Nat) : Statement (.ckSplit m t b a d) := of_place _ _ _ rfl rfl (by decide)
theorem vckAdd (m t b a d : Nat) : Statement (.vckAdd m t b a d) := of_place _ _ _ rfl rfl (by decide)
theorem spawn (a d : Nat) : Statement (.spawn a d) := of_place _ _ _ rfl rfl (by decide)
theorem spawnBox (f c b a d : Nat) : Statement (.spawnBox f c b a d) := of_place _ _ _ rfl rfl (by decide)
theorem park (a d : Nat) : Statement (.park a d) := of_place _ _ _ rfl rfl (by decide)
theorem pauseW (a d : Nat) : Statement (.pauseW a d) := of_place _ _ _ rfl rfl (by decide)
theorem gangForm (n d : Nat) : Statement (.gangForm n d) := of_place _ _ _ rfl rfl (by decide)
theorem emit (n : Nat) : Statement (.emit n) := of_place _ _ _ rfl rfl (by decide)
theorem emit16 (n : Nat) : Statement (.emit16 n) := of_place _ _ _ rfl rfl (by decide)
theorem emitV (n a : Nat) : Statement (.emitV n a) := of_place _ _ _ rfl rfl (by decide)
theorem test (n d : Nat) : Statement (.test n d) := of_place _ _ _ rfl rfl (by decide)
theorem tval (n d : Nat) : Statement (.tval n d) := of_place _ _ _ rfl rfl (by decide)
theorem cant (n : Nat) : Statement (.cant n) := of_place _ _ _ rfl rfl (by decide)
theorem rgAbort (n a : Nat) : Statement (.rgAbort n a) := of_place _ _ _ rfl rfl (by decide)
theorem rgAborts (n a : Nat) : Statement (.rgAborts n a) := of_place _ _ _ rfl rfl (by decide)
theorem rgSusp (n : Nat) : Statement (.rgSusp n) := of_place _ _ _ rfl rfl (by decide)
theorem barInit (sx ix a : Nat) : Statement (.barInit sx ix a) := of_place _ _ _ rfl rfl (by decide)
theorem barArr (sx ix d : Nat) : Statement (.barArr sx ix d) := of_place _ _ _ rfl rfl (by decide)
theorem barWait (sx ix a : Nat) : Statement (.barWait sx ix a) := of_place _ _ _ rfl rfl (by decide)
theorem barArrw (sx ix d : Nat) : Statement (.barArrw sx ix d) := of_place _ _ _ rfl rfl (by decide)
theorem ctrWait (a d : Nat) : Statement (.ctrWait a d) := of_place _ _ _ rfl rfl (by decide)
theorem qPut (q a d : Nat) : Statement (.qPut q a d) := of_place _ _ _ rfl rfl (by decide)
theorem qPoll (q d : Nat) : Statement (.qPoll q d) := of_place _ _ _ rfl rfl (by decide)
theorem qPollNb (q a d : Nat) : Statement (.qPollNb q a d) := of_place _ _ _ rfl rfl (by decide)
theorem gld (o sx z a d : Nat) : Statement (.gld o sx z a d) := of_place _ _ _ rfl rfl (by decide)
theorem gst (o sx z a d : Nat) : Statement (.gst o sx z a d) := of_place _ _ _ rfl rfl (by decide)
theorem gldHome (h k a d : Nat) : Statement (.gldHome h k a d) := of_place _ _ _ rfl rfl (by decide)
theorem gstHome (h k a d : Nat) : Statement (.gstHome h k a d) := of_place _ _ _ rfl rfl (by decide)
theorem sld (w b a d : Nat) : Statement (.sld w b a d) := of_place _ _ _ rfl rfl (by decide)
theorem sst (w b a d : Nat) : Statement (.sst w b a d) := of_place _ _ _ rfl rfl (by decide)
theorem amoAdd (m sx w b a d : Nat) : Statement (.amoAdd m sx w b a d) := of_place _ _ _ rfl rfl (by decide)
theorem amoAnd (m sx w b a d : Nat) : Statement (.amoAnd m sx w b a d) := of_place _ _ _ rfl rfl (by decide)
theorem amoOr (m sx w b a d : Nat) : Statement (.amoOr m sx w b a d) := of_place _ _ _ rfl rfl (by decide)
theorem amoXor (m sx w b a d : Nat) : Statement (.amoXor m sx w b a d) := of_place _ _ _ rfl rfl (by decide)
theorem amoMin (m sx w b a d : Nat) : Statement (.amoMin m sx w b a d) := of_place _ _ _ rfl rfl (by decide)
theorem amoMax (m sx w b a d : Nat) : Statement (.amoMax m sx w b a d) := of_place _ _ _ rfl rfl (by decide)
theorem amoMinn (m sx w b a d : Nat) : Statement (.amoMinn m sx w b a d) := of_place _ _ _ rfl rfl (by decide)
theorem amoMaxn (m sx w b a d : Nat) : Statement (.amoMaxn m sx w b a d) := of_place _ _ _ rfl rfl (by decide)
theorem amoSwap (m sx w b a d : Nat) : Statement (.amoSwap m sx w b a d) := of_place _ _ _ rfl rfl (by decide)
theorem amoCas (m sx w b a d : Nat) : Statement (.amoCas m sx w b a d) := of_place _ _ _ rfl rfl (by decide)
theorem wait (c w b a d : Nat) : Statement (.wait c w b a d) := of_place _ _ _ rfl rfl (by decide)
theorem fence (sx k : Nat) : Statement (.fence sx k) := of_place _ _ _ rfl rfl (by decide)
theorem pref (l a : Nat) : Statement (.pref l a) := of_place _ _ _ rfl rfl (by decide)
theorem cln (a : Nat) : Statement (.cln a) := of_place _ _ _ rfl rfl (by decide)
theorem inv (a : Nat) : Statement (.inv a) := of_place _ _ _ rfl rfl (by decide)
theorem cpSend (r p f e a d : Nat) : Statement (.cpSend r p f e a d) := of_place _ _ _ rfl rfl (by decide)
theorem cpPut (r p f e a d : Nat) : Statement (.cpPut r p f e a d) := of_place _ _ _ rfl rfl (by decide)
theorem cpRl (r p f e a d : Nat) : Statement (.cpRl r p f e a d) := of_place _ _ _ rfl rfl (by decide)
theorem cpHalo (r p f e a d : Nat) : Statement (.cpHalo r p f e a d) := of_place _ _ _ rfl rfl (by decide)
theorem mxCfg (e : Nat) : Statement (.mxCfg e) := of_place _ _ _ rfl rfl (by decide)
theorem mxMm (f e a d : Nat) : Statement (.mxMm f e a d) := of_place _ _ _ rfl rfl (by decide)
theorem mcPost (n f e a d : Nat) : Statement (.mcPost n f e a d) := of_place _ _ _ rfl rfl (by decide)
theorem jobFence (q : Nat) : Statement (.jobFence q) := of_place _ _ _ rfl rfl (by decide)
theorem mclTake (a d : Nat) : Statement (.mclTake a d) := of_place _ _ _ rfl rfl (by decide)
theorem mclRead (sx a d : Nat) : Statement (.mclRead sx a d) := of_place _ _ _ rfl rfl (by decide)
theorem mclPush (r e a : Nat) : Statement (.mclPush r e a) := of_place _ _ _ rfl rfl (by decide)
theorem wsSwOut (a d : Nat) : Statement (.wsSwOut a d) := of_place _ _ _ rfl rfl (by decide)
theorem wsSwIn (a d : Nat) : Statement (.wsSwIn a d) := of_place _ _ _ rfl rfl (by decide)
theorem eret (a : Nat) : Statement (.eret a) := of_place _ _ _ rfl rfl (by decide)
theorem eretKill (a : Nat) : Statement (.eretKill a) := of_place _ _ _ rfl rfl (by decide)
theorem sysc (n : Nat) : Statement (.sysc n) := of_place _ _ _ rfl rfl (by decide)
theorem trap (n a : Nat) : Statement (.trap n a) := of_place _ _ _ rfl rfl (by decide)
theorem tlbInv (m a d : Nat) : Statement (.tlbInv m a d) := of_place _ _ _ rfl rfl (by decide)
theorem fqTake (a d : Nat) : Statement (.fqTake a d) := of_place _ _ _ rfl rfl (by decide)
theorem fqTakeNb (a d : Nat) : Statement (.fqTakeNb a d) := of_place _ _ _ rfl rfl (by decide)
theorem fqDone (n a : Nat) : Statement (.fqDone n a) := of_place _ _ _ rfl rfl (by decide)
theorem wipeSec (a d : Nat) : Statement (.wipeSec a d) := of_place _ _ _ rfl rfl (by decide)
theorem ret : Statement (.ret) := of_place _ _ _ rfl rfl (by decide)
theorem nop : Statement (.nop) := of_place _ _ _ rfl rfl (by decide)
theorem nop16 : Statement (.nop16) := of_place _ _ _ rfl rfl (by decide)
theorem halt : Statement (.halt) := of_place _ _ _ rfl rfl (by decide)
theorem halt16 : Statement (.halt16) := of_place _ _ _ rfl rfl (by decide)
theorem pause : Statement (.pause) := of_place _ _ _ rfl rfl (by decide)
theorem pause16 : Statement (.pause16) := of_place _ _ _ rfl rfl (by decide)
theorem yield : Statement (.yield) := of_place _ _ _ rfl rfl (by decide)
theorem yield16 : Statement (.yield16) := of_place _ _ _ rfl rfl (by decide)
theorem gangEnd : Statement (.gangEnd) := of_place _ _ _ rfl rfl (by decide)
theorem cantAll : Statement (.cantAll) := of_place _ _ _ rfl rfl (by decide)
theorem rgEnd : Statement (.rgEnd) := of_place _ _ _ rfl rfl (by decide)
theorem invAll : Statement (.invAll) := of_place _ _ _ rfl rfl (by decide)
theorem mclDone : Statement (.mclDone) := of_place _ _ _ rfl rfl (by decide)
theorem idle : Statement (.idle) := of_place _ _ _ rfl rfl (by decide)
theorem pendingTrap : Statement .pendingTrap := of_none rfl
theorem writeBufferRetire : Statement .writeBufferRetire := of_none rfl
theorem roundSample : Statement .roundSample := of_none rfl
theorem roundResult : Statement .roundResult := of_none rfl
theorem instantBoundary : Statement .instantBoundary := of_none rfl
theorem instantOpen : Statement .instantOpen := of_none rfl
theorem instantLimitExpiry : Statement .instantLimitExpiry := of_none rfl
theorem uncorrectableError : Statement .uncorrectableError := of_none rfl
theorem recordHeld : Statement .recordHeld := of_none rfl
theorem distributorSelect : Statement .distributorSelect := of_none rfl
theorem recordBind : Statement .recordBind := of_none rfl
theorem coLaunchPlacement : Statement .coLaunchPlacement := of_none rfl
theorem watchEntryResume : Statement .watchEntryResume := of_none rfl
theorem gangFormed : Statement .gangFormed := of_none rfl
theorem barrierApply : Statement .barrierApply := of_none rfl
theorem barrierRelease : Statement .barrierRelease := of_none rfl
theorem queueWordLand : Statement .queueWordLand := of_none rfl
theorem qPutRetry : Statement .qPutRetry := of_none rfl
theorem ctrReadReturn : Statement .ctrReadReturn := of_none rfl
theorem ctrWaitWake : Statement .ctrWaitWake := of_none rfl
theorem slotFreeAfterDrain : Statement .slotFreeAfterDrain := of_none rfl
theorem idleWake : Statement .idleWake := of_none rfl
theorem depositApply : Statement .depositApply := of_none rfl
theorem globalLoadArrival : Statement .globalLoadArrival := of_none rfl
theorem l1Fill : Statement .l1Fill := of_none rfl
theorem prefFill : Statement .prefFill := of_none rfl
theorem storeAck : Statement .storeAck := of_none rfl
theorem tagRoomResume : Statement .tagRoomResume := of_none rfl
theorem loadAfterStoreAck : Statement .loadAfterStoreAck := of_none rfl
theorem soAccessStart : Statement .soAccessStart := of_none rfl
theorem fenceReleaseDone : Statement .fenceReleaseDone := of_none rfl
theorem waitWakeOnWrite : Statement .waitWakeOnWrite := of_none rfl
theorem waitTimeout : Statement .waitTimeout := of_none rfl
theorem mshrReissue : Statement .mshrReissue := of_none rfl
theorem walkStart : Statement .walkStart := of_none rfl
theorem tlbWalkFill : Statement .tlbWalkFill := of_none rfl
theorem migRewalk : Statement .migRewalk := of_none rfl
theorem dirtyReread : Statement .dirtyReread := of_none rfl
theorem tlbInvDone : Statement .tlbInvDone := of_none rfl
theorem wsSwDone : Statement .wsSwDone := of_none rfl
theorem jobEntryTake : Statement .jobEntryTake := of_none rfl
theorem copySectorTurn : Statement .copySectorTurn := of_none rfl
theorem copyDepositLand : Statement .copyDepositLand := of_none rfl
theorem copyFaultPost : Statement .copyFaultPost := of_none rfl
theorem jobCompletion : Statement .jobCompletion := of_none rfl
theorem gatherRequestArrive : Statement .gatherRequestArrive := of_none rfl
theorem gatherReadDone : Statement .gatherReadDone := of_none rfl
theorem pinGranted : Statement .pinGranted := of_none rfl
theorem tileFetch : Statement .tileFetch := of_none rfl
theorem tileStart : Statement .tileStart := of_none rfl
theorem tileDone : Statement .tileDone := of_none rfl
theorem baristaRingEnter : Statement .baristaRingEnter := of_none rfl
theorem mclReadDone : Statement .mclReadDone := of_none rfl
theorem baristaPushArrive : Statement .baristaPushArrive := of_none rfl
theorem baristaRequestTimeout : Statement .baristaRequestTimeout := of_none rfl
theorem baristaStart : Statement .baristaStart := of_none rfl
theorem faultPost : Statement .faultPost := of_none rfl
theorem faultEntryResume : Statement .faultEntryResume := of_none rfl
theorem faultRequesterRelease : Statement .faultRequesterRelease := of_none rfl
theorem copyReplay : Statement .copyReplay := of_none rfl
theorem tokenRequestReceive : Statement .tokenRequestReceive := of_none rfl
theorem tokenMessageReceive : Statement .tokenMessageReceive := of_none rfl
theorem requestReissue : Statement .requestReissue := of_none rfl
theorem moduleRoundSample : Statement .moduleRoundSample := of_none rfl
theorem moduleRoundResult : Statement .moduleRoundResult := of_none rfl
theorem atomicRequestReceive : Statement .atomicRequestReceive := of_none rfl
theorem nackReceive : Statement .nackReceive := of_none rfl
theorem move : Statement .move := of_none rfl
theorem releaseMovedMarks : Statement .releaseMovedMarks := of_none rfl
theorem moveLineStep : Statement .moveLineStep := of_none rfl
theorem launchQueueTail : Statement .launchQueueTail := of_none rfl
theorem launchQueueTake : Statement .launchQueueTake := of_none rfl
theorem launch : Statement .launch := of_none rfl
theorem release : Statement .release := of_none rfl
theorem evict : Statement .evict := of_none rfl
theorem evictSave : Statement .evictSave := of_none rfl
theorem restore : Statement .restore := of_none rfl
theorem inject : Statement .inject := of_none rfl
theorem dieWipeComplete : Statement .dieWipeComplete := of_none rfl
theorem hostTlbInvalidate : Statement .hostTlbInvalidate := of_none rfl
theorem hostTlbInvDone : Statement .hostTlbInvDone := of_none rfl
theorem hostDramWrite : Statement .hostDramWrite := of_none rfl
theorem hostDramRead : Statement .hostDramRead := of_none rfl
theorem hostPoolWrite : Statement .hostPoolWrite := of_none rfl
theorem hostPoolRead : Statement .hostPoolRead := of_none rfl
theorem hostBaristaWrite : Statement .hostBaristaWrite := of_none rfl
theorem registerWrite : Statement .registerWrite := of_none rfl
theorem peerLaunchWrite : Statement .peerLaunchWrite := of_none rfl
theorem haloWrite : Statement .haloWrite := of_none rfl
theorem qpDoorbell : Statement .qpDoorbell := of_none rfl
theorem cqDoorbell : Statement .cqDoorbell := of_none rfl
theorem setModuleNumber : Statement .setModuleNumber := of_none rfl
theorem writeAccessControl : Statement .writeAccessControl := of_none rfl
theorem setPowerLimit : Statement .setPowerLimit := of_none rfl
theorem setClock : Statement .setClock := of_none rfl
theorem clockChangeDone : Statement .clockChangeDone := of_none rfl
theorem readTelemetry : Statement .readTelemetry := of_none rfl
theorem getMeasurements : Statement .getMeasurements := of_none rfl
theorem firmwareUpdate : Statement .firmwareUpdate := of_none rfl
theorem lifecycleTransition : Statement .lifecycleTransition := of_none rfl
theorem coldReset : Statement .coldReset := of_none rfl
theorem warmReset : Statement .warmReset := of_none rfl
theorem wipeComplete : Statement .wipeComplete := of_none rfl
theorem powerEstimate : Statement .powerEstimate := of_none rfl
theorem unallocatedOpcode : Statement .unallocatedOpcode := of_none rfl
theorem emulMajor : Statement .emulMajor := of_none rfl
theorem fetchBeyondCodeImage : Statement .fetchBeyondCodeImage := of_none rfl
theorem linkTraining : Statement .linkTraining := of_none rfl
theorem linkUp : Statement .linkUp := of_none rfl

end EncodedLength

end Sys2Proof.Laws
end

