-- ==== Sys2Proof/Safety.lean ====
section
/-!
DEFINITION. Safety: what counts as a safe run: no step of it stops, and no domain is contained in it (18 R352); and the words in which
statements about instructions are made: what it is to complete, to trap, to block.
-/

namespace Sys2Proof.Machine

/-- No domain of the module stands contained: one that ended with a cause. -/
def State.noneContained (s : State) : Bool := s.domains.all fun q => !(q.2.ended && q.2.cause != 0)

/-- n steps from s all answer a next state in which no domain is contained. -/
def SafeRun : Nat → State → Prop
  | 0, s => s.noneContained = true
  | n + 1, s => s.noneContained = true ∧ ∃ t, step s = .next t ∧ SafeRun n t

/-- Core s.cur issues outside a gang (R175). -/
abbrev Solo (s : State) : Prop := (coreOf s s.cur).gangSize = 0

/-- The core that issues. -/
abbrev self (s : State) : Core := coreOf s s.cur

/-- A byte address outside spans of bytes, each an address and a count. -/
def Outside (a : Nat) (spans : List (Nat × Nat)) : Prop := ∀ r ∈ spans, a < r.1 ∨ r.1 + r.2 ≤ a

/-- A memory differs from another in spans of bytes alone. -/
def SameOutside (spans : List (Nat × Nat)) (m m' : Mem) : Prop := ∀ a, Outside a spans → Memory.get m' a = Memory.get m a

/-- The bytes of register n of a type: w0 has none, x0 has those of w1 (R25 to R27). -/
def spanW (c : Core) (n : Nat) : Nat × Nat := (wsBase c + 4 * n, if n = 0 then 0 else 4)
def spanX (c : Core) (n : Nat) : Nat × Nat := if n = 0 then (wsBase c + 4, 4) else (wsBase c + 8 * n, 8)
def spanR (c : Core) (type n : Nat) : Nat × Nat := if type = 0 then spanW c n else spanX c n
def spanV (c : Core) (n : Nat) : Nat × Nat := (wsBase c + 0x100 + 32 * n, 32)
def spanM (c : Core) (n : Nat) : Nat × Nat := (wsBase c + 0xA0 + 4 * n, if n = 0 then 0 else 4)
def spanE (c : Core) (n : Nat) : Nat × Nat := (wsBase c + 0x60 + 8 * n, 8)
def spanP (c : Core) (n : Nat) : Nat × Nat := (wsBase c + 0x40 + 4 * n, 4)
def spanFstat (c : Core) : Nat × Nat := (wsBase c + offFstat, 4)

/-- The PC behind an instruction of a length (R90). -/
def pcAfter (c : Core) (len : Nat) : Nat := (insPc c + len) % 2 ^ 32

/-- A core after an instruction that does to it only what x says, beside its cost, its turn and its PC: nothing else it holds changes but
the write buffer and the counts of bank stalls (R37 to R41), the prefix, and the cycle of its next issue. -/
def Advanced (x c' : Core) (pc : Nat) : Prop :=
  c' = { x with pfx := none, moved := true, slots := setNth {} x.slots (curSlot x) { slotAt x (curSlot x) with pc := pc }
                buf := c'.buf, bufClock := c'.bufClock, stall0 := c'.stall0, stall1 := c'.stall1, stall2 := c'.stall2
                busy := c'.busy, armed := c'.armed }

/-- Instruction i of core s.cur completes: exec answers a state that differs from s in that core and in the agenda alone, and the core is as
x with its PC at pc. -/
def CompletesAs (i : Instr) (s : State) (x : Core) (pc : Nat) : Prop :=
  ∃ t, exec i s = .next t ∧ t = { s with cores := t.cores, agenda := t.agenda } ∧ (∀ k, k ≠ s.cur → coreOf t k = coreOf s k) ∧
    Advanced x (coreOf t s.cur) pc

/-- Instruction i of core s.cur completes with local memory m, in which every byte outside the spans is as before. -/
def Completes (i : Instr) (s : State) (m : Mem) (spans : List (Nat × Nat)) (pc : Nat) : Prop :=
  SameOutside spans (self s).lm m ∧ CompletesAs i s { self s with lm := m } pc

/-- Instruction i of core s.cur completes so and, as an access to local memory, orders the loads behind it (R272, log 61). -/
def Accesses (i : Instr) (s : State) (m : Mem) (spans : List (Nat × Nat)) (pc : Nat) : Prop :=
  SameOutside spans (self s).lm m ∧ CompletesAs i s (l1Order { self s with lm := m }) pc

/-- Instruction i of core s.cur completes so and, as what it returns comes from other cores (R271), the core has heard of them (log 61). -/
def Receives (i : Instr) (s : State) (m : Mem) (spans : List (Nat × Nat)) (pc : Nat) : Prop :=
  SameOutside spans (self s).lm m ∧ CompletesAs i s (l1Heard { self s with lm := m }) pc

/-- Instruction i of core s.cur takes trap t, and does nothing else (R335). -/
def Traps (i : Instr) (s : State) (t : Trap) : Prop := exec i s = .next (trapNow t s)

end Sys2Proof.Machine
end

