-- ==== Sys2Proof/Certificates/Slice0/Obligations.lean ====
section
/-!
DEFINITION. Obligations: the statements for the provers, and the tables of instructions they speak of. What an instruction computes is written
out here from the tables of the manual, beside the meanings of the model.
-/

open Sys2Proof Sys2Proof.Machine

namespace Sys2Proof.Claims

/-! Tables of instructions with what each computes, of the width n of its operands and their values (Tables 4.1 and 4.3). -/

/-- Register forms (R91, R92). -/
abbrev AluRow := (Nat → Nat → Nat → Nat → Instr) × (Nat → Nat → Nat → Nat)
def arithRows : List AluRow :=
  [(.add, fun n a b => (a + b) % 2 ^ n), (.sub, fun n a b => pat n ((a : Int) - b)), (.mul, fun n a b => a * b % 2 ^ n),
   (.mulh, fun n a b => pat n (sgn n a * sgn n b / (2 : Int) ^ n)), (.mulhn, fun n a b => a * b / 2 ^ n),
   (.div, fun n a b => if b = 0 then 2 ^ n - 1 else pat n (Int.tdiv (sgn n a) (sgn n b))),
   (.divn, fun n a b => if b = 0 then 2 ^ n - 1 else a / b),
   (.rem, fun n a b => if b = 0 then a else pat n (Int.tmod (sgn n a) (sgn n b))), (.remn, fun _ a b => if b = 0 then a else a % b)]
def logicRows : List AluRow :=
  [(.and, fun _ a b => Nat.land a b), (.or, fun _ a b => Nat.lor a b), (.xor, fun _ a b => Nat.xor a b),
   (.andn, fun n a b => Nat.land a (2 ^ n - 1 - b)), (.orn, fun n a b => Nat.lor a (2 ^ n - 1 - b)),
   (.shl, fun n a b => a * 2 ^ (b % n) % 2 ^ n), (.shr, fun n a b => a / 2 ^ (b % n)),
   (.sra, fun n a b => pat n (sgn n a / (2 : Int) ^ (b % n))), (.rotl, fun n a b => a * 2 ^ (b % n) % 2 ^ n + a / 2 ^ (n - b % n))]
def compareRows : List AluRow :=
  [(.min, fun n a b => if sgn n a ≤ sgn n b then a else b), (.max, fun n a b => if sgn n b ≤ sgn n a then a else b),
   (.minn, fun _ a b => if a ≤ b then a else b), (.maxn, fun _ a b => if b ≤ a then a else b),
   (.slt, fun n a b => if sgn n a < sgn n b then 1 else 0), (.sltn, fun _ a b => if a < b then 1 else 0)]
def aluRows : List AluRow := arithRows ++ logicRows ++ compareRows

/-- The constant forms, in the order of the register forms (R97). -/
def conBuilders : List (Nat → Nat → Nat → Nat → Instr) :=
  [.addK, .subK, .mulK, .mulhK, .mulhnK, .divK, .divnK, .remK, .remnK, .andK, .orK, .xorK, .andnK, .ornK, .shlK, .shrK, .sraK, .rotlK, .minK,
   .maxK, .minnK, .maxnK, .sltK, .sltnK]
def conRows : List AluRow := conBuilders.zip (aluRows.map Prod.snd)

/-- The 16-bit forms, of 32 bits, from wd and wa (R94). -/
abbrev ShortRow := (Nat → Nat → Instr) × (Nat → Nat → Nat)
def shortLogicRows : List ShortRow :=
  [(.add16, fun x y => (x + y) % 2 ^ 32), (.sub16, fun x y => pat 32 ((x : Int) - y)), (.and16, Nat.land), (.or16, Nat.lor), (.xor16, Nat.xor),
   (.shl16, fun x y => x * 2 ^ (y % 32) % 2 ^ 32), (.shr16, fun x y => x / 2 ^ (y % 32)),
   (.sra16, fun x y => pat 32 (sgn 32 x / (2 : Int) ^ (y % 32))), (.mov16, fun _ y => y)]
def shortCompareRows : List ShortRow :=
  [(.min16, fun x y => if sgn 32 x ≤ sgn 32 y then x else y), (.max16, fun x y => if sgn 32 y ≤ sgn 32 x then x else y),
   (.minn16, fun x y => if x ≤ y then x else y), (.maxn16, fun x y => if y ≤ x then x else y), (.mul16, fun x y => x * y % 2 ^ 32),
   (.slt16, fun x y => if sgn 32 x < sgn 32 y then 1 else 0), (.sltn16, fun x y => if x < y then 1 else 0)]
def shortRows : List ShortRow := shortLogicRows ++ shortCompareRows

/-- The one-operand forms (R91, R92): leading zeros, trailing zeros, set bits, bytes reversed. -/
def unaryRows : List ((Nat → Nat → Nat → Instr) × (Nat → Nat → Nat)) :=
  [(.clz, fun n a => if a = 0 then n else n - 1 - Nat.log2 a), (.ctz, fun n a => ((List.range n).find? fun i => a.testBit i).getD n),
   (.popc, fun n a => ((List.range n).filter fun i => a.testBit i).length),
   (.bswap, fun n a => (List.range (n / 8)).foldl (fun v i => v * 256 + a / 256 ^ i % 256) 0)]

/-- The pair fields of an instruction of type 1 name pairs x0 to x7 (R69). -/
abbrev PairsOk (t : Nat) (fields : List Nat) : Prop := t ≤ 1 ∧ (t = 1 → ∀ r ∈ fields, r < 8)

/-- Where a load or a store of n bytes at a local address is permitted (Table 1.1; a barista: R331): it is aligned, and no word that is
protected is stored to (R30). -/
abbrev Reachable (c : Core) (ea n : Nat) : Prop := ea % n = 0 ∧ (if c.bar then ea < 0x10000 else ea < 0x6000 ∧ ea < c.lmscr.toNat)
abbrev Unprotected (c : Core) (ea n : Nat) : Prop :=
  ∀ i, i < (if c.bar then 1 else slotCount c) → ∀ o ∈ [0x50, 0x54, 0x304, 0x328], ea + n ≤ slotBase c i + o ∨ slotBase c i + o + 4 ≤ ea
abbrev Storable (c : Core) (ea n : Nat) : Prop := Reachable c ea n ∧ (c.bar = false → 0x400 ≤ ea) ∧ Unprotected c ea n

/-- The address of a format M access of n bytes (R100). -/
def memAddr (c : Core) (o n a : Nat) : Nat := pat 32 ((rdW c a : Int) + sgn 14 o * n)

/-- A loaded value as its register receives it (Table 4.8): the sub-word kinds with sign 1 are sign-extended to 32 bits. -/
def loaded (sx n v : Nat) : Nat := if sx = 1 then pat 32 (sgn (8 * n) v) else v

/-- The kinds of load and store of size code z and sign sx that exist (Table 4.8), with the register field of a pair. -/
abbrev LoadKind (sx z d : Nat) : Prop := (z ≤ 1 ∧ sx ≤ 1) ∨ (z = 2 ∧ sx = 0) ∨ (z = 3 ∧ sx = 0 ∧ d < 8)
abbrev StoreKind (sx z d : Nat) : Prop := sx = 0 ∧ (z ≤ 2 ∨ (z = 3 ∧ d < 8))

/-- The conditional branches on two registers (R105). -/
def branchRows : List ((Nat → Nat → Nat → Instr) × (Nat → Nat → Bool)) :=
  [(.beq, fun a b => a == b), (.bne, fun a b => a != b), (.blt, fun a b => decide (sgn 32 a < sgn 32 b)),
   (.bge, fun a b => decide (sgn 32 b ≤ sgn 32 a)), (.bltn, fun a b => decide (a < b)), (.bgen, fun a b => decide (b ≤ a))]

/-- The branches on one register, with their lengths and offsets' widths (R105, R106): taken on zero or not. -/
def zeroRows : List ((Nat → Nat → Instr) × Bool × Nat × Nat) :=
  [(.bz, true, 4, 14), (.bnz, false, 4, 14), (.bz16, true, 2, 7), (.bnz16, false, 2, 7)]

/-- A target at a signed count of halfwords from the instruction (R70). -/
def target (c : Core) (bits o : Nat) : Nat := pat 32 ((insPc c : Int) + 2 * sgn bits o)

/-- The special registers that a ctl.get may name, with their widths (Table 3.18). -/
def srNames : List (Nat × Nat) :=
  [(0, 0x00), (0, 0x01), (0, 0x02), (0, 0x03), (0, 0x04), (0, 0x05), (0, 0x06), (1, 0x07), (1, 0x08), (1, 0x09), (0, 0x10), (0, 0x11), (0, 0x12),
   (0, 0x13), (0, 0x14), (0, 0x15), (0, 0x16), (1, 0x18), (1, 0x19), (1, 0x1A), (1, 0x1B), (0, 0x20), (0, 0x21), (0, 0x28), (0, 0x29), (0, 0x2A),
   (0, 0x2B), (0, 0x30), (0, 0x31), (0, 0x38), (0, 0x39), (0, 0x3A), (0, 0x3B), (0, 0x3C)]

/-- SP as a signed number, SPFLOOR, SPCEIL and OVP of the current workspace (Table 1.5, R32). -/
def sp (c : Core) : Int := sgn 32 (Memory.read c.lm (wsBase c + 0x300) 4)
def spFloor (c : Core) : Nat := Memory.read c.lm (wsBase c + 0x304) 4
def spCeil (c : Core) : Nat := Memory.read c.lm (wsBase c + 0x328) 4
def ovp (c : Core) : Nat := Memory.read c.lm (wsBase c + 0x308) 8 / 8 * 8
def moved (t : Nat) : Nat := if t = 0 then 4 else 8

/-- What ctl.get of each special register reads on a compute core (Table 4.14, 14 Tables 14.5 and 14.6). -/
def srHolds (s : State) (n : Nat) : Nat :=
  let c := self s
  let x := slotAt c (curSlot c)
  if n = 0x00 then Memory.read c.lm 960 4 else if n = 0x01 then Memory.read c.lm 964 4 else if n = 0x02 then Memory.read c.lm 968 4
  else if n = 0x03 then Memory.read c.lm 972 4 else if n = 0x04 then Memory.read c.lm 976 4 else if n = 0x05 then Memory.read c.lm 980 4
  else if n = 0x06 then x.task else if n = 0x07 then x.tile else if n = 0x08 then (theDom s s.cur).instant % 2 ^ 64
  else if n = 0x09 then s.cycle % 2 ^ 64 else if n = 0x10 then c.wsp.toNat else if n = 0x11 then c.tvec.toNat
  else if n = 0x12 then Memory.read c.lm (wsBase c + 0x320) 4 % 32 else if n = 0x13 then Memory.read c.lm (wsBase c + 0x324) 4 % 8
  else if n = 0x14 then c.lmspill.toNat else if n = 0x15 then c.lmscr.toNat else if n = 0x16 then c.lml1.toNat
  else if n = 0x18 then emset c (curSlot c) % 2 ^ 64 else if n = 0x19 then emset c (curSlot c) / 2 ^ 64
  else if n = 0x1A then x.may.toNat % 2 ^ 64 else if n = 0x1B then x.may.toNat / 2 ^ 64 else if n = 0x20 then c.wseq.toNat
  else if n = 0x21 then c.wack.toNat else if n = 0x28 then 0x00014016 else if n = 0x29 then 1
  else if n = 0x30 then
    (rodOf s (rodOfCore s.cur)).nTiles.toNat * 2 ^ 16 + (nth [] c.jobs 2).length * 2 ^ 12 + (nth [] c.jobs 0).length * 2 ^ 8 +
      (nth [] c.jobs 1).length * 2 ^ 4 + b2n s.alarm
  else if n = 0x31 then (rodOf s (rodOfCore s.cur)).weight.toNat else if n = 0x38 then c.stall0.toNat else if n = 0x39 then c.stall1.toNat
  else if n = 0x3A then c.stall2.toNat else if n = 0x3B then c.pinBypass.toNat else if n = 0x3C then c.spillRedir.toNat else 0

/-- Instruction i of core s.cur completes as CompletesAs says, one free value taken by the way (log 1). -/
def SetsAs (i : Instr) (s : State) (x : Core) (pc : Nat) : Prop :=
  ∃ t, exec i s = .next t ∧ t = { s with cores := t.cores, agenda := t.agenda, free := s.free + 1 } ∧ (∀ k, k ≠ s.cur → coreOf t k = coreOf s k) ∧
    Advanced x (coreOf t s.cur) pc

/-- The 1 KiB address of a boundary or workspace register value: bits 14 to 10 (Tables 1.3 and 1.6). -/
def kib (v : Nat) : Nat := v / 2 ^ 10 % 2 ^ 5 * 0x400

/-- What R22 asks of a division, of an LMSPILL above the carve-outs of tasks, and of a core of a co-launched set that is bound. -/
abbrev Division (spill scr l1 : Nat) : Prop := 0x800 ≤ spill ∧ spill ≤ scr ∧ scr ≤ l1 ∧ (l1 = 0x4000 ∨ l1 = 0x5000 ∨ l1 = 0x6000)
abbrev AboveTasks (c : Core) (v : Nat) : Prop := ∀ i, i < 8 → (slotAt c i).live = true → slotBase c i + slotSize c ≤ v
abbrev InBoundSet (s : State) (k : Nat) : Prop :=
  ∃ q ∈ s.cores, ∃ x ∈ q.2.slots, x.live = true ∧ x.setSize ≠ 0 ∧ x.setBase ≤ k ∧ k < x.setBase + x.setSize

/-- A value of TVEC that R334 accepts: with EN = 1, its BASE is a slot base that holds no task. -/
abbrev TvecOk (c : Core) (v : Nat) : Prop :=
  v / 2 ^ 15 % 2 = 1 → isSlotBase c (kib v) = true ∧ (slotAt c (slotOf c (kib v))).live = false

/-- ctl.set takes trap t and is not performed; it has taken its free value by then (log 1). -/
def SetTraps (i : Instr) (s : State) (t : Trap) : Prop := exec i s = .next (trapNow t { s with free := s.free + 1 })

/-- Slot i of core k has its task blocked in an instruction, with a WAIT code, its PC at the instruction (R194). -/
def BlockedAt (t : State) (k i : Nat) (ins : Instr) (wait pc : Nat) : Prop :=
  stState (coreOf t k) i = 1 ∧ stWait (coreOf t k) i = wait ∧ (slotAt (coreOf t k) i).blockedIn = some ins ∧ (slotAt (coreOf t k) i).pc = pc

/-- The current task of core s.cur blocks in instruction i with a WAIT code. -/
def BlocksIn (i : Instr) (s t : State) (wait : Nat) : Prop :=
  exec i s = .next t ∧ BlockedAt t s.cur (curSlot (self s)) i wait ((slotAt (self s) (curSlot (self s))).pc % 2 ^ 32)

/-- A global access that no check of its issue cycle refuses (R240, R248): aligned, its address one of 57 bits, an entry of the rod's micro-TLB, if one
covers the address, permitting it. Classes: load 0, store 1, atomic 2. -/
abbrev Permitted (s : State) (va n cls : Nat) : Prop :=
  va % n = 0 ∧ va < 2 ^ 57 ∧ ∀ e, findTlb (rodOf s (rodOfCore s.cur)).tlb va = some e → deniedEntry e cls (isPriv (self s)) = none

/-- An access of core k as an instruction issued it stands among those in flight. -/
def InFlight (t : State) (k : Nat) (kind : AccKind) (va n : Nat) (p : Acc → Prop) : Prop :=
  ∃ id y, Table.find t.accs id = some y ∧ y.core = k ∧ y.kind = kind ∧ y.va = va ∧ y.n = n ∧ p y

/-- Nothing but cores, translation buffers, accesses in flight and the agenda differ: no byte of global or host memory, no pool, no domain. -/
def OnlyIssues (s t : State) : Prop :=
  t = { s with cores := t.cores, rods := t.rods, accs := t.accs, agenda := t.agenda, nextId := t.nextId, free := t.free }

/-! Vector instructions (05). -/

/-- A prefix, if there is one, holds only fields that the instruction takes: mask, zero, round, the fourth operand (R76, R118). -/
abbrev PrefixTaken (c : Core) (m z r v : Bool) : Prop :=
  (m = false → pfxMask c = 0) ∧ (z = false → pfxZ c = 0) ∧ (r = false → pfxRound c = 0) ∧ (v = false → pfxVc c = 0) ∧ pfxRound c < 6

/-- The row that the element rule of R118 gives, and the flags of its elements. -/
def ruled (c : Core) (w d : Nat) (f : Nat → Nat × Nat) : Nat × Nat := elements w (256 / w) (activeMask c) (pfxZ c) (rdV c d) f

/-- Instruction i completes with vector d written by the element rule, w bits an element, and its flags set in FSTAT (R118, R119). -/
def Elementwise (i : Instr) (s : State) (w d : Nat) (f : Nat → Nat × Nat) : Prop :=
  Completes i s (raise (wrV (self s) d (ruled (self s) w d f).1) (ruled (self s) w d f).2).lm [spanV (self s) d, spanFstat (self s)] (pcAfter (self s) 4)

/-- The same of a load from local memory, which orders the loads behind it (R272, log 61) and raises no flag. -/
def LoadsElements (i : Instr) (s : State) (w d : Nat) (f : Nat → Nat) : Prop :=
  Accesses i s (wrV (self s) d (ruled (self s) w d fun j => (f j, 0)).1).lm [spanV (self s) d] (pcAfter (self s) 4)

/-- Element i of vector n, of type t. -/
def el (s : State) (t n i : Nat) : Nat := lane (typeWidth t) (rdV (self s) n) i

/-- An integer type: its value range, wrapped or saturated. -/
def wrapOrSat (t : Nat) (sat : Bool) (v : Int) : Nat :=
  pat (typeWidth t) (if sat then max (intMin t) (min (intMax t) v) else v)

/-- Two-operand arithmetic (Table 5.1): saturating variant, rounding, the operation on the elements of a type. Integers here; floating point is
that of section 02. -/
def vecRows : List ((Nat → Nat → Nat → Nat → Nat → Instr) × Bool × Bool × (Nat → RMode → Bool → Nat → Nat → Nat × Nat)) :=
  [(.vadd, true, true, fun t m sat x y =>
      if t ≤ 2 then roundF (fmtOf t) m (addNum m (unpack (fmtOf t) x) (unpack (fmtOf t) y)) else (wrapOrSat t sat (intVal t x + intVal t y), 0)),
   (.vsub, true, true, fun t m sat x y =>
      if t ≤ 2 then roundF (fmtOf t) m (addNum m (unpack (fmtOf t) x) (unpack (fmtOf t) y).negate)
      else (wrapOrSat t sat (intVal t x - intVal t y), 0)),
   (fun _ => .vmul, false, true, fun t m _ x y =>
      if t ≤ 2 then roundF (fmtOf t) m (mulNum (unpack (fmtOf t) x) (unpack (fmtOf t) y)) else (wrapOrSat t false (intVal t x * intVal t y), 0)),
   (fun _ => .vmin, false, false, fun t _ _ x y =>
      if t ≤ 2 then minF (fmtOf t) x y else (if intVal t x ≤ intVal t y then x else y, 0)),
   (fun _ => .vmax, false, false, fun t _ _ x y =>
      if t ≤ 2 then maxF (fmtOf t) x y else (if intVal t y ≤ intVal t x then x else y, 0))]

/-- The stream forms of the same (Table 5.13). -/
def streamRows : List ((Nat → Nat → Nat → Nat → Nat → Instr) × Bool × (Nat → RMode → Bool → Nat → Nat → Nat × Nat)) :=
  ([Instr.sopAdd, .sopSub, fun _ => .sopMul, fun _ => .sopMin, fun _ => .sopMax].zip vecRows).map fun q => (q.1, q.2.2.1, q.2.2.2.2)

/-- Fused forms: the signs of product and addend (Table 5.1). -/
def fusedRows : List ((Nat → Nat → Nat → Nat → Instr) × Bool × Bool) := [(.vfma, false, false), (.vfms, false, true), (.vfnma, true, false)]
def fused (t : Nat) (m : RMode) (np nc : Bool) (x y z : Nat) : Nat × Nat :=
  if t ≤ 2 then
    roundF (fmtOf t) m (fmaNum m (if np then (unpack (fmtOf t) x).negate else unpack (fmtOf t) x) (unpack (fmtOf t) y)
      (if nc then (unpack (fmtOf t) z).negate else unpack (fmtOf t) z))
  else (wrapOrSat t false ((if np then -(intVal t x * intVal t y) else intVal t x * intVal t y) + (if nc then -intVal t z else intVal t z)), 0)

/-- Bitwise instructions and shifts (Table 5.2), on elements of w bits. -/
def bitRows : List ((Nat → Nat → Nat → Nat → Instr) × (Nat → Nat → Nat → Nat)) :=
  [(.vand, fun _ => Nat.land), (.vor, fun _ => Nat.lor), (.vxor, fun _ => Nat.xor), (.vandn, fun w x y => Nat.land x (2 ^ w - 1 - y))]
def shiftRows : List ((Nat → Nat → Nat → Nat → Nat → Instr) × (Nat → Nat → Nat → Nat)) :=
  [(.vshl, fun w x n => x * 2 ^ (n % w) % 2 ^ w), (.vshr, fun w x n => x / 2 ^ (n % w)), (.vsra, fun w x n => pat w (sgn w x / (2 : Int) ^ (n % w)))]

/-- Operators of an expression on x, y and z, z on top of the stack (Table 5.10, R136): code, operands, result and flags. -/
def exprRows : List (Nat × Nat × (Nat → RMode → Nat → Nat → Nat → Nat × Nat)) :=
  let two := vecRows.map fun p => fun t m (_ y z : Nat) => p.2.2.2 t m false y z
  [(8, 3, fun t m x y z => fused t m false false x y z), (11, 1, fun t _ _ _ z => ((z + 2 ^ (typeWidth t - 1)) % 2 ^ typeWidth t, 0)),
   (12, 1, fun t _ _ _ z => (z % 2 ^ (typeWidth t - 1), 0)), (13, 1, fun t _ _ _ z => funcUnit 4 t z), (14, 1, fun t _ _ _ z => funcUnit 0 t z)] ++
    ([5, 6, 7, 9, 10].zip two).map fun q => (q.1, 2, q.2)

/-- The functions of the function unit, in the order of their codes (Table 3.16). -/
def functionRows : List (Nat → Nat → Nat → Instr) :=
  [.vfnExp2, .vfnExp, .vfnLog2, .vfnLog, .vfnRcp, .vfnRsqrt, .vfnSqrt, .vfnSin, .vfnCos, .vfnTanh, .vfnSigmoid, .vfnErf]

/-- The pointer of a stream after an access: its address moved by its stride (R29). -/
def stepped (c : Core) (p : Nat) : Nat :=
  let n := if c.bar then 16 else 15
  p / 2 ^ n * 2 ^ n + pat n ((p % 2 ^ n : Nat) + sgn 16 (p / 2 ^ 16 % 2 ^ 16))
def streamAddr (c : Core) (n : Nat) : Nat := rdP c n % 2 ^ (if c.bar then 16 else 15)

/-- Pointers used in order: the address each holds and the row at it when it is used, and the core with all of them moved (R137). -/
def pointers (c : Core) : List Nat → List (Nat × Nat) × Core
  | [] => ([], c)
  | n :: ns =>
    let q := pointers (wrP c n (stepped c (rdP c n))) ns
    ((streamAddr c n, Memory.read c.lm (streamAddr c n) 32) :: q.1, q.2)

/-- A stream instruction reads rows at the pointers of a list, then writes the row at pointer d, of elements of w bits (R137). -/
def Streams (i : Instr) (s : State) (reads : List Nat) (d w : Nat) (f : (Nat → Nat) → Nat → Nat × Nat) : Prop :=
  let c := self s
  let q := pointers c (reads ++ [d])
  let out := (q.1.getD reads.length (0, 0)).1
  let r := elements w (256 / w) (2 ^ 32 - 1) 0 0 (f fun j => (q.1.getD j (0, 0)).2)
  (∀ n ∈ reads ++ [d], n < 4) → (∀ j, j < reads.length → Reachable c (q.1.getD j (0, 0)).1 32) → Storable c out 32 →
    Accesses i s (raise { c with lm := Memory.write q.2.lm out 32 r.1 } r.2).lm
      ((out, 32) :: spanFstat c :: (reads ++ [d]).map (spanP c)) (pcAfter c 4)

/-- The operation of a reduction on two operands (R127), and the tree over 2^n elements from the one numbered 2^n × i: neighbours combined, an
inactive element taking no part. -/
def reducer (v t : Nat) (m : RMode) (x y : Nat) : Nat × Nat :=
  let t' := if t ≤ 2 then t else if t ≤ 7 then 5 else 8
  if v = 0 then addE t' m false x y else if v = 1 then minE t' x y else maxE t' x y
def halves (op : Nat → Nat → Nat × Nat) (leaf : Nat → Option Nat) : Nat → Nat → Option Nat × Nat
  | 0, i => (leaf i, 0)
  | n + 1, i =>
    let a := halves op leaf n (2 * i)
    let b := halves op leaf n (2 * i + 1)
    match a.1, b.1 with
    | some x, some y => (some (op x y).1, Nat.lor (Nat.lor a.2 b.2) (op x y).2)
    | some x, none => (some x, Nat.lor a.2 b.2)
    | none, y => (y, Nat.lor a.2 b.2)

/-! Curve keys (06). -/

/-- A key operand: its unused bits are taken as zero (R143), and a box from two pairs (R145). -/
def key (s : State) (n r : Nat) : Nat := rdX (self s) r % 2 ^ (n * (64 / n))
def box (s : State) (n r : Nat) : Box := (key s n r, key s n (r + 1))

/-- Sum or difference of two keys: axis by axis, modulo the axis, with the mask of the axes that leave their range (R150). -/
def IsKeySum (n : Nat) (sub : Bool) (x y z mask : Nat) : Prop :=
  let m := 2 ^ (64 / n)
  z < 2 ^ (n * (64 / n)) ∧ mask < 2 ^ n ∧
  ∀ i, i < n → (ax n z i : Int) = (if sub then (ax n x i : Int) - ax n y i else (ax n x i : Int) + ax n y i) % m ∧
    (mask.testBit i = true ↔ if sub then ax n x i < ax n y i else m ≤ ax n x i + ax n y i)

/-- The runs of a split written from an address, each its first and last key (R156). -/
def writeRuns (m : Mem) (at_ : Nat) : List (Nat × Nat) → Mem
  | [] => m
  | r :: rs => writeRuns (Memory.write (Memory.write m at_ 8 r.1) (at_ + 8) 8 r.2) (at_ + 16) rs

/-- A key of the set S of R155: a key of the box that is at least k. -/
def InRuns (n : Nat) (b : Box) (k x : Nat) : Prop :=
  k ≤ x ∧ x < 2 ^ (n * (64 / n)) ∧ ∀ i, i < n → ax n b.1 i ≤ ax n x i ∧ ax n x i ≤ ax n b.2 i

/-- The first runs of S, in increasing order, and the first key of the run behind them (R155): a run is a maximal set of consecutive numbers within S. -/
def RunsOf (n : Nat) (b : Box) (k most : Nat) (rs : List (Nat × Nat)) (more : Option Nat) : Prop :=
  rs.length ≤ most ∧ (more.isSome = true → rs.length = most) ∧
  (∀ r ∈ rs, r.1 ≤ r.2 ∧ (∀ y, r.1 ≤ y → y ≤ r.2 → InRuns n b k y) ∧ ¬ InRuns n b k (r.2 + 1) ∧ (r.1 = 0 ∨ ¬ InRuns n b k (r.1 - 1))) ∧
  rs.Pairwise (fun r q => r.2 < q.1) ∧
  (∀ x, more = some x → InRuns n b k x ∧ (x = 0 ∨ ¬ InRuns n b k (x - 1)) ∧ ∀ r ∈ rs, r.2 < x) ∧
  (∀ y, InRuns n b k y → (∃ r ∈ rs, r.1 ≤ y ∧ y ≤ r.2) ∨ ∃ x, more = some x ∧ x ≤ y)

/-! Tasks and synchronization (08, 09). -/

/-- Address of the status word of slot i (Table 1.5), and the slot and the PC of the current task. -/
def statusAt (c : Core) (i : Nat) : Nat := slotBase c i + 0x50
def here (s : State) : Nat := curSlot (self s)
def pcHere (s : State) : Nat := (slotAt (self s) (here s)).pc % 2 ^ 32

/-- Nothing but cores, the agenda and the count of free values differ. -/
def OnlyCores (s t : State) : Prop := t = { s with cores := t.cores, agenda := t.agenda, free := t.free }

/-- Instruction i blocks with a WAIT code: its task's status word alone changes in local memory, and its PC stays (R194). -/
def Waits (i : Instr) (s t : State) (wait : Nat) : Prop :=
  BlocksIn i s t wait ∧ SameOutside [(statusAt (self s) (here s), 4)] (self s).lm (coreOf t s.cur).lm

/-- An entry of the agenda: an event, its units, its cycle and phase. -/
def Due (t : State) (i : Instr) (x : Args) (cycle phase : Nat) : Prop :=
  ∃ e ∈ t.agenda, e.item = .ev i x ∧ e.time = 4 * cycle + phase

/-- Instruction i completes with the core as x, and an event is then due. -/
def CompletesSending (i : Instr) (s : State) (x : Core) (pc : Nat) (ev : Instr) (y : Args) (cycle phase : Nat) : Prop :=
  ∃ t, exec i s = .next t ∧ OnlyCores s t ∧ (∀ k, k ≠ s.cur → coreOf t k = coreOf s k) ∧ Advanced x (coreOf t s.cur) pc ∧ Due t ev y cycle phase

/-- The task of slot i of core k goes on: runnable, its PC past the instruction it was blocked in (R194). -/
def GoesOn (s t : State) (k i : Nat) : Prop :=
  stState (coreOf t k) i = 0 ∧ stWait (coreOf t k) i = 0 ∧ (slotAt (coreOf t k) i).blockedIn = none ∧
  (slotAt (coreOf t k) i).pc = ((slotAt (coreOf s k) i).pc + 4) % 2 ^ 32

/-- The domain of the core that issues; signal n is in the emit set of the current task, as it acts, and in its may-emit mask (R176, R177). -/
def dom (s : State) : Domain := theDom s s.cur
abbrev mayEmit (s : State) (n : Nat) : Prop :=
  n < 128 ∧ emsetEff (self s) (here s) / 2 ^ n % 2 = 1 ∧ (slotAt (self s) (here s)).may.toNat / 2 ^ n % 2 = 1

/-- Entry e of the region stack of slot i: its address (Table 8.9). -/
def entryAt (c : Core) (i e : Nat) : Nat := slotBase c i + 0xC0 + 8 * e

/-- WSP names the current slot's workspace (R24, R31). -/
abbrev SlotOk (c : Core) : Prop := wsBase c = slotBase c (curSlot c)

/-- A record of index idx of a die holds a record image, byte for byte (R166). -/
def RecordIs (t : State) (die idx : Nat) (img : Mem) : Prop := ∀ o, o < 192 → Memory.get (dieAt t die).pool (recOff idx + o) = Memory.get img o

/-- A record of a die has come into use for an image: ready if its conditions are met, else waiting for them (R198). -/
def RecordMade (s t : State) (img : Mem) : Prop :=
  ∃ idx r, Table.find (dieAt s (imgDie img)).recs idx = none ∧ Table.find (dieAt t (imgDie img)).recs idx = some r ∧
    r.st = (if unmetConds s img = [] then 3 else 2) ∧ RecordIs t (imgDie img) idx img

/-- The slot's workspace lies below 2^32, as every slot of R24 does. -/
abbrev Fits (c : Core) (i : Nat) : Prop := slotBase c i + 0x400 < 2 ^ 32

/-! Global and shared memory (12). -/

/-- Bytes of a kind of global access (Table 12.1), the type of its register (w 0, x 1, v 2), and the kinds that exist. -/
def accessWidth (sx z : Nat) : Nat := if z = 3 ∧ sx = 1 then 32 else 2 ^ z
def accessReg (sx z : Nat) : Nat := if z = 3 then (if sx = 1 then 2 else 1) else 0
abbrev GlobalLoad (sx z d : Nat) : Prop := (z ≤ 1 ∧ sx ≤ 1) ∨ (z = 2 ∧ sx = 0) ∨ (z = 3 ∧ sx = 0 ∧ d < 8) ∨ (z = 3 ∧ sx = 1)
abbrev GlobalStore (sx z d : Nat) : Prop := (z ≤ 2 ∧ sx = 0) ∨ (z = 3 ∧ sx = 0 ∧ d < 8) ∨ (z = 3 ∧ sx = 1)

/-- The address of a format M access (R248), and a register of a type. -/
def globalEa (c : Core) (o n a : Nat) : Nat := pat 64 ((rdX c a : Int) + sgn 14 o * n)
def ofType (c : Core) (t r : Nat) : Nat := if t = 0 then rdW c r else if t = 1 then rdX c r else rdV c r

/-- The hinted kinds, in the order of their codes (R79, Table 12.1): bytes, sign, register. -/
def hintedKinds : List (Nat × Nat × Nat × Nat) := [(0, 1, 0, 0), (1, 1, 1, 0), (2, 2, 0, 0), (3, 2, 1, 0), (4, 4, 0, 0), (5, 8, 0, 1), (6, 32, 0, 2)]

/-- No entry of the rod's micro-TLB covers an address; none that does maps it to a window (R260, R261). -/
abbrev MicroMiss (s : State) (va : Nat) : Prop := findTlb (rodOf s (rodOfCore s.cur)).tlb va = none
abbrev NoWindow (s : State) (va : Nat) : Prop := ∀ e, findTlb (rodOf s (rodOfCore s.cur)).tlb va = some e → isWindow (paOf e va) = false

/-- A load, wait or atomic is issued: its task blocks with WAIT 6 and the access is in flight (R253). -/
def Issues (i : Instr) (s : State) (kind : AccKind) (va n : Nat) (p : Acc → Prop) : Prop :=
  ∃ t, Waits i s t 6 ∧ OnlyIssues s t ∧ InFlight t s.cur kind va n p

/-- A store or a clean is issued: the access is in flight, and its task waits at least until its address is translated (R253, R254). -/
def Posts (i : Instr) (s : State) (kind : AccKind) (va n : Nat) (p : Acc → Prop) : Prop :=
  ∃ t, exec i s = .next t ∧ OnlyIssues s t ∧ InFlight t s.cur kind va n p ∧ (MicroMiss s va → Waits i s t 6)

/-- A shared access of n bytes at a local address of a core that no check refuses (R224): aligned, to the set the task is bound with, within the
target's scratchpad. -/
abbrev SharedOk (s : State) (core addr n : Nat) : Prop :=
  let x := slotAt (self s) (here s)
  addr % n = 0 ∧ x.setSize ≠ 0 ∧ x.setBase ≤ core ∧ core < x.setBase + x.setSize ∧
  (coreOf s core).lmspill.toNat ≤ addr ∧ addr < (coreOf s core).lmscr.toNat

/-- The atomics with the numbers of their functions and the new value of n bits from the old, the operand and the comparand (Table 12.5). -/
def atomicRows : List ((Nat → Nat → Nat → Nat → Nat → Nat → Instr) × Nat × (Nat → Nat → Nat → Nat → Nat)) :=
  [(.amoAdd, 0x08, fun n o b _ => (o + b) % 2 ^ n), (.amoAnd, 0x09, fun _ o b _ => Nat.land o b), (.amoOr, 0x0A, fun _ o b _ => Nat.lor o b),
   (.amoXor, 0x0B, fun _ o b _ => Nat.xor o b), (.amoMin, 0x0C, fun n o b _ => if sgn n o ≤ sgn n b then o else b),
   (.amoMax, 0x0D, fun n o b _ => if sgn n b ≤ sgn n o then o else b), (.amoMinn, 0x0E, fun _ o b _ => if o ≤ b then o else b),
   (.amoMaxn, 0x0F, fun _ o b _ => if b ≤ o then o else b), (.amoSwap, 0x10, fun _ _ b _ => b), (.amoCas, 0x11, fun _ o b c => if o = c then b else o)]

/-- An access in flight, and the same in a stage. -/
abbrev acc (s : State) (id : Nat) (x : Acc) : Prop := Table.find s.accs id = some x
def At (t : State) (id : Nat) (st : AccStage) : Prop := ∃ y, acc t id y ∧ y.stage = st

/-- The value of a register of slot i of a core: of w, x and v registers, w0 and x0 apart. -/
def slotReg (c : Core) (i dest r : Nat) : Nat :=
  if dest = 0 then Memory.read c.lm (slotBase c i + 4 * r) 4
  else if dest = 1 then Memory.read c.lm (slotBase c i + 8 * r) 8
  else Memory.read c.lm (slotBase c i + 0x100 + 32 * r) 32
abbrev RegField (dest r : Nat) : Prop := (dest = 0 ∧ 1 ≤ r ∧ r < 16) ∨ (dest = 1 ∧ 1 ≤ r ∧ r < 8) ∨ (dest = 2 ∧ r < 16)
def regBits (dest : Nat) : Nat := if dest = 0 then 32 else if dest = 1 then 64 else 256

/-- The task of an access waits for it, on a core outside a gang. -/
abbrev WaitedFor (s : State) (x : Acc) : Prop := waitsFor s x = true ∧ (coreOf s x.core).gangSize = 0

/-- Tokens of a line at a place, a die or the home (R358). -/
def tokensAt (s : State) (place line : Nat) : Nat := if place = 40 then (homeOf s line).tokens else (l2Of s place line).tokens

/-- What a place keeps is unchanged for other lines, and for this line at other places. -/
def OtherTokens (s t : State) (place line : Nat) : Prop := ∀ q l, q ≤ 40 → q ≠ place ∨ l ≠ line → tokensAt t q l = tokensAt s q l

/-- The current bytes of a line are a memory of its 1,024 bytes in canonical form. -/
def WholeLine (s : State) (line : Nat) : Prop := Memory.wf (lineBytes s line) = true ∧ ∀ c ∈ lineBytes s line, c.1 < 1024

/-- A redirected push or pop has completed: SP is what it leaves, and SPILLREDIR counts it (R32, R35, R104). -/
def StackMoved (s t : State) (x : Acc) (sp : Nat) : Prop :=
  Memory.read (coreOf t x.core).lm (slotBase (coreOf s x.core) x.slot + 0x300) 4 = sp % 2 ^ 32 ∧
  (coreOf t x.core).spillRedir = (coreOf s x.core).spillRedir + 1

/-- Event i has the wait x of a state read again, as a load of its address (R261): with WAIT 6, it is translated anew, and with an entry at hand and no
own write to the sector on its way it goes to memory. -/
def ReadsAgain (i : Instr) (s : State) (x : Acc) : Prop :=
  (findTlb (rodOf s (rodOfCore x.core)).tlb x.va = none → ∃ t, exec i s = .next t ∧ stWait (coreOf t x.core) x.slot = 6 ∧ At t s.args.b .walk ∧
    Due t .walkStart { a := accDie x, b := s.args.b + 1 } (s.cycle + 12) 0) ∧
  (∀ e, findTlb (rodOf s (rodOfCore x.core)).tlb x.va = some e → deniedEntry e 0 x.priv = none → e.kind ≠ 0 → isWindow (paOf e x.va) = false →
    x.sp = none → ownToSector s x.core (paOf e x.va / 256) = false →
    ∃ t y, exec i s = .next t ∧ stWait (coreOf t x.core) x.slot = 6 ∧ acc t s.args.b y ∧ y.stage = .path ∧ y.pa = paOf e x.va)

/-- No deposit port of a core has taken a row in this cycle (R225). -/
abbrev PortsFree (s : State) (k : Nat) : Prop := ∀ p ∈ (coreOf s k).ports, p.1 ≠ s.cycle + 1

/-- No earlier shared access of core k to a target is in a stage. -/
abbrev NoneShared (s : State) (id k target : Nat) (st : AccStage) : Prop :=
  ∀ q ∈ s.accs, q.1 < id → q.2.core = k → q.2.place = target → q.2.stage = st → q.2.kind ≠ .sst ∧ q.2.kind ≠ .satomic ∧ q.2.kind ≠ .sld

/-- An access of a unit that is no task has begun, to a physical address. -/
def UnitAcc (t : State) (id : Nat) (kind : AccKind) (pa n : Nat) (p : Acc → Prop) : Prop :=
  ∃ z, acc t id z ∧ z.kind = kind ∧ z.pa = pa ∧ z.n = n ∧ p z

/-- Walk w of a state reads the entry of its level for an address: 8 bytes of its table (Table 11.9). -/
def WalkReads (t : State) (w : Walk) (va : Nat) : Prop :=
  ∃ r, w.read = some r ∧ UnitAcc t r .uread (w.table + 8 * walkIndex va w.lev) 8 fun _ => True

/-- Tokens of a line at the 41 places and in the messages on their way (R358). -/
def tokensOf (s : State) (line : Nat) : Nat :=
  ((List.range 41).map fun p => tokensAt s p line).sum + ((s.msgs.filter fun m => m.2.line == line).map fun m => m.2.tokens).sum

/-- Messages have numbers of their own, given out already. -/
def MsgsOk (s : State) : Prop := (s.msgs.map Prod.fst).Nodup ∧ ∀ m ∈ s.msgs, m.1 < s.nextId

/-- Event i of a state conserves the tokens of every line (R358). -/
def Conserves (i : Instr) (s : State) : Prop :=
  MsgsOk s → ∃ t, exec i s = .next t ∧ MsgsOk t ∧ ∀ line, tokensOf t line = tokensOf s line

/-- DRAM holds sectors of a mask that the LLC slice of a line lacks, at the nominal clock, where the wait is stated (R370). -/
abbrev LlcLacks (s : State) (line mask : Nat) : Prop := s.clock = 1050 ∧ ∃ j, j < 4 ∧ mask.testBit j = true ∧ llcHolds s line j = false

/-- No condition is watched for in the move block of a die. -/
abbrev BlockUnwatched (s : State) (die : Nat) : Prop := ∀ w ∈ (dieAt s die).watches, w.off + 8 ≤ 0x310000 ∨ 0x310040 ≤ w.off

/-- A die holds all tokens of a line, the owner token among them, and no message has any. -/
abbrev HoldsAll (s : State) (die line : Nat) : Prop :=
  (l2Of s die line).tokens = 64 ∧ (l2Of s die line).owner = true ∧ (homeOf s line).owner = false ∧
  (∀ d, d < 40 → d ≠ die → (l2Of s d line).owner = false) ∧ ∀ m ∈ s.msgs, m.2.line ≠ line

/-! Jobs (14, 15). -/

/-- A counter word of a domain, as a job may name it (R195, R309). -/
abbrev CounterOf (d : Domain) (a : Nat) : Prop := dieInDom d (a / 2 ^ 26 % 2 ^ 6) = true ∧ a % 2 ^ 26 * 8 < 64 * 2 ^ 20

/-- The n descriptors from en that R309 accepts: within e0 to e7, reserved bits zero, a counter, no record or a record on 64 bytes. -/
abbrev DescriptorsOk (s : State) (e n : Nat) (bad : List Nat → Bool) : Prop :=
  let w := rdE (self s) e
  let r := w / 2 ^ 32 % 2 ^ 32
  e + n ≤ 8 ∧ bad ((List.range n).map fun i => rdE (self s) (e + i)) = false ∧ CounterOf (dom s) (w % 2 ^ 32) ∧
  (r = 0 ∨ (CounterOf (dom s) r ∧ r % 2 ^ 26 * 8 % 64 = 0))

/-- The job that an instruction of the current task forms (R309, R310). -/
def jobOf (s : State) (kind e n a f p r : Nat) (more : List Nat) : Job :=
  { kind := kind, core := s.cur, dom := (dom s).number, desc := (List.range n).map (fun i => rdE (self s) (e + i)) ++ more, inc := rdW (self s) a
    free := f == 1, prog := p == 1, tr := r == 1, priv := isPriv (self s) }

/-- A queue of a core has a free entry that nothing waits for (R284). -/
abbrev Room (c : Core) (q : Nat) : Prop := (queueOf c q).length < 4 ∧ nth [] c.jobWait q = []

/-- Instruction i issues a job: it completes with the job's identifier in wd and the job last in its queue; while the queue has no room, its task
blocks with WAIT 6 and the job stands last among those that wait (R283 to R285, R292, R309). -/
def IssuesJob (i : Instr) (s : State) (q d : Nat) (j : Job) : Prop :=
  let id := (nth 0 (self s).jobCount q + 1) % 2 ^ 32
  (Room (self s) q → ∃ t y, exec i s = .next t ∧ OnlyCores s t ∧ (∀ k, k ≠ s.cur → coreOf t k = coreOf s k) ∧
    (coreOf t s.cur).lm = (wrW (self s) d id).lm ∧ (slotAt (coreOf t s.cur) (here s)).pc = pcAfter (self s) 4 ∧
    (queueOf (coreOf t s.cur) q).length = (queueOf (self s) q).length + 1 ∧ (queueOf (coreOf t s.cur) q).getLast? = some y ∧
    y = { j with id := id, after := nth [] (self s).fences q, since := y.since, started := y.started } ∧ nth 0 (coreOf t s.cur).jobCount q = id) ∧
  (¬ Room (self s) q → ∃ t, Waits i s t 6 ∧ OnlyCores s t ∧ nth [] (coreOf t s.cur).jobWait q = nth [] (self s).jobWait q ++ [(here s, j)])

/-- The copy instructions: kind of job, descriptors, reserved bits of them, the checks of its own (R312 to R316). -/
def copyInstrs : List ((Nat → Nat → Nat → Nat → Nat → Nat → Instr) × Nat × Nat × (List Nat → Bool) × (Core → Job → Option Trap)) :=
  [(.cpSend, 0, 4, badSend, fun c j => sendTrap c false j), (.cpPut, 1, 4, badPut, fun c j => sendTrap c true j), (.cpRl, 2, 4, badRl, rlTrap),
   (.cpHalo, 3, 6, badHalo, haloTrap)]

/-- A flight with one write, due, into a scratchpad of the job's domain (R295). -/
abbrev OneDeposit (s : State) (j : Job) (f : Flight) (w : Wr) : Prop :=
  (∃ c, f.writes = [(c, w)] ∧ c ≤ s.cycle) ∧ w.kind = 0 ∧ w.half = 0 ∧ dieInDom (theDom s j.core) (dieOfCore w.unit) = true ∧
  (coreOf s w.unit).lmspill.toNat ≤ w.addr ∧ w.addr + w.data.length ≤ (coreOf s w.unit).lmscr.toNat

/-- No earlier flight of the job has still to write where write w of flight id goes (R328). -/
abbrev NoneBehind (s : State) (id : Nat) (f : Flight) (w : Wr) : Prop :=
  ∀ q ∈ s.flights, q.1 < id → q.2.core = f.core → q.2.queue = f.queue → q.2.jobId = f.jobId →
    ∀ v ∈ q.2.writes, v.2.kind = w.kind → v.2.unit = w.unit → v.2.addr ≠ w.addr

/-- Where the rows of own local memory that a load may read end (Table 1.1), and that a span of bytes lies below it. -/
def loadEnd (c : Core) : Nat := min 0x6000 c.lmscr.toNat
abbrev SpanReads (c : Core) (q : Int × Nat) : Prop := 0 ≤ q.1 ∧ q.1 + q.2 ≤ loadEnd c

/-- The rows of an operand of mx.mm that lie in own local memory (Table 15.11, R319). -/
def ownRows (w stride n count : Nat) : List (Int × Nat) :=
  if w / 2 ^ 62 % 4 = 0 then (List.range count).map fun i => (((w % 2 ^ 15 + stride * i : Nat) : Int), n) else []

/-- A location names a source that exists, and no core with its own local memory (Table 15.11). -/
abbrev LocationOk (w : Nat) : Prop := w / 2 ^ 62 % 4 ≠ 3 ∧ (w / 2 ^ 62 % 4 = 0 → w / 2 ^ 15 % 2 ^ 20 = 0)

/-- The bytes of a write stand at its destination. -/
def Landed (t : State) (w : Wr) : Prop := Memory.read (coreOf t w.unit).lm w.addr w.data.length = fromBytes w.data

/-! The fault queue (18): the pool address of an entry, its bytes and its page and class (Table 18.7). -/
def entryOff (i : Nat) : Nat := 0x300000 + 64 * i
def entryBytes (s : State) (die i off n : Nat) : Nat := poolRead s die (entryOff i + off) n

/-- No task waits in fq.take. -/
abbrev NoTaker (s : State) : Prop := ∀ q ∈ s.cores, ∀ i, inFqTake (slotAt q.2 i) = false

/-! Instants, launch and host (08, 22). -/

/-- Slot i of core k is the only one of the core that holds a task. -/
def OnlySlot (s : State) (k i : Nat) : Prop := i < 8 ∧ (slotAt (coreOf s k) i).live = true ∧ ∀ j, j ≠ i → (slotAt (coreOf s k) j).live = false

/-- Vector v of a function is raised: its message is sent, or its pending bit is set while it is masked (R380). -/
def Told (s t : State) (fn v : Nat) : Prop :=
  let f := Table.get {} s.funcs fn
  let g := Table.get {} t.funcs fn
  if Memory.read f.msix (16 * v + 12) 4 % 2 = 1 then g.pending = Nat.lor f.pending (2 ^ v) else g.raised = f.raised ++ [v]

/-- A report in host memory: its domain and its status (Table 22.6). -/
def Reported (t : State) (at_ dom status : Nat) : Prop := Memory.read t.host at_ 4 = dom % 2 ^ 32 ∧ Memory.read t.host (at_ + 4) 1 = status

/-- A packet that is refused changes nothing but the report and its vector (R391). -/
def Refused (i : Instr) (s : State) (qi report dom : Nat) : Prop :=
  ∃ t, exec i s = .next t ∧ t = { s with host := t.host, funcs := t.funcs } ∧ Reported t report dom 3 ∧ Told s t (qi / 16) 0

/-- The packet that an event concerns, with its launch queue and slot. -/
def packet (s : State) : Mem := packetAt s s.args.a s.args.b

/-- What a launch or a restore of queue qi must meet (Table 22.5, R389, R390); RETIRED runs no domain (Table 22.11). -/
def LaunchValid (s : State) (qi : Nat) (p : Mem) : Prop :=
  let f (o n : Nat) : Nat := Memory.read p o n
  let dram (a n : Nat) : Prop := a + n ≤ 3 * 2 ^ 40
  let bound := f 0x3C 4
  let spill := bound % 2 ^ 5 * 0x400
  let l1 := bound / 2 ^ 5 % 2 ^ 5 * 0x400
  let size := (1 + bound / 2 ^ 10 % 2 ^ 3) * 0x400
  let first (o : Nat) : Nat := f o 4 % 2 ^ 14
  let count (o : Nat) : Nat := f o 4 / 2 ^ 14 % 2 ^ 15
  let installs : Prop := f 0x48 4 / 2 ^ 15 % 2 = 1
  (s.lcs ≠ 3 ∧ f 1 3 = 0 ∧ (∀ q ∈ s.domains, q.2.number = f 4 4 → q.2.ended = true) ∧ f 8 8 ≠ 0 ∧ f 8 8 < 2 ^ 40) ∧
  (f 0x10 8 % 4096 = 0 ∧ f 0x10 8 < 3 * 2 ^ 40 ∧ f 0x18 8 % 256 = 0 ∧ dram (f 0x18 8) (f 0x20 4)) ∧
  (2 ≤ f 0x20 4 ∧ f 0x20 4 ≤ 2 ^ 24 ∧ f 0x20 4 % 2 = 0 ∧ f 0x24 4 % 2 = 0 ∧ f 0x24 4 < f 0x20 4) ∧
  (dram (f 0x28 8) 960 ∧ f 0x38 4 ≤ 0x5C00 ∧ (f 0x30 8 = 0 ∨ dram (f 0x30 8) (f 0x38 4))) ∧
  (bound / 2 ^ 13 = 0 ∧ 0x800 ≤ spill ∧ spill ≤ l1 ∧ (l1 = 0x4000 ∨ l1 = 0x5000 ∨ l1 = 0x6000) ∧ 0x400 + size ≤ spill) ∧
  (f 0x40 4 / 2 ^ 29 = 0 ∧ f 0x44 4 / 2 ^ 29 = 0 ∧ 1 ≤ count 0x40 ∧ first 0x40 + count 0x40 ≤ 16384) ∧
  (count 0x44 = 0 ∨ (first 0x40 ≤ first 0x44 ∧ first 0x44 + count 0x44 ≤ first 0x40 + count 0x40)) ∧
  (installs → ∃ i, 1 ≤ i ∧ i < 8 ∧ 0x400 + (i + 1) * size ≤ spill ∧ f 0x48 4 / 2 ^ 10 % 2 ^ 5 * 0x400 = 0x400 + i * size) ∧
  (f 0x66 2 = 0 ∧ (∀ i, i < 16 → f 0x60 8 / 2 ^ (3 * i) % 2 ^ 3 ≠ 7) ∧ f 0x68 8 % 32 = 0) ∧
  (if f 0 1 = 1 then f 0x70 8 = 0 ∧ f 0x78 8 = 0 else dram (f 0x70 8) ((0x6000 * 16384 + 0x4000000) * (diesOf (f 8 8)).length)) ∧
  ((count 0x44 ≠ 0 ∨ installs ∨ f 0x5F 1 ≠ 0) → (launchQ s qi).priv = true)

/-- The reserved bytes of a control packet are zero; the unused ones at offset 0x08 begin at from_ (R392). -/
def Control (p : Mem) (from_ : Nat) : Prop := Memory.read p 1 3 = 0 ∧ Memory.read p from_ (0x18 - from_) = 0 ∧ Memory.read p 0x20 96 = 0

/-- What management keeps legal (R375, R394, R401, R404, R405): the life-cycle state and the one requested, the power limit, the clock and those that are
requested, the module number. -/
def Managed (s : State) : Prop :=
  s.lcs ≤ 3 ∧ (∀ n, s.lcsNext = some n → n ≤ 3) ∧ 6000 ≤ s.powerLimit ∧ s.powerLimit ≤ 18000 ∧ clockOk s.clock = true ∧
  (∀ f, s.clockNext = some f → clockOk f = true) ∧ (∀ f, s.clockWait = some f → clockOk f = true) ∧ s.module < 64

/-! Records of tasks (08, 09). -/

/-- A field of the image of a record at the local address a: n bytes from an offset (Table 8.4). -/
def imageField (s : State) (a off n : Nat) : Nat := Memory.read (self s).lm (a + off) n

/-- Its CTL and AFFINITY: NCOND, NLIVE, DIMS, the privileged bit; the first core and the count of the cores it names, none at a level
that does not exist; the address and the threshold of condition j. -/
def imageNcond (s : State) (a : Nat) : Nat := imageField s a 4 4 / 2 ^ 7 % 2 ^ 3
def imageNlive (s : State) (a : Nat) : Nat := imageField s a 4 4 / 2 ^ 10 % 2 ^ 5
def imageDims (s : State) (a : Nat) : Nat := imageField s a 4 4 / 2 ^ 4 % 2 ^ 3
def imagePriv (s : State) (a : Nat) : Nat := imageField s a 4 4 / 2 ^ 3 % 2
def unitCores (level : Nat) : Nat := nth 0 [1, 8, 128, 512, 16384] level
def imageCores (s : State) (a : Nat) : Nat := unitCores (imageField s a 8 4 % 2 ^ 3)
def imageBase (s : State) (a : Nat) : Nat := imageField s a 8 4 / 2 ^ 8 % 2 ^ 24 * imageCores s a
def imageDie (s : State) (a : Nat) : Nat := imageBase s a / 16384
def imageCounter (s : State) (a j : Nat) : Nat := imageField s a (0x30 + 16 * j) 4
def imageMeets (s : State) (a j : Nat) : Bool := counterMet (counterWord s (imageCounter s a j)) (imageField s a (0x38 + 16 * j) 8)

/-- The image stands on 32 bytes in regions that permit loads (R197). -/
abbrev ImagePlaced (s : State) (a : Nat) : Prop := a % 32 = 0 ∧ ∀ j, j < 6 → Reachable (self s) (a + 32 * j) 32

/-- The fields that spawn and park both take are valid: a level and a die of the domain, at most 4 conditions on counters of the domain, at most
16 live words (R197, R200). -/
abbrev ImageFields (s : State) (a : Nat) : Prop :=
  imageCores s a ≠ 0 ∧ dieInDom (dom s) (imageDie s a) = true ∧ imageNcond s a ≤ 4 ∧ imageNlive s a ≤ 16 ∧
  ∀ j, j < imageNcond s a → CounterOf (dom s) (imageCounter s a j)

/-- An image that spawn takes (R197): with DIMS 7 its TILE is zero, and no unprivileged task gives it the privileged bit. -/
abbrev ImageTaken (s : State) (a : Nat) : Prop :=
  ImagePlaced s a ∧ ImageFields s a ∧ (imageDims s a = 7 → imageField s a 0x10 8 = 0) ∧ (imagePriv s a = 1 → isPriv (self s) = true)

/-- The image is refused: by its place with ALIGN 1 or LMBOUND, by its fields with ILLEG 4 (R197). -/
def PlaceRefused (i : Instr) (s : State) (a : Nat) : Prop :=
  (a % 32 ≠ 0 → Traps i s (trapOf 3 1 (a % 2 ^ 15))) ∧
  (∀ j, j < 6 → a % 32 = 0 → (∀ m, m < j → Reachable (self s) (a + 32 * m) 32) → let ea := a + 32 * j
    (0x6000 ≤ ea → Traps i s (trapOf 4 1 (ea % 2 ^ 15))) ∧ (ea < 0x6000 → (self s).lmscr.toNat ≤ ea → Traps i s (trapOf 4 3 (ea % 2 ^ 15))))
def ImageRefused (i : Instr) (s : State) (a : Nat) : Prop :=
  PlaceRefused i s a ∧
  (ImagePlaced s a → ¬ ImageFields s a ∨ (imageDims s a = 7 ∧ imageField s a 0x10 8 ≠ 0) → Traps i s (illeg 4)) ∧
  (ImagePlaced s a → ImageFields s a → (imageDims s a = 7 → imageField s a 0x10 8 = 0) → imagePriv s a = 1 → isPriv (self s) = false →
    Traps i s (trapOf 8 3 0))

/-- The record area has n free records and the dies have the watch entries for them (R170, R198). -/
abbrev AreaRoom (s : State) (a n : Nat) : Prop :=
  (dieAt s (imageDie s a)).recs.length + n ≤ 16384 ∧ ∀ d, d < 40 →
    (dieAt s d).watches.length + n * ((List.range (imageNcond s a)).filter fun j => !imageMeets s a j && imageCounter s a j / 2 ^ 26 % 2 ^ 6 == d).length ≤ 4096

/-- Fields of record idx of a die. -/
def recordField (t : State) (die idx off n : Nat) : Nat := poolRead t die (192 * idx + off) n

/-- What a record takes from an image unchanged, whoever writes it: HINT, the conditions, the live words below NLIVE; reserved bytes are zero. -/
def TakesImage (s t : State) (a die idx : Nat) : Prop :=
  let f := recordField t die idx
  f 0x18 8 = imageField s a 0x18 8 ∧
  (∀ j, j < 4 → f (0x30 + 16 * j) 4 = imageCounter s a j ∧ f (0x34 + 16 * j) 4 = 0 ∧ f (0x38 + 16 * j) 8 = imageField s a (0x38 + 16 * j) 8 % 2 ^ 63) ∧
  f 0xB8 8 = 0

/-- Record idx as spawn writes it, with CTL, AFFINITY, TASK and TILE as given (R197). -/
def SpawnedRecord (s t : State) (a die idx ctl aff task tile : Nat) : Prop :=
  let f := recordField t die idx
  TakesImage s t a die idx ∧ f 0 4 = imageField s a 0 4 ∧ f 4 4 = ctl ∧ f 8 4 = aff ∧ f 0x0C 4 = task ∧ f 0x10 8 = tile ∧
  f 0x20 16 = (if isPriv (self s) then imageField s a 0x20 16 else imageField s a 0x20 16 % 2 ^ 120) ∧
  (∀ j, j < 16 → f (0x70 + 4 * j) 4 = imageField s a (0x70 + 4 * j) 4) ∧ f 0xB0 4 = imageField s a 0xB0 4 ∧ f 0xB4 4 = 0

/-- Record idx as park writes it (R200): its task's PC behind the park, privilege, DIMS, TASK, TILE, EMSET and FMODE; live words from the
registers; RESUME with the bits of the conditions that a set ERR bit meets (R201). -/
def ParkedRecord (s t : State) (a die idx : Nat) : Prop :=
  let f := recordField t die idx
  let c := self s
  let st := stWord c (here s)
  TakesImage s t a die idx ∧ f 0 4 = pcAfter c 4 ∧
  f 4 4 = imageField s a 4 4 % 2 ^ 3 + st / 2 ^ 6 % 2 * 2 ^ 3 + st / 2 ^ 14 % 2 ^ 3 * 2 ^ 4 + imageNcond s a * 2 ^ 7 + imageNlive s a * 2 ^ 10 ∧
  f 8 4 = imageField s a 8 4 / 2 ^ 8 * 2 ^ 8 + imageField s a 8 4 % 2 ^ 3 ∧
  f 0x0C 4 = (slotAt c (here s)).task % 2 ^ 32 ∧ f 0x10 8 = (slotAt c (here s)).tile % 2 ^ 64 ∧ f 0x20 16 = emset c (here s) ∧
  (∀ j, j < imageNlive s a → f (0x70 + 4 * j) 4 = rdW c j) ∧ f 0xB0 4 = Memory.read c.lm (wsBase c + 0x324) 4 ∧
  ∀ j, (f 0xB4 4).testBit j = (decide (j < imageNcond s a) && (counterWord s (imageCounter s a j)).testBit 63)

/-- Record idx of a die has come into use, ready if every condition of the image is met, else waiting for them, and is held 40 to 64 cycles after a
cycle (R198). -/
def ComesIntoUse (s t : State) (a die idx after : Nat) : Prop :=
  idx < 16384 ∧ Table.find (dieAt s die).recs idx = none ∧
  (∃ r, Table.find (dieAt t die).recs idx = some r ∧ r.st = (if (List.range (imageNcond s a)).all (imageMeets s a) = true then 3 else 2)) ∧
  ∃ n, 40 ≤ n ∧ n ≤ 64 ∧ Due t .recordHeld { a := die, b := idx } (after + n) 0

/-- Counters of an image and conditions watched on a die stand above the areas that the device keeps (R226). -/
abbrev AboveAreas (s : State) (a : Nat) : Prop :=
  (∀ j, j < imageNcond s a → 0x400000 ≤ imageCounter s a j % 2 ^ 26 * 8) ∧ ∀ w ∈ (dieAt s (imageDie s a)).watches, 0x400000 ≤ w.off

/-- The keys of a box of n axes, in increasing curve order (R199). -/
abbrev KeysOf (n : Nat) (b : Box) (ks : List Nat) : Prop := ks.Pairwise (· < ·) ∧ ∀ x, x ∈ ks ↔ InRuns n b 0 x

/-! The distributor (R167 to R174). -/

/-- The slots of a core that a record may be bound to: without a task, not selected for another record, not an installed handler's, and not one in
which a handler runs (R24, R171, R334; the last is log 35). -/
def openSlots (c : Core) : List Nat :=
  (List.range (slotCount c)).filter fun i => !(slotAt c i).live && !(slotAt c i).reserved &&
    !(c.tvec.toNat / 2 ^ 15 % 2 == 1 && slotBase c i == c.tvec.toNat / 2 ^ 10 % 2 ^ 5 * 0x400) &&
      !(c.serving.isSome && i == curSlot c)

/-- A core of the affinity set of a record (R166). -/
abbrev Affine (img : Mem) (k : Nat) : Prop :=
  let n := unitCores (Memory.read img 8 4 % 2 ^ 3)
  let base := Memory.read img 8 4 / 2 ^ 8 % 2 ^ 24 * n
  base ≤ k ∧ k < base + n

/-- A ready record that is held can be placed: a core of its affinity set has a free slot (R171). -/
abbrev CanPlace (s : State) (die j : Nat) : Prop :=
  (Table.get {} (dieAt s die).recs j).held = true ∧ ∃ k, Affine (recImg s die j) k ∧ openSlots (coreOf s k) ≠ []

/-- The ready records of a level, in the order in which they became ready: those with that priority as their record stands (R171, R173); those before
a record. -/
def readyAt (s : State) (die lv : Nat) : List Nat := (dieAt s die).ready.filter fun j => Memory.read (dieAt s die).pool (192 * j + 4) 4 % 2 ^ 3 == lv
def olderThan (s : State) (die lv j : Nat) : List Nat := (readyAt s die lv).takeWhile fun o => o != j

/-- At least n placeable records of a level are older than a record. -/
def PlaceableBefore (s : State) (die lv j n : Nat) : Prop :=
  ∃ l : List Nat, l.Nodup ∧ l.length = n ∧ ∀ o ∈ l, o ∈ olderThan s die lv j ∧ CanPlace s die o

/-- The record that R172 selects of a level: none older that can be placed hits or has been passed over 8 times; where one is older, it hits
within the first 8; where it does not hit, every other that hits is behind one passed over 8 times or behind 8. -/
def Chosen (s : State) (die lv j : Nat) : Prop :=
  j ∈ readyAt s die lv ∧ CanPlace s die j ∧
  (∀ o ∈ olderThan s die lv j, CanPlace s die o → recBypass s die o < 8 ∧ hintHits s die o = false) ∧
  ((∃ o ∈ olderThan s die lv j, CanPlace s die o) → hintHits s die j = true ∧ ¬ PlaceableBefore s die lv j 8) ∧
  (hintHits s die j = false → ∀ o ∈ readyAt s die lv, CanPlace s die o → hintHits s die o = true →
    (∃ p ∈ olderThan s die lv o, CanPlace s die p ∧ 8 ≤ recBypass s die p) ∨ PlaceableBefore s die lv o 8)

/-- The core that R171 chooses: of the affinity set, with the most free slots, the lowest of those. -/
def MostFree (s : State) (img : Mem) (k : Nat) : Prop :=
  Affine img k ∧ ∀ q, Affine img q → (openSlots (coreOf s q)).length < (openSlots (coreOf s k)).length ∨
    ((openSlots (coreOf s q)).length = (openSlots (coreOf s k)).length ∧ k ≤ q)

/-- The slot of a core is selected, no handler has been installed in it (R334), and none runs in it (log 35). -/
abbrev StillOpen (c : Core) (i : Nat) : Prop :=
  (slotAt c i).reserved = true ∧ ¬ (c.tvec.toNat / 2 ^ 15 % 2 = 1 ∧ slotBase c i = c.tvec.toNat / 2 ^ 10 % 2 ^ 5 * 0x400) ∧
  ¬ (c.serving.isSome = true ∧ i = curSlot c)

/-- A record, of an image, is bound to slot i of core k (R167, R173, R201): its task is runnable at the PC with bit 0 clear, the workspace is as the device
writes it, at the priority of the selection; RESUME is in the register of a park. -/
def BoundTo (s t : State) (k i : Nat) (img : Mem) (r : Rec) : Prop :=
  let c := coreOf t k
  let b := slotBase (coreOf s k) i
  let ctl := Memory.read img 4 4
  let pc := Memory.read img 0 4 / 2 * 2
  let size := slotSize (coreOf s k)
  let wd := (imageWord (imageOf s k) ((pc + 2 ^ 32 - 4) % 2 ^ 32)).2 / 2 ^ 7 % 2 ^ 4
  let rd (off n : Nat) := Memory.read c.lm (b + off) n
  slotAt c i = { live := true, pc := pc, task := Memory.read img 0x0C 4, tile := Memory.read img 0x10 8, may := r.may, readyAt := s.cycle, fresh := true
                 setBase := r.setBase, setSize := r.setSize } ∧ stState c i = 0 ∧
  (Fits (coreOf s k) i → r.prio < 8 →
    rd 0x50 4 = ctl / 2 ^ 3 % 2 * 2 ^ 6 + r.prio * 2 ^ 7 + ctl / 2 ^ 4 % 2 ^ 3 * 2 ^ 14 + (if r.err = 0 then 0 else 2 ^ 21) ∧
    rd 0x40 16 = 0 ∧ rd 0x54 4 = pc ∧ rd 0x300 4 = (b + size) % 2 ^ 32 ∧ rd 0x304 4 = b + 0x400 ∧ rd 0x308 8 = 0 ∧ rd 0x310 16 = Memory.read img 0x20 16 ∧
    rd 0x320 4 = 0 ∧ rd 0x324 4 = Memory.read img 0xB0 4 ∧ rd 0x328 4 = (b + size) % 2 ^ 32 ∧
    (∀ j, 0 < j → j < 16 → j < ctl / 2 ^ 10 % 2 ^ 5 → (r.park = true → j ≠ wd) → rd (4 * j) 4 = Memory.read img (0x70 + 4 * j) 4) ∧
    (r.park = true → wd ≠ 0 → rd (4 * wd) 4 = Memory.read img 0xB4 4))

/-! Gangs (R175, R210). -/

/-- Slot i of a core has its task blocked in the gang.form of a code, and no lower one has (R210). -/
def Forming (c : Core) (code i d : Nat) : Prop :=
  let is (i : Nat) (d : Nat) : Prop := (slotAt c i).live = true ∧ (slotAt c i).trap = none ∧ stState c i = 1 ∧ (slotAt c i).blockedIn = some (.gangForm code d)
  i < 8 ∧ is i d ∧ ∀ j e, j < i → ¬ is j e

/-- A core may join a gang: it serves no trap and is in none (R210, R338). -/
abbrev Joinable (c : Core) : Prop := c.serving = none ∧ c.gangSize = 0

/-- LEADER, GIDX and GSZ of a status word (Table 8.1). -/
def gangFields (w : Nat) : Nat × Nat × Nat := (w / 2 ^ 22 % 2, w / 2 ^ 23 % 2 ^ 3, w / 2 ^ 26 % 2 ^ 2)

/-- Conditions of records that are watched for name records of the area, so that one that is met writes below 0x300000 in a pool (R166, R170). -/
abbrev RecordsBelow (s : State) : Prop := ∀ d ∈ s.dies, ∀ w ∈ d.2.watches, w.kind = 0 → w.a < 16384

/-- Nothing of a job of core k in a queue is in flight (R286, R287). -/
abbrev NoneFlying (s : State) (k q id : Nat) : Prop := ∀ f ∈ s.flights, ¬ (f.2.core = k ∧ f.2.queue = q ∧ f.2.jobId = id)

/-- A flight that only its writes keep in flight: no page of it is being translated, no access of it is outstanding. -/
abbrev OnlyWrites (f : Flight) : Prop := f.prog = false ∧ f.trans = false ∧ f.wait = [] ∧ f.gather = []

/-! Numbers (02). -/

/-- A finite value in units of 2^q, q at most its own power of two; two finite values are equal. -/
def units (n : Bool) (m : Nat) (e q : Int) : Int := if n then -((m : Int) * 2 ^ (e - q).toNat) else (m : Int) * 2 ^ (e - q).toNat
def Equals (n : Bool) (m : Nat) (e : Int) (n' : Bool) (m' : Nat) (e' : Int) : Prop := ∀ q, q ≤ e → q ≤ e' → units n m e q = units n' m' e' q

/-- The order of values that are no NaN; -0 equals +0 (R122). -/
def Below (x y : Machine.Num) : Prop :=
  match x, y with
  | .fin n m e, .fin n' m' e' => units n m e (min e e') < units n' m' e' (min e e')
  | .inf n, .inf n' => n = true ∧ n' = false
  | .inf n, _ => n = true
  | _, .inf n => n = false
  | _, _ => False

/-- The quantum of a nonzero magnitude m × 2^e at the precision of a format with unbounded exponent, and in the format (R43, R50). -/
def freeQuantum (f : Fmt) (m : Nat) (e : Int) : Int := e + Nat.log2 m - f.frac
def quantum (f : Fmt) (m : Nat) (e : Int) : Int := max (freeQuantum f m e) (1 - (f.bias : Int) - f.frac)

/-- k × 2^q exceeds the largest finite magnitude of a format. -/
def Exceeds (f : Fmt) (k : Nat) (q : Int) : Prop :=
  ∀ m e, unpack f f.top = .fin false m e → units false m e (min e q) < units false k q (min e q)

/-- The magnitude m × 2^e, rounded, is out of the range of a format (R50, R53). -/
def OutOf (f : Fmt) (r : RMode) (n : Bool) (m : Nat) (e : Int) : Prop := Exceeds f (quantize r n m e (quantum f m e)).1 (quantum f m e)

/-- A pattern and flags are the rounding of a nonzero value in range: the rounded count of quanta; NX if it is inexact, UF with it if the value rounded with
unbounded exponent lies below the smallest normal one (R43, R50). -/
def RoundsTo (f : Fmt) (r : RMode) (n : Bool) (m : Nat) (e : Int) (p fl : Nat) : Prop :=
  let q := quantum f m e
  let k := quantize r n m e q
  p < 2 ^ f.width ∧ (∃ m' e', unpack f p = .fin n m' e' ∧ Equals n k.1 q n m' e') ∧
  fl = if k.2 then 16 + (if (quantize r n m e (freeQuantum f m e)).1 < 2 ^ (1 - (f.bias : Int) - freeQuantum f m e).toNat then 8 else 0) else 0

/-- Patterns of a format of F: infinities, the largest finite values, 1 and 0.5 (Table 2.2). -/
def signPat (t : Nat) (n : Bool) : Nat := if n then 2 ^ (typeWidth t - 1) else 0
def infPat (t : Nat) : Nat := [0x7F800000, 0x7F80, 0x7C00, 0, 0x7C].getD t 0
def topPat (t : Nat) : Nat := [0x7F7FFFFF, 0x7F7F, 0x7BFF, 0x7E, 0x7B].getD t 0
def nanPat (t : Nat) : Nat := [0x7FC00000, 0x7FC0, 0x7E00, 0x7F, 0x7E].getD t 0
def onePat (t : Nat) : Nat := [0x3F800000, 0x3F80, 0x3C00].getD t 0
def halfPat (t : Nat) : Nat := [0x3F000000, 0x3F00, 0x3800].getD t 0

/-- An overflow in F in a mode (R52), and to FP8 (Table 2.7). -/
def overflow (t : Nat) (r : RMode) (n : Bool) : Nat :=
  signPat t n + if r = .rtz ∨ (r = .rdn ∧ n = false) ∨ (r = .rup ∧ n = true) then topPat t else infPat t
def overflowQ (t : Nat) (sat n : Bool) : Nat := if sat then signPat t n + topPat t else if t = 3 then nanPat 3 else signPat t n + infPat t

/-- Pattern and flags of a value of m × 2^e in a floating-point type (R43, R50, R52, R53). -/
def FloatOf (t : Nat) (r : RMode) (sat n : Bool) (m : Nat) (e : Int) (p : Nat × Nat) : Prop :=
  (m = 0 → p = (signPat t n, 0)) ∧
  (m ≠ 0 → ¬ OutOf (fmtOf t) r n m e → RoundsTo (fmtOf t) r n m e p.1 p.2) ∧
  (m ≠ 0 → OutOf (fmtOf t) r n m e → p = (if t ≤ 2 then overflow t r n else overflowQ t sat n, 20))

/-- Results of the function unit at -∞, -0, +0 and +∞, with their flags (Table 2.10), for the functions in the order of their codes. -/
inductive Special where
  | nan | zero (n : Bool) | one (n : Bool) | half | inf (n : Bool)
deriving DecidableEq, Repr
def Special.pattern (t : Nat) : Special → Nat
  | .nan => nanPat t
  | .zero n => signPat t n
  | .one n => signPat t n + onePat t
  | .half => halfPat t
  | .inf n => signPat t n + infPat t
def specials : List (List (Special × Nat)) :=
  let exp := [(.zero false, 0), (.one false, 0), (.one false, 0), (.inf false, 0)]
  let log := [(.nan, 1), (.inf true, 2), (.inf true, 2), (.inf false, 0)]
  let tanh := [(.one true, 0), (.zero true, 0), (.zero false, 0), (.one false, 0)]
  [exp, exp, log, log, [(.zero true, 0), (.inf true, 2), (.inf false, 2), (.zero false, 0)], [(.nan, 1), (.inf true, 2), (.inf false, 2), (.zero false, 0)],
   [(.nan, 1), (.zero true, 0), (.zero false, 0), (.inf false, 0)], [(.nan, 1), (.zero true, 0), (.zero false, 0), (.nan, 1)],
   [(.nan, 1), (.one false, 0), (.one false, 0), (.nan, 1)], tanh, [(.zero false, 0), (.half, 0), (.half, 0), (.one false, 0)], tanh]

/-- Terms of a dot product that are finite and not zero (R61): sign, magnitude, power of two. -/
def nonzero (ts : List Machine.Num) : List (Bool × Nat × Int) := ts.filterMap fun t => match t with | .fin n m e => if m = 0 then none else some (n, m, e) | _ => none

/-- E is the largest floor(log2 |t|) of the terms. -/
def IsTopBit (ts : List Machine.Num) (x : Int) : Prop := (∃ t ∈ nonzero ts, t.2.2 + Nat.log2 t.2.1 = x) ∧ ∀ t ∈ nonzero ts, t.2.2 + Nat.log2 t.2.1 ≤ x

/-- A magnitude in units of 2^q, its fraction cut off; the exact sum of the terms so cut. -/
def cutTo (m : Nat) (e q : Int) : Nat := if q ≤ e then m * 2 ^ (e - q).toNat else m / 2 ^ (q - e).toNat
def cutSum (ts : List Machine.Num) (q : Int) : Int := ((nonzero ts).map fun t => if t.1 then -(cutTo t.2.1 t.2.2 q : Int) else cutTo t.2.1 t.2.2 q).sum
def CutsSome (ts : List Machine.Num) (q : Int) : Prop := ∃ t ∈ nonzero ts, t.2.2 < q ∧ t.2.1 % 2 ^ (q - t.2.2).toNat ≠ 0

/-- The words of the frame of a trap that name the instruction: NPC, IWORD, PWORD; TPC is the PC (R336, R337). In a fetch trap there is no instruction; a
prefixed pair is named by its second word and its prefix, a prefix alone by itself. -/
def frameOfTrap (d : Domain) (pc : Nat) (pfx : Option Nat) (t : Trap) : Nat × Nat × Nat :=
  if t.fetch = true then (pc, 0, pfx.getD 0)
  else match pfx with
    | none => (pc + (imageWord d pc).1, (imageWord d pc).2, 0)
    | some p =>
      if t.pfxOnly = true then (pc + 4, p, 0)
      else let q := imageWord d ((pc + 4) % 2 ^ 32); (pc + 4 + q.1, q.2, p)

/-- The handler's workspace that TVEC names, and whether one is installed (Table 18.2). -/
def handlerBase (c : Core) : Nat := c.tvec.toNat / 2 ^ 10 % 2 ^ 5 * 0x400

end Sys2Proof.Claims

open Sys2Proof.Claims

/-- Register forms of the scalar ALU (R91, R92, R26, R27, R46): outside a gang, with a legal type and legal pairs, each completes; the destination
receives the value of Table 4.1; no other byte of local memory and nothing else of the core changes but its cost, turn and PC. The 16-bit forms
(R94): wd ← wd func wa, on the low 32 bits. -/
def Obligations.RegisterOperations : Prop :=
  (∀ p ∈ aluRows, ∀ (t b a d : Nat) (s : State), Solo s → PairsOk t [b, a, d] →
    Completes (p.1 t b a d) s (wrR (self s) t d (p.2 (width t) (rdR (self s) t a) (rdR (self s) t b))).lm [spanR (self s) t d] (pcAfter (self s) 4)) ∧
  (∀ p ∈ shortRows, ∀ (a d : Nat) (s : State), Solo s →
    Completes (p.1 a d) s (wrW (self s) d (p.2 (rdW (self s) d) (rdW (self s) a))).lm [spanW (self s) d] (pcAfter (self s) 2))

/-- Constant forms (R97) and ldk: the second operand is a word of the constant window, or an even-numbered pair of words. -/
def Obligations.ConstantOperations : Prop :=
  (∀ p ∈ conRows, ∀ (t k a d : Nat) (s : State), Solo s → PairsOk t [a, d] → (t = 1 → k % 2 = 0) →
    Completes (p.1 t k a d) s (wrR (self s) t d (p.2 (width t) (rdR (self s) t a) (rdK (self s) t k))).lm [spanR (self s) t d] (pcAfter (self s) 4)) ∧
  (∀ (t k d : Nat) (s : State), Solo s → PairsOk t [d] → (t = 1 → k % 2 = 0) →
    Completes (.ldk t k d) s (wrR (self s) t d (rdK (self s) t k)).lm [spanR (self s) t d] (pcAfter (self s) 4)) ∧
  (∀ (k d : Nat) (s : State), Solo s → Completes (.ldk16 k d) s (wrW (self s) d (rdK (self s) 0 k)).lm [spanW (self s) d] (pcAfter (self s) 2))

/-- The one-operand forms (R91, R92), sel (R92), the immediates (R95, R96) and the bit-field instructions (R98). -/
def Obligations.UnaryAndImmediateOperations : Prop :=
  (∀ p ∈ unaryRows, ∀ (t a d : Nat) (s : State), Solo s → PairsOk t [a, d] →
    Completes (p.1 t a d) s (wrR (self s) t d (p.2 (width t) (rdR (self s) t a))).lm [spanR (self s) t d] (pcAfter (self s) 4)) ∧
  (∀ (c t b a d : Nat) (s : State), Solo s → PairsOk t [b, a, d] →
    Completes (.sel c t b a d) s (wrR (self s) t d (if rdW (self s) c ≠ 0 then rdR (self s) t a else rdR (self s) t b)).lm [spanR (self s) t d]
      (pcAfter (self s) 4)) ∧
  (∀ (ix a d : Nat) (s : State), Solo s → ix < 2 ^ 17 →
    Completes (.addImmediate ix a d) s (wrW (self s) d (pat 32 ((rdW (self s) a : Int) + sgn 17 ix))).lm [spanW (self s) d] (pcAfter (self s) 4)) ∧
  (∀ (ix d : Nat) (s : State), Solo s → ix < 2 ^ 8 →
    Completes (.addImmediate16 ix d) s (wrW (self s) d (pat 32 ((rdW (self s) d : Int) + sgn 8 ix))).lm [spanW (self s) d] (pcAfter (self s) 2)) ∧
  (∀ (ix d : Nat) (s : State), Solo s → ix < 2 ^ 17 →
    Completes (.lih ix d) s (wrW (self s) d (ix * 2 ^ 15)).lm [spanW (self s) d] (pcAfter (self s) 4)) ∧
  (∀ (w p a d : Nat) (s : State), Solo s → p + (w + 1) ≤ 32 →
    Completes (.bext w p a d) s (wrW (self s) d (rdW (self s) a / 2 ^ p % 2 ^ (w + 1))).lm [spanW (self s) d] (pcAfter (self s) 4)) ∧
  (∀ (w p a d : Nat) (s : State), Solo s → p + (w + 1) ≤ 32 →
    Completes (.bins w p a d) s (wrW (self s) d (setFld (rdW (self s) d) p (w + 1) (rdW (self s) a))).lm [spanW (self s) d] (pcAfter (self s) 4))

/-- What the fields of the scalar ALU rule out (R67, R69, R97, R98): a type above 1 is a bad operand; with type 1 a pair field of 8 or more has its
reserved bit set; an odd constant of type 1 and a bit field past bit 31 are bad operands. Each takes its ILLEG trap. The traps of local accesses on
a compute core (R18, R100): a misaligned address takes ALIGN 1; an aligned one LMBOUND 1 past local memory, 2 for a store to the constant window, 3
at and above LMSCR, in the unassigned gap and the L1 region, 4 for a store to a protected word; INFO is the local address. Transfers that trap
(R107, R108): a target with bit 0 set takes ALIGN subcode 2 before any effect, and loop on w0 is a bad operand. -/
def Obligations.ScalarTraps : Prop :=
  ((∀ p ∈ aluRows, ∀ (t b a d : Nat) (s : State), Solo s →
    (2 ≤ t → Traps (p.1 t b a d) s (illeg 4)) ∧ (t = 1 → (8 ≤ b ∨ 8 ≤ a ∨ 8 ≤ d) → Traps (p.1 t b a d) s (illeg 2))) ∧
  (∀ p ∈ conRows, ∀ (t k a d : Nat) (s : State), Solo s →
    (2 ≤ t → Traps (p.1 t k a d) s (illeg 4)) ∧ (t = 1 → (8 ≤ a ∨ 8 ≤ d) → Traps (p.1 t k a d) s (illeg 2)) ∧
    (t = 1 → a < 8 → d < 8 → k % 2 = 1 → Traps (p.1 t k a d) s (illeg 4))) ∧
  (∀ (w p a d : Nat) (s : State), Solo s → 32 < p + (w + 1) → Traps (.bext w p a d) s (illeg 4) ∧ Traps (.bins w p a d) s (illeg 4))) ∧
  (∀ (o z a d : Nat) (s : State), Solo s → (self s).bar = false → z ≤ 2 ∨ (z = 3 ∧ d < 8) →
    let ea := memAddr (self s) o (2 ^ z) a
    (ea % 2 ^ z ≠ 0 → Traps (.ld o 0 z a d) s (trapOf 3 1 (ea % 2 ^ 15)) ∧ Traps (.st o 0 z a d) s (trapOf 3 1 (ea % 2 ^ 15))) ∧
    (ea % 2 ^ z = 0 → 0x6000 ≤ ea → Traps (.ld o 0 z a d) s (trapOf 4 1 (ea % 2 ^ 15)) ∧ Traps (.st o 0 z a d) s (trapOf 4 1 (ea % 2 ^ 15))) ∧
    (ea % 2 ^ z = 0 → ea < 0x400 → Traps (.st o 0 z a d) s (trapOf 4 2 (ea % 2 ^ 15))) ∧
    (ea % 2 ^ z = 0 → ea < 0x6000 → (self s).lmscr.toNat ≤ ea →
      Traps (.ld o 0 z a d) s (trapOf 4 3 (ea % 2 ^ 15)) ∧ (0x400 ≤ ea → Traps (.st o 0 z a d) s (trapOf 4 3 (ea % 2 ^ 15)))) ∧
    (ea % 2 ^ z = 0 → 0x400 ≤ ea → ea < 0x6000 → ea < (self s).lmscr.toNat → ¬ Unprotected (self s) ea (2 ^ z) →
      Traps (.st o 0 z a d) s (trapOf 4 4 (ea % 2 ^ 15)))) ∧
  ((∀ (a : Nat) (s : State), Solo s → rdW (self s) a % 2 = 1 →
    Traps (.jr a) s (trapOf 3 2 (rdW (self s) a)) ∧ Traps (.jalr a) s (trapOf 3 2 (rdW (self s) a))) ∧
  (∀ s : State, Solo s → rdW (self s) 15 % 2 = 1 → Traps .ret s (trapOf 3 2 (rdW (self s) 15))) ∧
  (∀ (o : Nat) (s : State), Solo s → Traps (.loop o 0) s (illeg 4)))

/-- Registers read back (R25 to R27): a w register, a pair, a vector or a mask that was written reads as written, w0 and m0 as their constants, x0
with a low word of zero, and every other register of its kind as before. -/
def Obligations.RegistersReadBack : Prop :=
  (∀ (c : Core) (n m v : Nat), rdW (wrW c n v) m = if m = n ∧ n ≠ 0 then v % 2 ^ 32 else rdW c m) ∧
  (∀ (c : Core) (n v : Nat), rdX (wrX c n v) n = if n = 0 then v / 2 ^ 32 % 2 ^ 32 * 2 ^ 32 else v % 2 ^ 64) ∧
  (∀ (c : Core) (n m v : Nat), m ≠ n → rdX (wrX c n v) m = rdX c m) ∧
  (∀ (c : Core) (n m v : Nat), rdV (wrV c n v) m = if m = n then v % 2 ^ 256 else rdV c m) ∧
  (∀ (c : Core) (n m v : Nat), rdM (wrM c n v) m = if m = n ∧ n ≠ 0 then v % 2 ^ 32 else rdM c m) ∧
  (∀ (c : Core) (n m v : Nat), rdE (wrE c n v) m = if m = n then v % 2 ^ 64 else rdE c m) ∧
  (∀ (c : Core) (n v : Nat), n < 8 → rdW (wrX c n v) (2 * n) = (if n = 0 then 0 else v % 2 ^ 32) ∧ rdW (wrX c n v) (2 * n + 1) = v / 2 ^ 32 % 2 ^ 32)

/-- Loads from local memory (R99, R100, R102): at a permitted address each completes with the loaded value in its register. Stores to local memory
(R99 to R102): at a permitted address each completes with the low bytes of its register at that address, and every other byte of local memory as
before. -/
def Obligations.LocalAccesses : Prop :=
  ((∀ (o sx z a d : Nat) (s : State), Solo s → LoadKind sx z d → Reachable (self s) (memAddr (self s) o (2 ^ z) a) (2 ^ z) →
    Accesses (.ld o sx z a d) s
      (wrR (self s) (if z = 3 then 1 else 0) d (loaded sx (2 ^ z) (Memory.read (self s).lm (memAddr (self s) o (2 ^ z) a) (2 ^ z)))).lm
      [spanR (self s) (if z = 3 then 1 else 0) d] (pcAfter (self s) 4)) ∧
  (∀ (o a d : Nat) (s : State), Solo s → Reachable (self s) ((rdW (self s) a + 4 * o) % 2 ^ 32) 4 →
    Accesses (.ld3216 o a d) s (wrW (self s) d (Memory.read (self s).lm ((rdW (self s) a + 4 * o) % 2 ^ 32) 4)).lm
      [spanW (self s) d] (pcAfter (self s) 2))) ∧
  ((∀ (o sx z a d : Nat) (s : State), Solo s → StoreKind sx z d → Storable (self s) (memAddr (self s) o (2 ^ z) a) (2 ^ z) →
    Accesses (.st o sx z a d) s
      (Memory.write (self s).lm (memAddr (self s) o (2 ^ z) a) (2 ^ z) (rdR (self s) (if z = 3 then 1 else 0) d))
      [(memAddr (self s) o (2 ^ z) a, 2 ^ z)] (pcAfter (self s) 4)) ∧
  (∀ (o a d : Nat) (s : State), Solo s → Storable (self s) ((rdW (self s) a + 4 * o) % 2 ^ 32) 4 →
    Accesses (.st3216 o a d) s (Memory.write (self s).lm ((rdW (self s) a + 4 * o) % 2 ^ 32) 4 (rdW (self s) d))
      [((rdW (self s) a + 4 * o) % 2 ^ 32, 4)] (pcAfter (self s) 2)))

/-- Transfers of control (R70, R105 to R107): the PC moves by twice the signed offset where the test holds, else past the instruction; call writes
w15 with the return address, loop counts wa down; nothing else changes. -/
def Obligations.Transfers : Prop :=
  (∀ p ∈ branchRows, ∀ (o b a : Nat) (s : State), Solo s → o < 2 ^ 14 →
    Completes (p.1 o b a) s (self s).lm [] (if p.2 (rdW (self s) a) (rdW (self s) b) then target (self s) 14 o else pcAfter (self s) 4)) ∧
  (∀ p ∈ zeroRows, ∀ (o a : Nat) (s : State), Solo s → o < 2 ^ p.2.2.2 →
    Completes (p.1 o a) s (self s).lm [] (if (rdW (self s) a = 0) = (p.2.1 = true) then target (self s) p.2.2.2 o else pcAfter (self s) p.2.2.1)) ∧
  (∀ (o : Nat) (s : State), Solo s → o < 2 ^ 12 → Completes (.b16 o) s (self s).lm [] (target (self s) 12 o)) ∧
  (∀ (o : Nat) (s : State), Solo s → o < 2 ^ 25 → Completes (.b o) s (self s).lm [] (target (self s) 25 o) ∧
    Completes (.call o) s (wrW (self s) 15 (pcAfter (self s) 4)).lm [spanW (self s) 15] (target (self s) 25 o)) ∧
  (∀ (o a : Nat) (s : State), Solo s → o < 2 ^ 14 → a ≠ 0 →
    Completes (.loop o a) s (wrW (self s) a (pat 32 ((rdW (self s) a : Int) - 1))).lm [spanW (self s) a]
      (if rdW (self s) a = 1 then pcAfter (self s) 4 else target (self s) 14 o)) ∧
  (∀ (a : Nat) (s : State), Solo s → rdW (self s) a % 2 = 0 →
    Completes (.jr a) s (self s).lm [] (rdW (self s) a) ∧
    Completes (.jalr a) s (wrW (self s) 15 (pcAfter (self s) 4)).lm [spanW (self s) 15] (rdW (self s) a)) ∧
  (∀ s : State, Solo s → rdW (self s) 15 % 2 = 0 → Completes .ret s (self s).lm [] (rdW (self s) 15))

/-- push and pop within the carve-out (R32, R103, R104): SP moves by the width, the value is stored at the new SP or loaded from the old one. push
and pop past the carve-out (R32 to R34, R103, R104): a misaligned SP takes ALIGN 1; a pop past SPCEIL takes SPILL 2; below SPFLOOR the access is
redirected to OVP + (SP - SPFLOOR) as a global access, its task blocked with WAIT 6 and SP as it was, or takes SPILL 1 where OVP is zero. -/
def Obligations.Stacks : Prop :=
  ((∀ (t a : Nat) (s : State), Solo s → t ≤ 1 → (t = 1 → a < 8) → sp (self s) % moved t = 0 → (spFloor (self s) : Int) ≤ sp (self s) - moved t →
    Storable (self s) (pat 32 (sp (self s) - moved t)) (moved t) →
    Accesses (.push t a) s
      (Memory.write (Memory.write (self s).lm (pat 32 (sp (self s) - moved t)) (moved t) (rdR (self s) t a)) (wsBase (self s) + 0x300) 4
        (pat 32 (sp (self s) - moved t)))
      [(pat 32 (sp (self s) - moved t), moved t), (wsBase (self s) + 0x300, 4)] (pcAfter (self s) 4)) ∧
  (∀ (t d : Nat) (s : State), Solo s → t ≤ 1 → (t = 1 → d < 8) → sp (self s) % moved t = 0 → (spFloor (self s) : Int) ≤ sp (self s) →
    sp (self s) + moved t ≤ spCeil (self s) → Reachable (self s) (pat 32 (sp (self s))) (moved t) →
    Accesses (.pop t d) s
      (wrR { self s with lm := Memory.write (self s).lm (wsBase (self s) + 0x300) 4 (pat 32 (sp (self s) + moved t)) } t d
        (Memory.read (self s).lm (pat 32 (sp (self s))) (moved t))).lm
      [(wsBase (self s) + 0x300, 4), spanR (self s) t d] (pcAfter (self s) 4))) ∧
  ((∀ (t a : Nat) (s : State), Solo s → t ≤ 1 → (t = 1 → a < 8) → (self s).bar = false → sp (self s) % moved t ≠ 0 →
    Traps (.push t a) s (trapOf 3 1 (pat 32 (sp (self s)) % 2 ^ 15)) ∧ Traps (.pop t a) s (trapOf 3 1 (pat 32 (sp (self s)) % 2 ^ 15))) ∧
  (∀ (t d : Nat) (s : State), Solo s → t ≤ 1 → (t = 1 → d < 8) → sp (self s) % moved t = 0 → (spCeil (self s) : Int) < sp (self s) + moved t →
    Traps (.pop t d) s (trapOf 12 2 (pat 32 (sp (self s))))) ∧
  (∀ (t a : Nat) (s : State), Solo s → t ≤ 1 → (t = 1 → a < 8) → sp (self s) % moved t = 0 → sp (self s) - moved t < spFloor (self s) → ovp (self s) = 0 →
    Traps (.push t a) s (trapOf 12 1 (pat 32 (sp (self s) - moved t)))) ∧
  (∀ (t d : Nat) (s : State), Solo s → t ≤ 1 → (t = 1 → d < 8) → sp (self s) % moved t = 0 → sp (self s) < spFloor (self s) →
    sp (self s) + moved t ≤ spCeil (self s) → ovp (self s) = 0 → Traps (.pop t d) s (trapOf 12 1 (pat 32 (sp (self s))))) ∧
  (∀ (t a : Nat) (s : State), Solo s → t ≤ 1 → (t = 1 → a < 8) → (self s).bar = false → sp (self s) % moved t = 0 →
    sp (self s) - moved t < spFloor (self s) → ovp (self s) ≠ 0 →
    (findTlb (rodOf s (rodOfCore s.cur)).tlb (pat 64 ((ovp (self s) : Int) + (sp (self s) - moved t) - spFloor (self s)))) = none →
    pat 64 ((ovp (self s) : Int) + (sp (self s) - moved t) - spFloor (self s)) < 2 ^ 57 →
    ∃ u, BlocksIn (.push t a) s u 6 ∧ OnlyIssues s u ∧ SameOutside [(slotBase (self s) (curSlot (self s)) + 0x50, 4)] (self s).lm (coreOf u s.cur).lm ∧
      InFlight u s.cur .store (pat 64 ((ovp (self s) : Int) + (sp (self s) - moved t) - spFloor (self s))) (moved t) (fun y => y.val = rdR (self s) t a)) ∧
  (∀ (t d : Nat) (s : State), Solo s → t ≤ 1 → (t = 1 → d < 8) → (self s).bar = false → sp (self s) % moved t = 0 →
    sp (self s) < spFloor (self s) → sp (self s) + moved t ≤ spCeil (self s) → ovp (self s) ≠ 0 →
    (findTlb (rodOf s (rodOfCore s.cur)).tlb (pat 64 ((ovp (self s) : Int) + sp (self s) - spFloor (self s)))) = none →
    pat 64 ((ovp (self s) : Int) + sp (self s) - spFloor (self s)) < 2 ^ 57 →
    ∃ u, BlocksIn (.pop t d) s u 6 ∧ OnlyIssues s u ∧ SameOutside [(slotBase (self s) (curSlot (self s)) + 0x50, 4)] (self s).lm (coreOf u s.cur).lm ∧
      InFlight u s.cur .load (pat 64 ((ovp (self s) : Int) + sp (self s) - spFloor (self s))) (moved t) (fun y => y.dest = t ∧ y.reg = d)))

/-- Special registers are read (R110, R111): ctl.get of each register of Table 3.18 on a compute core; no other name or width is one. EMSET reads
as it was written, bits 120 to 127 included (the model's reading, log 23). -/
def Obligations.SpecialRegistersRead : Prop :=
  (∀ p ∈ srNames, ∀ (d : Nat) (s : State), Solo s → (self s).bar = false → (p.1 = 1 → d < 8) →
    Completes (.ctlGet p.1 p.2 d) s (wrR (self s) p.1 d (srHolds s p.2)).lm [spanR (self s) p.1 d] (pcAfter (self s) 4)) ∧
  (∀ (w n d : Nat) (s : State), Solo s → w ≤ 1 → (w, n) ∉ srNames → (w = 1 → d < 8) → Traps (.ctlGet w n d) s (illeg 4))

/-- Special registers are written (R21 to R23, R31, R41, R49, R110, R112, R334): what a ctl.set of each does on a compute core. A write of WSP keeps
the PC save of the workspace that is left (the model's reading, log 39); the workspaces that bound LMSPILL are those of slots with a task (the model's
choice, log 71). Values refused: a WSP that is no slot base takes LMBOUND 5; a division that is not valid, an LMSPILL below a task's carve-out, a
change of LMSPILL or LMSCR within a bound co-launched set, and a bad TVEC take ILLEG 4. ctl.set refused (R110, Table 3.18): a register that is not
written so is a bad operand; WSP, TVEC, LMSPILL, LMSCR, LML1 and ROD.WEIGHT take PRIV subcode 2 from an unprivileged task. -/
def Obligations.SpecialRegistersWrite : Prop :=
  (∀ (a : Nat) (s : State), Solo s → (self s).bar = false →
    (isPriv (self s) = true → ∀ b, b = kib (rdW (self s) a) → isSlotBase (self s) b = true → b ≠ (self s).wsp.toNat →
      ∃ t, exec (.ctlSet 0 0x10 a) s = .next t ∧ (coreOf t s.cur).wsp.toNat = b ∧
        (coreOf t s.cur).lm = Memory.write (self s).lm (wsBase (self s) + 0x54) 4 (pcAfter (self s) 4)) ∧
    (isPriv (self s) = true → kib (rdW (self s) a) = (self s).wsp.toNat → isSlotBase (self s) (kib (rdW (self s) a)) = true →
      SetsAs (.ctlSet 0 0x10 a) s (self s) (pcAfter (self s) 4)) ∧
    (isPriv (self s) = true → TvecOk (self s) (rdW (self s) a) →
      SetsAs (.ctlSet 0 0x11 a) s { self s with tvec := BitVec.ofNat 32 (rdW (self s) a / 2 ^ 10 * 2 ^ 10) } (pcAfter (self s) 4)) ∧
    SetsAs (.ctlSet 0 0x12 a) s { self s with lm := Memory.write (self s).lm (wsBase (self s) + 0x320) 4 (rdW (self s) a % 32) } (pcAfter (self s) 4) ∧
    SetsAs (.ctlSet 0 0x13 a) s { self s with lm := Memory.write (self s).lm (wsBase (self s) + 0x324) 4 (rdW (self s) a % 8) } (pcAfter (self s) 4) ∧
    (isPriv (self s) = true → Division (kib (rdW (self s) a)) (self s).lmscr.toNat (self s).lml1.toNat → AboveTasks (self s) (kib (rdW (self s) a)) →
      ¬ InBoundSet s s.cur ∨ kib (rdW (self s) a) = (self s).lmspill.toNat →
      SetsAs (.ctlSet 0 0x14 a) s { self s with lmspill := BitVec.ofNat 32 (kib (rdW (self s) a)) } (pcAfter (self s) 4)) ∧
    (isPriv (self s) = true → Division (self s).lmspill.toNat (kib (rdW (self s) a)) (self s).lml1.toNat →
      ¬ InBoundSet s s.cur ∨ kib (rdW (self s) a) = (self s).lmscr.toNat →
      SetsAs (.ctlSet 0 0x15 a) s { self s with lmscr := BitVec.ofNat 32 (kib (rdW (self s) a)) } (pcAfter (self s) 4)) ∧
    (isPriv (self s) = true → Division (self s).lmspill.toNat (self s).lmscr.toNat (kib (rdW (self s) a)) → kib (rdW (self s) a) ≠ (self s).lml1.toNat →
      ∃ x, SetsAs (.ctlSet 0 0x16 a) s x (pcAfter (self s) 4) ∧
        x = { self s with lm := x.lm, lml1 := BitVec.ofNat 32 (kib (rdW (self s) a)), l1 := [], l1Gen := x.l1Gen } ∧
        SameOutside [((self s).lml1.toNat, kib (rdW (self s) a) - (self s).lml1.toNat)] (self s).lm x.lm) ∧
    (isPriv (self s) = true → ∃ t, exec (.ctlSet 0 0x31 a) s = .next t ∧ (rodOf t (rodOfCore s.cur)).weight.toNat = rdW (self s) a ∧
      (coreOf t s.cur).lm = (self s).lm) ∧
    (∃ t, exec (.ctlSet 0 0x38 a) s = .next t ∧ (coreOf t s.cur).stall0.toNat = rdW (self s) a ∧ (coreOf t s.cur).lm = (self s).lm) ∧
    (∃ t, exec (.ctlSet 0 0x39 a) s = .next t ∧ (coreOf t s.cur).stall1.toNat = rdW (self s) a ∧ (coreOf t s.cur).lm = (self s).lm) ∧
    (∃ t, exec (.ctlSet 0 0x3A a) s = .next t ∧ (coreOf t s.cur).stall2.toNat = rdW (self s) a ∧ (coreOf t s.cur).lm = (self s).lm) ∧
    SetsAs (.ctlSet 0 0x3B a) s { self s with pinBypass := BitVec.ofNat 32 (rdW (self s) a) } (pcAfter (self s) 4) ∧
    SetsAs (.ctlSet 0 0x3C a) s { self s with spillRedir := BitVec.ofNat 32 (rdW (self s) a) } (pcAfter (self s) 4)) ∧
  (∀ (a : Nat) (s : State), Solo s → (self s).bar = false → isPriv (self s) = true → let v := kib (rdW (self s) a)
    let c := self s
    (isSlotBase c v = false → SetTraps (.ctlSet 0 0x10 a) s (trapOf 4 5 (rdW c a % 2 ^ 15))) ∧
    (¬ TvecOk c (rdW c a) → SetTraps (.ctlSet 0 0x11 a) s (illeg 4)) ∧
    (¬ Division v c.lmscr.toNat c.lml1.toNat ∨ ¬ AboveTasks c v ∨ (InBoundSet s s.cur ∧ v ≠ c.lmspill.toNat) → SetTraps (.ctlSet 0 0x14 a) s (illeg 4)) ∧
    (¬ Division c.lmspill.toNat v c.lml1.toNat ∨ (InBoundSet s s.cur ∧ v ≠ c.lmscr.toNat) → SetTraps (.ctlSet 0 0x15 a) s (illeg 4)) ∧
    (¬ Division c.lmspill.toNat c.lmscr.toNat v → SetTraps (.ctlSet 0 0x16 a) s (illeg 4))) ∧
  (∀ (a : Nat) (s : State), Solo s → (self s).bar = false →
    (∀ w n, w ≤ 1 → (w = 1 → a < 8) → (w = 0 → n ∉ [0x10, 0x11, 0x12, 0x13, 0x14, 0x15, 0x16, 0x31, 0x38, 0x39, 0x3A, 0x3B, 0x3C]) →
      SetTraps (.ctlSet w n a) s (illeg 4)) ∧
    (isPriv (self s) = false → ∀ n ∈ [0x10, 0x11, 0x14, 0x15, 0x16, 0x31], SetTraps (.ctlSet 0 n a) s (trapOf 8 2 0)))

/-- Extension registers, nop, brk and the vector prefix (R75, R113, R114). -/
def Obligations.ExtensionAndPrefix : Prop :=
  (∀ (a d : Nat) (s : State), Solo s → a < 8 → d < 8 →
    Completes (.extSet a d) s (wrE (self s) d (rdX (self s) a)).lm [spanE (self s) d] (pcAfter (self s) 4) ∧
    Completes (.extGet a d) s (wrX (self s) d (rdE (self s) a)).lm [spanX (self s) d] (pcAfter (self s) 4)) ∧
  (∀ (a d : Nat) (s : State), Solo s → 8 ≤ a ∨ 8 ≤ d → Traps (.extSet a d) s (illeg 2) ∧ Traps (.extGet a d) s (illeg 2)) ∧
  (∀ s : State, Solo s → Completes .nop s (self s).lm [] (pcAfter (self s) 4) ∧ Completes .nop16 s (self s).lm [] (pcAfter (self s) 2)) ∧
  (∀ (n : Nat) (s : State), Solo s → Traps (.brk n) s (trapOf 10 n 0)) ∧
  (∀ (c r z m : Nat) (s : State) (w : Nat), (self s).pfx = none →
    ∀ n, n ≠ 0 → imageWord (imageOf s s.cur) (((slotAt (self s) (curSlot (self s))).pc + 4) % 2 ^ 32) = (n, w) →
    let t := setCore s s.cur { self s with pfx := some (0x3D + m * 2 ^ 7 + z * 2 ^ 10 + r * 2 ^ 11 + c * 2 ^ 14) }
    exec (.vectorPrefix c r z m) s =
      .next (if n = 4 ∧ 0x16 ≤ w / 2 % 64 ∧ w / 2 % 64 ≤ 0x1D then { t with turn := some s.cur } else trapNow { cause := 1, sub := 3, pfxOnly := true } t))

/-- The element rule (R118, R119): an active element receives its result, an inactive one zero or its old value; the flags are those of the active
elements together. -/
def Obligations.ElementRule : Prop :=
  ∀ (w k mask z old : Nat) (f : Nat → Nat × Nat), 0 < w →
    (∀ i, i < k → lane w (elements w k mask z old f).1 i = if mask / 2 ^ i % 2 = 1 then (f i).1 % 2 ^ w else if z = 1 then 0 else lane w old i) ∧
    (∀ b, (elements w k mask z old f).2.testBit b = (List.range k).any fun i => mask.testBit i && (f i).2.testBit b)

/-- Arithmetic on elements (R117 to R120): of two operands, fused, of one operand. The function unit and vexpr (R59, R132 to R136): each element
through the function of its code, or through the expression; what its tokens are, which expressions are well formed (R134), and what each token
does to the stack, with the constants still to come and the flags so far. -/
def Obligations.VectorArithmetic : Prop :=
  ((∀ p ∈ vecRows, ∀ (v t b a d : Nat) (s : State), Solo s → t ≤ 2 ∨ (5 ≤ t ∧ t ≤ 10) → v = 0 ∨ (v = 1 ∧ p.2.1 = true ∧ 5 ≤ t) →
    PrefixTaken (self s) true true (p.2.2.1 && decide (t ≤ 2)) false →
    Elementwise (p.1 v t b a d) s (typeWidth t) d fun i => p.2.2.2 t (roundMode (self s)) (v == 1) (el s t a i) (el s t b i)) ∧
  (∀ p ∈ fusedRows, ∀ (t b a d : Nat) (s : State), Solo s → t ≤ 2 ∨ (5 ≤ t ∧ t ≤ 10) → PrefixTaken (self s) true true (decide (t ≤ 2)) true →
    Elementwise (p.1 t b a d) s (typeWidth t) d fun i =>
      fused t (roundMode (self s)) p.2.1 p.2.2 (el s t a i) (el s t b i) (el s t (if (self s).pfx.isSome then pfxVc (self s) else d) i)) ∧
  (∀ (v t a d : Nat) (s : State), Solo s → t ≤ 2 ∧ v = 0 ∨ (5 ≤ t ∧ t ≤ 7 ∧ v ≤ 1) → PrefixTaken (self s) true true false false →
    (Elementwise (.vabs v t a d) s (typeWidth t) d fun i =>
      (if t ≤ 2 then el s t a i % 2 ^ (typeWidth t - 1) else wrapOrSat t (v == 1) (intVal t (el s t a i)).natAbs, 0)) ∧
    (Elementwise (.vneg v t a d) s (typeWidth t) d fun i =>
      (if t ≤ 2 then (el s t a i + 2 ^ (typeWidth t - 1)) % 2 ^ typeWidth t else wrapOrSat t (v == 1) (-intVal t (el s t a i)), 0)))) ∧
  ((∀ p ∈ functionRows.zip (List.range 12), ∀ (t a d : Nat) (s : State), Solo s → t ≤ 2 → PrefixTaken (self s) true true false false →
    Elementwise (p.1 t a d) s (typeWidth t) d fun j => funcUnit p.2 t (el s t a j)) ∧
  (∀ (e t b a d : Nat) (s : State), Solo s → t ≤ 2 → PrefixTaken (self s) true true true true →
    let ts := tokens (rdE (self s) e)
    exprOk ts 0 = true → opCount ts ≤ 7 → e + 1 + (constCount ts + 1) / 2 ≤ 8 →
    Elementwise (.vexpr e t b a d) s (typeWidth t) d fun i =>
      evalExpr t (roundMode (self s))
        (fun tok => el s t (if tok = 0 then a else if tok = 1 then b else if tok = 2 then d else if (self s).pfx.isSome then pfxVc (self s) else d) i)
        ts ((List.range (constCount ts)).map fun q => rdE (self s) (e + 1 + q / 2) / 2 ^ (32 * (q % 2)) % 2 ^ typeWidth t) [] 0)) ∧
  ((∀ v, tokens v = ((List.range 16).map fun i => v / 2 ^ (4 * i) % 2 ^ 4).takeWhile fun tok => tok != 15) ∧
  (∀ (tok depth : Nat) (ts : List Nat), depth ≤ 4 → exprOk [] depth = decide (depth = 1) ∧
    (exprOk (tok :: ts) depth = true ↔
      let need := if tok ≤ 4 then 0 else if tok = 8 then 3 else if 11 ≤ tok then 1 else 2
      need ≤ depth ∧ depth - need + 1 ≤ 4 ∧ exprOk ts (depth - need + 1) = true)) ∧
  (∀ (t fl : Nat) (m : RMode) (inp : Nat → Nat) (ts ks st : List Nat), t ≤ 2 →
    let run := evalExpr t m inp
    (∀ x, run [] ks (x :: st) fl = (x, fl)) ∧ (∀ tok, tok ≤ 3 → run (tok :: ts) ks st fl = run ts ks (inp tok :: st) fl) ∧
    (∀ k, run (4 :: ts) (k :: ks) st fl = run ts ks (k :: st) fl) ∧
    (∀ p ∈ exprRows, ∀ x y z, let r := p.2.2 t m x y z
      run (p.1 :: ts) ks ([z, y, x].take p.2.1 ++ st) fl = run ts ks (r.1 :: st) (Nat.lor fl r.2))))

/-- Bitwise instructions, shifts, vsel and the moves (R121, R123, R126). Mask operations (R139): no prefix field is taken. -/
def Obligations.VectorBitsAndMasks : Prop :=
  ((∀ p ∈ bitRows, ∀ (t b a d : Nat) (s : State), Solo s → 5 ≤ t → t ≤ 10 → PrefixTaken (self s) true true false false →
    Elementwise (p.1 t b a d) s (typeWidth t) d fun i => (p.2 (typeWidth t) (el s t a i) (el s t b i), 0)) ∧
  (∀ p ∈ shiftRows, ∀ (v t b a d : Nat) (s : State), Solo s → 5 ≤ t → t ≤ 10 → v ≤ 1 → PrefixTaken (self s) true true false false →
    Elementwise (p.1 v t b a d) s (typeWidth t) d fun i =>
      (p.2 (typeWidth t) (el s t a i) (if v = 1 then rdW (self s) b else el s t b i), 0)) ∧
  (∀ (m t b a d : Nat) (s : State), Solo s → t ≤ 11 → PrefixTaken (self s) true true false false →
    (Elementwise (.vsel m t b a d) s (typeWidth t) d fun i => (if rdM (self s) m / 2 ^ i % 2 = 1 then el s t a i else el s t b i, 0)) ∧
    (Elementwise (.vmov t a d) s (typeWidth t) d fun i => (el s t a i, 0)) ∧
    (Elementwise (.vsplat t a d) s (typeWidth t) d fun _ => (rdW (self s) a % 2 ^ typeWidth t, 0)) ∧
    (Elementwise (.vperm t b a d) s (typeWidth t) d fun i => (el s t a (el s t b i % (256 / typeWidth t)), 0))) ∧
  (∀ (h t j a d : Nat) (s : State), Solo s → t ≤ 11 → h * 16 + j < 256 / typeWidth t → PrefixTaken (self s) true true false false →
    (Elementwise (.vbcast h t j a d) s (typeWidth t) d fun _ => (el s t a (h * 16 + j), 0)) ∧
    (Elementwise (.vrot h t j a d) s (typeWidth t) d fun i => (el s t a ((i + (h * 16 + j)) % (256 / typeWidth t)), 0))) ∧
  (∀ (v t b a d : Nat) (s : State), Solo s → t ≤ 11 → v ≤ 1 → PrefixTaken (self s) true true false false →
    (Elementwise (.vzip v t b a d) s (typeWidth t) d fun i => (el s t (if i % 2 = 0 then a else b) (v * (256 / typeWidth t / 2) + i / 2), 0)) ∧
    (Elementwise (.vunzip v t b a d) s (typeWidth t) d fun i =>
      (if i < 256 / typeWidth t / 2 then el s t a (2 * i + v) else el s t b (2 * (i - 256 / typeWidth t / 2) + v), 0)))) ∧
  (∀ (b a d : Nat) (s : State), Solo s → PrefixTaken (self s) false false false false →
    (Completes (.mand b a d) s (wrM (self s) d (Nat.land (rdM (self s) a) (rdM (self s) b))).lm [spanM (self s) d] (pcAfter (self s) 4)) ∧
    (Completes (.mor b a d) s (wrM (self s) d (Nat.lor (rdM (self s) a) (rdM (self s) b))).lm [spanM (self s) d] (pcAfter (self s) 4)) ∧
    (Completes (.mxor b a d) s (wrM (self s) d (Nat.xor (rdM (self s) a) (rdM (self s) b))).lm [spanM (self s) d] (pcAfter (self s) 4)) ∧
    (Completes (.mnot a d) s (wrM (self s) d (2 ^ 32 - 1 - rdM (self s) a)).lm [spanM (self s) d] (pcAfter (self s) 4)) ∧
    (Completes (.mset a d) s (wrM (self s) d (rdW (self s) a)).lm [spanM (self s) d] (pcAfter (self s) 4)) ∧
    (∀ t, t ≤ 11 → Completes (.mpop t a d) s
      (wrW (self s) d ((List.range (256 / typeWidth t)).filter fun i => (rdM (self s) a).testBit i).length).lm [spanW (self s) d] (pcAfter (self s) 4)) ∧
    (∀ t, t ≤ 11 → Completes (.mfirst t a d) s
      (wrW (self s) d (((List.range (256 / typeWidth t)).find? fun i => (rdM (self s) a).testBit i).getD (2 ^ 32 - 1))).lm [spanW (self s) d]
      (pcAfter (self s) 4)))

/-- Compare, convert, reduce and dot product (R122, R124, R125, R127, R128). -/
def Obligations.VectorCompareConvertReduce : Prop :=
  (∀ (cond t b a d : Nat) (s : State), Solo s → t ≤ 2 ∨ (5 ≤ t ∧ t ≤ 10) → cond ≤ 5 ∨ (cond = 6 ∧ t ≤ 2) → PrefixTaken (self s) true true false false →
    let q := elements 1 (256 / typeWidth t) (activeMask (self s)) (pfxZ (self s)) (rdM (self s) d)
      fun i => (b2n (cmpE cond t (el s t a i) (el s t b i)).1, (cmpE cond t (el s t a i) (el s t b i)).2)
    Completes (.vcmp cond t b a d) s (raise (wrM (self s) d q.1) q.2).lm [spanM (self s) d, spanFstat (self s)] (pcAfter (self s) 4)) ∧
  (∀ (cond t x y : Nat), 5 ≤ t → cmpE cond t x y = (match cond with
    | 0 => decide (intVal t x = intVal t y) | 1 => decide (intVal t x ≠ intVal t y) | 2 => decide (intVal t x < intVal t y)
    | 3 => decide (intVal t x ≤ intVal t y) | 4 => decide (intVal t y < intVal t x) | _ => decide (intVal t y ≤ intVal t x), 0)) ∧
  (∀ (p sat t b a d : Nat) (s : State), Solo s → cvtBad t b sat = false → PrefixTaken (self s) true true true false →
    let ks := 256 / typeWidth t
    let kd := 256 / typeWidth b
    (if ks = kd then p = 0 else p < max (kd / ks) (ks / kd)) →
    let lo := if ks < kd then p * ks else 0
    let from_ := if kd < ks then p * kd else 0
    ∃ q : Nat × Nat,
      (∀ j, j < kd → lane (typeWidth b) q.1 j =
        if lo ≤ j ∧ j < lo + min ks kd then
          (if activeMask (self s) / 2 ^ j % 2 = 1 then
            (convert t b (roundMode (self s)) (sat == 1) (el s t a (from_ + j - lo))).1 % 2 ^ typeWidth b
           else if pfxZ (self s) = 1 then 0 else el s b d j)
        else el s b d j) ∧
      (∀ f, q.2.testBit f = (List.range kd).any fun j => decide (lo ≤ j ∧ j < lo + min ks kd) && (activeMask (self s)).testBit j &&
        (convert t b (roundMode (self s)) (sat == 1) (el s t a (from_ + j - lo))).2.testBit f) ∧
      Completes (.vcvt p sat t b a d) s (raise (wrV (self s) d q.1) q.2).lm [spanV (self s) d, spanFstat (self s)] (pcAfter (self s) 4)) ∧
  (∀ (v t a d : Nat) (s : State), Solo s → t ≤ 2 ∨ (5 ≤ t ∧ t ≤ 10) → v ≤ 2 → PrefixTaken (self s) true false (decide (t ≤ 2)) false →
    let q := halves (reducer v t (roundMode (self s)))
      (fun i => if activeMask (self s) / 2 ^ i % 2 = 1 then some (if t ≤ 2 then el s t a i else pat 32 (intVal t (el s t a i))) else none)
      (Nat.log2 (256 / typeWidth t)) 0
    Completes (.vred v t a d) s (raise (wrW (self s) d (q.1.getD 0)) q.2).lm [spanW (self s) d, spanFstat (self s)] (pcAfter (self s) 4) ∧
      (v = 0 → 5 ≤ t → q.1.getD 0 = pat 32 ((List.range (256 / typeWidth t)).foldl
        (fun (x : Int) i => if activeMask (self s) / 2 ^ i % 2 = 1 then x + intVal t (el s t a i) else x) 0))) ∧
  (∀ (t b a d : Nat) (s : State), Solo s → t ≤ 4 ∨ t = 7 → PrefixTaken (self s) true true false true →
    Elementwise (.vdot t b a d) s 32 d fun j =>
      let acc := lane 32 (rdV (self s) (if (self s).pfx.isSome then pfxVc (self s) else d)) j
      let x := lane 32 (rdV (self s) a) j
      let y := lane 32 (rdV (self s) b) j
      if t = 7 then
        (pat 32 ((List.range 4).foldl (fun (z : Int) i => z + sgn 8 (x / 2 ^ (8 * i) % 2 ^ 8) * sgn 8 (y / 2 ^ (8 * i) % 2 ^ 8)) (acc : Int)), 0)
      else dotFP acc 16 ((List.range (32 / typeWidth t)).map fun i =>
        (unpack (fmtOf t) (lane (typeWidth t) x i), unpack (fmtOf t) (lane (typeWidth t) y i))))

/-- Vector access to local memory (R29, R129 to R131): rows by register and offset, by pointer, and by element. -/
def Obligations.VectorMemory : Prop :=
  (∀ (h t o a d : Nat) (s : State), Solo s → t ≤ 11 →
    let ea := pat 32 ((rdW (self s) a : Int) + 32 * sgn 7 (h * 16 + o))
    (PrefixTaken (self s) true true false false → Reachable (self s) ea 32 →
      LoadsElements (.vld h t o a d) s (typeWidth t) d fun i => lane (typeWidth t) (Memory.read (self s).lm ea 32) i) ∧
    (PrefixTaken (self s) true false false false → Storable (self s) ea 32 →
      Accesses (.vst h t o a d) s
        (Memory.write (self s).lm ea 32 (elements (typeWidth t) (256 / typeWidth t) (activeMask (self s)) 0 (Memory.read (self s).lm ea 32)
          fun i => (el s t d i, 0)).1) [(ea, 32)] (pcAfter (self s) 4))) ∧
  (∀ (t a d : Nat) (s : State), Solo s → t ≤ 11 → a < 4 →
    let ea := streamAddr (self s) a
    (PrefixTaken (self s) true true false false → Reachable (self s) ea 32 →
      Accesses (.vldp t a d) s
        (wrP { self s with lm := (wrV (self s) d (ruled (self s) (typeWidth t) d fun i => (lane (typeWidth t) (Memory.read (self s).lm ea 32) i, 0)).1).lm }
          a (stepped (self s) (rdP (self s) a))).lm [spanV (self s) d, spanP (self s) a] (pcAfter (self s) 4)) ∧
    (PrefixTaken (self s) true false false false → Storable (self s) ea 32 →
      Accesses (.vstp t a d) s
        (wrP { self s with lm := Memory.write (self s).lm ea 32 (elements (typeWidth t) (256 / typeWidth t) (activeMask (self s)) 0
          (Memory.read (self s).lm ea 32) fun i => (el s t d i, 0)).1 } a (stepped (self s) (rdP (self s) a))).lm
        [(ea, 32), spanP (self s) a] (pcAfter (self s) 4))) ∧
  (∀ (t b a d : Nat) (s : State), Solo s → t ≤ 11 →
    let w := typeWidth t
    let ea (i : Nat) := (rdW (self s) a + el s t b i * (w / 8)) % 2 ^ 32
    let active := (List.range (256 / w)).filter fun i => activeMask (self s) / 2 ^ i % 2 == 1
    (PrefixTaken (self s) true true false false → (∀ i ∈ active, Reachable (self s) (ea i) (w / 8)) →
      LoadsElements (.vgath t b a d) s w d fun i => Memory.read (self s).lm (ea i) (w / 8)) ∧
    (PrefixTaken (self s) true false false false → (∀ i ∈ active, Storable (self s) (ea i) (w / 8)) →
      Accesses (.vscat t b a d) s (active.foldl (fun m i => Memory.write m (ea i) (w / 8) (el s t d i)) (self s).lm)
        (active.map fun i => (ea i, w / 8)) (pcAfter (self s) 4)))

/-- Stream forms (R29, R137, R138): rows at the pointers read, each pointer moved as it is used, the result at the pointer written, the flags set. -/
def Obligations.StreamForms : Prop :=
  (∀ p ∈ streamRows, ∀ (v t b a d : Nat) (s : State), Solo s → t ≤ 2 ∨ (5 ≤ t ∧ t ≤ 10) → v = 0 ∨ (v = 1 ∧ p.2.1 = true ∧ 5 ≤ t) →
    PrefixTaken (self s) false false (decide (t ≤ 2)) false →
    Streams (p.1 v t b a d) s [a, b] d (typeWidth t) fun row i => p.2.2 t (roundMode (self s)) (v == 1)
      (lane (typeWidth t) (row 0) i) (lane (typeWidth t) (row 1) i)) ∧
  (∀ (n t b a d : Nat) (s : State), Solo s → t ≤ 2 ∨ (5 ≤ t ∧ t ≤ 10) → PrefixTaken (self s) false false (decide (t ≤ 2)) false →
    Streams (.sopFma n t b a d) s [a, b] d (typeWidth t) fun row i => fused t (roundMode (self s)) false false
      (lane (typeWidth t) (row 0) i) (rdW (self s) n % 2 ^ typeWidth t) (lane (typeWidth t) (row 1) i)) ∧
  (∀ (sat t b a d : Nat) (s : State), Solo s → cvtBad t b sat = false → PrefixTaken (self s) false false true false →
    (typeWidth b = typeWidth t → Streams (.sopCvt sat t b a d) s [a] d (typeWidth b) fun row i =>
      convert t b (roundMode (self s)) (sat == 1) (lane (typeWidth t) (row 0) i)) ∧
    (2 * typeWidth b = typeWidth t → Streams (.sopCvt sat t b a d) s [a, a] d (typeWidth b) fun row i =>
      convert t b (roundMode (self s)) (sat == 1) (lane (typeWidth t) (row (i / (256 / typeWidth t))) (i % (256 / typeWidth t)))))

/-- Vector instructions that trap (R67, R118): a prefix field that is not taken takes ILLEG 3; a type outside the class, an element number that
does not exist and a malformed expression (R134, R135) take ILLEG 4. Curve-key instructions that trap (R145, R156): type 7 and a box at x7 are bad
operands, a pair field of 8 or more has its reserved bit set; the runs of a split begin on 16 bytes and stay within local memory; which failure is
reported is the model's choice (log 70). -/
def Obligations.VectorAndKeyTraps : Prop :=
  ((∀ p ∈ vecRows, ∀ (t b a d : Nat) (s : State), Solo s →
    (pfxVc (self s) ≠ 0 → Traps (p.1 0 t b a d) s (illeg 3)) ∧
    ((self s).pfx = none → (t = 3 ∨ t = 4 ∨ 11 ≤ t) → Traps (p.1 0 t b a d) s (illeg 4)) ∧
    (pfxVc (self s) = 0 → pfxRound (self s) ≠ 0 → (p.2.2.1 = false ∨ 3 ≤ t) → Traps (p.1 0 t b a d) s (illeg 3))) ∧
  (∀ p ∈ bitRows, ∀ (t b a d : Nat) (s : State), Solo s → (self s).pfx = none → t ≤ 4 ∨ 11 ≤ t → Traps (p.1 t b a d) s (illeg 4)) ∧
  (∀ (t b a d : Nat) (s : State), Solo s → pfxMask (self s) ≠ 0 →
    Traps (.mand b a d) s (illeg 3) ∧ Traps (.mpop t a d) s (illeg 3) ∧ Traps (.sopAdd 0 t 0 0 0) s (illeg 3)) ∧
  (∀ (h t j a d : Nat) (s : State), Solo s → (self s).pfx = none → t ≤ 11 → 256 / typeWidth t ≤ h * 16 + j →
    Traps (.vbcast h t j a d) s (illeg 4) ∧ Traps (.vrot h t j a d) s (illeg 4)) ∧
  (∀ (t a d : Nat) (s : State), Solo s → (self s).pfx = none → 4 ≤ a → Traps (.vldp t a d) s (illeg 2) ∧ Traps (.vstp t a d) s (illeg 2)) ∧
  (∀ (e t b a d : Nat) (s : State), Solo s → (self s).pfx = none →
    let ts := tokens (rdE (self s) e)
    3 ≤ t ∨ exprOk ts 0 = false ∨ 7 < opCount ts ∨ 8 < e + 1 + (constCount ts + 1) / 2 → Traps (.vexpr e t b a d) s (illeg 4))) ∧
  ((∀ (m b a d : Nat) (s : State), Solo s → b < 7 → a < 8 → d < 8 →
    Traps (.ckMk m 7 a d) s (illeg 4) ∧ Traps (.ckAdd m 7 b a d) s (illeg 4) ∧ Traps (.ckSub m 7 b a d) s (illeg 4) ∧
    Traps (.ckNext m 7 b a d) s (illeg 4) ∧ Traps (.ckPrev m 7 b a d) s (illeg 4) ∧ Traps (.ckClip m 7 b a d) s (illeg 4) ∧
    Traps (.ckChk 7 a d) s (illeg 4) ∧ Traps (.ckInbox 7 b a d) s (illeg 4) ∧ Traps (.vckAdd m 7 b a d) s (illeg 4)) ∧
  (∀ (m t a d : Nat) (s : State), Solo s → t ≤ 6 → a < 8 → d < 8 →
    Traps (.ckInbox t 7 a d) s (illeg 4) ∧ Traps (.ckNext m t 7 a d) s (illeg 4) ∧ Traps (.ckPrev m t 7 a d) s (illeg 4) ∧
    Traps (.ckClip m t 7 a d) s (illeg 4) ∧ Traps (.ckSplit m t 7 a d) s (illeg 4)) ∧
  (∀ (m t b a d : Nat) (s : State), Solo s → 8 ≤ a → Traps (.ckAdd m t b a d) s (illeg 2) ∧ Traps (.ckChk t a d) s (illeg 2) ∧
    Traps (.ckSplit m t b a d) s (illeg 2)) ∧
  (∀ (t ix a d : Nat) (s : State), Solo s → a < 8 → t + 2 ≤ ix → Traps (.ckAx t ix a d) s (illeg 4)) ∧
  (∀ (m t b a d : Nat) (s : State), Solo s → t ≤ 6 → b < 7 → a < 8 → (self s).bar = false →
    let at_ := rdW (self s) m % 2 ^ 15
    let n := rdW (self s) m / 2 ^ 16
    (at_ % 16 ≠ 0 → Traps (.ckSplit m t b a d) s (trapOf 3 1 at_)) ∧
    (at_ % 16 = 0 → n ≠ 0 → 0x6000 < at_ + 16 * n → Traps (.ckSplit m t b a d) s (trapOf 4 1 at_))))

/-- Floating point (R43, R45, R47, R50, R52, R120, R122): a NaN operand gives the canonical NaN, and NV if it signals; a value of a format rounds
to itself with no flag; sums and products are exact before they are rounded; a count of quanta is the nearest, ties to even, or the one that the
mode directs to; a value in range rounds to quanta, with NX and, below the smallest normal value, UF; an overflow of FP32, BF16 or FP16 gives what
R43 and R52 say of it; compares, minima and maxima follow the order of the values. Conversions (R52 to R58, Tables 2.7 and 2.9): floating point to
floating point rounds, a widening conversion is exact; NaNs, infinities and values out of range; floating point to integer, integer to floating
point, integer to integer, and weights. The special operands of the function unit (R59, Table 2.10): infinities and zeros, negative arguments, the
logarithm of 1, NaNs. Dot products (R60 to R62): a group's step gives a NaN, an infinity, a zero, or the sum of its terms, each cut at 2^31 below
the largest, rounded with RNE; groups run in order, the accumulator a term of the first. -/
def Obligations.FloatingPoint : Prop :=
  ((∀ (t m x y : Nat), t ≤ 2 → (unpack (fmtOf t) x).isNan = true ∨ (unpack (fmtOf t) y).isNan = true →
    let fl := if (unpack (fmtOf t) x).isSig = true ∨ (unpack (fmtOf t) y).isSig = true then 1 else 0
    addE t (rmode m) false x y = ((fmtOf t).nan, fl) ∧ subE t (rmode m) false x y = ((fmtOf t).nan, fl) ∧
    mulE t (rmode m) x y = ((fmtOf t).nan, fl) ∧ minE t x y = ((fmtOf t).nan, fl) ∧ maxE t x y = ((fmtOf t).nan, fl)) ∧
  (∀ (t v : Nat) (m : RMode), t ≤ 2 → v < 2 ^ typeWidth t → (unpack (fmtOf t) v).isNan = false → packF (fmtOf t) m (unpack (fmtOf t) v) = (v, 0)) ∧
  (∀ (m sh : Nat) (e : Int) (neg : Bool), 0 < sh →
    let u := 2 ^ sh
    let k (r : RMode) := (quantize r neg m e (e + sh)).1
    (2 * (k .rne * u) ≤ 2 * m + u ∧ 2 * m ≤ 2 * (k .rne * u) + u ∧ (2 * (k .rne * u) = 2 * m + u ∨ 2 * m = 2 * (k .rne * u) + u → k .rne % 2 = 0)) ∧
    (2 * (k .rna * u) ≤ 2 * m + u ∧ 2 * m < 2 * (k .rna * u) + u) ∧
    (k .rtz * u ≤ m ∧ m < (k .rtz + 1) * u) ∧
    k .rdn = (if neg then (m + u - 1) / u else m / u) ∧ k .rup = (if neg then m / u else (m + u - 1) / u) ∧
    ∀ r, ((quantize r neg m e (e + sh)).2 = true ↔ m % u ≠ 0)) ∧
  (∀ (t : Nat) (n : Bool) (m : Nat) (e : Int) (r : RMode), t ≤ 2 → FloatOf t r false n m e (packF (fmtOf t) r (.fin n m e))) ∧
  (∀ (r : RMode) (s t : Bool) (m n : Nat) (e g : Int),
    mulNum (.fin s m e) (.fin t n g) = (.fin (s != t) (m * n) (e + g), 0) ∧
    (m = 0 → mulNum (.fin s m e) (.inf t) = (.nan false, 1) ∧ mulNum (.inf t) (.fin s m e) = (.nan false, 1)) ∧
    addNum r (.inf s) (.inf t) = (if s = t then (.inf s, 0) else (.nan false, 1)) ∧
    ∃ z k x, addNum r (.fin s m e) (.fin t n g) = (.fin z k x, 0) ∧
      (∀ q, q ≤ e → q ≤ g → q ≤ x → units z k x q = units s m e q + units t n g q) ∧
      (k = 0 → z = if m = 0 ∧ n = 0 ∧ s = t then s else decide (r = .rdn))) ∧
  (∀ (r : RMode) (a b c : Machine.Num), ((fmaNum r a b c).1 = (addNum r (mulNum a b).1 c).1) ∧
    (a.isNan = false → b.isNan = false → (mulNum a b).1.isNan = true → fmaNum r a b c = (.nan false, 1))) ∧
  (∀ (t c x y : Nat), t ≤ 2 → c ≤ 6 → let a := unpack (fmtOf t) x
    let b := unpack (fmtOf t) y
    (a.isNan = true ∨ b.isNan = true → cmpE c t x y = (decide (c = 1 ∨ c = 6), if (2 ≤ c ∧ c ≤ 5) ∨ a.isSig = true ∨ b.isSig = true then 1 else 0)) ∧
    (a.isNan = false → b.isNan = false → (cmpE c t x y).2 = 0 ∧
      ((cmpE c t x y).1 = true ↔
        (c = 0 ∧ ¬ Below a b ∧ ¬ Below b a) ∨ (c = 1 ∧ (Below a b ∨ Below b a)) ∨ (c = 2 ∧ Below a b) ∨ (c = 3 ∧ ¬ Below b a) ∨
        (c = 4 ∧ Below b a) ∨ (c = 5 ∧ ¬ Below a b)) ∧
      (Below a b → minE t x y = (x, 0) ∧ maxE t x y = (y, 0)) ∧ (Below b a → minE t x y = (y, 0) ∧ maxE t x y = (x, 0)) ∧
      (¬ Below a b → ¬ Below b a → minE t x y = (if a.neg then x else y, 0) ∧ maxE t x y = (if a.neg then y else x, 0))))) ∧
  ((∀ (x t v : Nat) (r : RMode) (sat : Bool), x ≤ 4 → t ≤ 4 →
    (∀ sig, unpack (fmtOf x) v = .nan sig → convert x t r sat v = (nanPat t, b2n sig)) ∧
    (∀ n, unpack (fmtOf x) v = .inf n → convert x t r sat v =
      if t ≤ 2 then (signPat t n + infPat t, 0) else if t = 3 then (if sat then signPat t n + topPat t else nanPat t, 1)
      else (signPat t n + if sat then topPat t else infPat t, 0)) ∧
    (∀ n m e, unpack (fmtOf x) v = .fin n m e → FloatOf t r sat n m e (convert x t r sat v))) ∧
  (∀ p ∈ [(1, 0), (2, 0), (3, 0), (4, 0), (3, 1), (3, 2), (4, 1), (4, 2)], ∀ (v : Nat) (r : RMode) (sat n : Bool) (m : Nat) (e : Int),
    unpack (fmtOf p.1) v = .fin n m e →
    (convert p.1 p.2 r sat v).2 = 0 ∧ ∃ m' e', unpack (fmtOf p.2) (convert p.1 p.2 r sat v).1 = .fin n m' e' ∧ Equals n m e n m' e') ∧
  (∀ (x t v : Nat) (r : RMode) (sat : Bool), x ≤ 4 → 5 ≤ t → t ≤ 10 → let w := typeWidth t
    let lo : Int := if t ≤ 7 then -(2 : Int) ^ (w - 1) else 0
    let hi : Int := if t ≤ 7 then (2 : Int) ^ (w - 1) - 1 else (2 : Int) ^ w - 1
    (∀ sig, unpack (fmtOf x) v = .nan sig → convert x t r sat v = (if sat then 0 else 2 ^ (w - 1), 1)) ∧
    (∀ n, unpack (fmtOf x) v = .inf n → convert x t r sat v = (if sat then pat w (if n then lo else hi) else 2 ^ (w - 1), 1)) ∧
    (∀ n m e, unpack (fmtOf x) v = .fin n m e → let k := quantize r n m e 0
      let i : Int := if n then -(k.1 : Int) else k.1
      (lo ≤ i → i ≤ hi → convert x t r sat v = (pat w i, if k.2 then 16 else 0)) ∧
      (i < lo → convert x t r sat v = (if sat then pat w lo else 2 ^ (w - 1), 1)) ∧
      (hi < i → convert x t r sat v = (if sat then pat w hi else 2 ^ (w - 1), 1)))) ∧
  (∀ (x t v : Nat) (r : RMode) (sat : Bool), 5 ≤ x → x ≤ 10 → let i : Int := if x ≤ 7 then sgn (typeWidth x) v else v
    (t ≤ 4 → FloatOf t r sat (decide (i < 0)) i.natAbs 0 (convert x t r sat v)) ∧
    (5 ≤ t → t ≤ 10 → convert x t r sat v = (wrapOrSat t sat i, 0))) ∧
  (∀ (t v : Nat) (r : RMode), v < 256 → let bead (b : Nat) : Int := if b % 8 = 7 then 0 else if b / 8 % 2 = 1 then -(2 : Int) ^ (6 - b % 8) else 2 ^ (6 - b % 8)
    let u := bead (v / 16) + bead (v % 16)
    beadUnits v = u ∧ (t ≤ 2 → FloatOf t r false (decide (u < 0)) u.natAbs (-6) (convert 11 t r false v)) ∧
    (t = 5 ∨ t = 6 → convert 11 t r false v = (pat (typeWidth t) u, 0)))) ∧
  (∀ (fn t v : Nat), fn < 12 → t ≤ 2 → let row := specials.getD fn []
    let at_ (i : Nat) : Nat × Nat := let q := row.getD i (.nan, 0); (q.1.pattern t, q.2)
    (unpack (fmtOf t) v = .inf true → funcUnit fn t v = at_ 0) ∧ (unpack (fmtOf t) v = .inf false → funcUnit fn t v = at_ 3) ∧
    (∀ n e, unpack (fmtOf t) v = .fin n 0 e → funcUnit fn t v = if n then at_ 1 else at_ 2) ∧
    (∀ m e, unpack (fmtOf t) v = .fin true m e → m ≠ 0 → fn = 2 ∨ fn = 3 ∨ fn = 5 ∨ fn = 6 → funcUnit fn t v = (nanPat t, 1)) ∧
    (v = onePat t → fn = 2 ∨ fn = 3 → funcUnit fn t v = (0, 0)) ∧
    (∀ sig, unpack (fmtOf t) v = .nan sig → funcUnit fn t v = (nanPat t, b2n sig))) ∧
  ((∀ (nanOp : Bool) (ts : List Machine.Num), let r := groupStep nanOp ts
    ((∃ t ∈ ts, t.isNan = true) ∨ (Machine.Num.inf true ∈ ts ∧ Machine.Num.inf false ∈ ts) → r = (0x7FC00000, if nanOp then 0 else 1)) ∧
    ((∀ t ∈ ts, t.isNan = false) → ∀ n, Machine.Num.inf n ∈ ts → Machine.Num.inf (!n) ∉ ts → r = (signPat 0 n + infPat 0, 0)) ∧
    ((∀ t ∈ ts, ∃ n e, t = .fin n 0 e) → r = (if ∀ t ∈ ts, t.neg = true then 2 ^ 31 else 0, 0)) ∧
    (∀ x, (∀ t ∈ ts, ∃ n m e, t = .fin n m e) → IsTopBit ts x → let q := x - 31
      let s := cutSum ts q
      (s = 0 → r.1 = 0 ∧ (r.2 = 16 ∨ r.2 = 0) ∧ (r.2 = 16 ↔ CutsSome ts q)) ∧
      (s ≠ 0 → OutOf fmtF32 .rne (decide (s < 0)) s.natAbs q → r = (signPat 0 (decide (s < 0)) + infPat 0, 20)) ∧
      (s ≠ 0 → ¬ OutOf fmtF32 .rne (decide (s < 0)) s.natAbs q → ∃ fl, RoundsTo fmtF32 .rne (decide (s < 0)) s.natAbs q r.1 fl ∧
        (¬ CutsSome ts q → r.2 = fl) ∧ (CutsSome ts q → 16 ≤ r.2)))) ∧
  (∀ (c g : Nat) (l : List (Machine.Num × Machine.Num)), l ≠ [] → l.length ≤ g →
    (dotFP c g l).1 = (groupStep false (unpack fmtF32 c :: l.map fun p => (mulNum p.1 p.2).1)).1 ∧
    ((∃ p ∈ l, p.1.isSig = true ∨ p.2.isSig = true) ∨ (unpack fmtF32 c).isSig = true → (dotFP c g l).2 % 2 = 1)) ∧
  (∀ (c g : Nat) (l m : List (Machine.Num × Machine.Num)), 0 < g → l.length = g → (dotFP c g (l ++ m)).1 = (dotFP (dotFP c g l).1 g m).1))

/-- Keys and their axes (R143): bit j of axis i is key bit j × d + i, and a key is made of its axes. -/
def Obligations.KeyAxes : Prop :=
  ∀ d, 2 ≤ d → d ≤ 8 →
    (∀ k i j, i < d → (ax d k i).testBit j = (decide (j < 64 / d) && k.testBit (j * d + i))) ∧
    (∀ (f : Nat → Nat) i, i < d → ax d (mkKey d f) i = f i % 2 ^ (64 / d)) ∧
    (∀ k, mkKey d (ax d k) = k % 2 ^ (d * (64 / d)))

/-- Curve-key instructions of keys (R146 to R151, R153, R154, R157): for n axes, each with its result in its pair and its word. -/
def Obligations.KeyArithmetic : Prop :=
  (∀ (m t a d : Nat) (s : State), Solo s → t ≤ 6 → d < 8 →
    ∃ K w, K < 2 ^ ((t + 2) * (64 / (t + 2))) ∧ w < 2 ^ (t + 2) ∧
      (∀ i, i < t + 2 → ax (t + 2) K i = lane 32 (rdV (self s) a) i % 2 ^ (64 / (t + 2)) ∧
        (w.testBit i = true ↔ 2 ^ (64 / (t + 2)) ≤ lane 32 (rdV (self s) a) i)) ∧
      Completes (.ckMk m t a d) s (wrW (wrX (self s) d K) m w).lm [spanX (self s) d, spanW (self s) m] (pcAfter (self s) 4)) ∧
  (∀ (t ix a d : Nat) (s : State), Solo s → t ≤ 6 → a < 8 → ix < t + 2 →
    Completes (.ckAx t ix a d) s (wrW (self s) d (ax (t + 2) (rdX (self s) a) ix)).lm [spanW (self s) d] (pcAfter (self s) 4)) ∧
  (∀ p ∈ [(Instr.ckAdd, false), (.ckSub, true)], ∀ (m t b a d : Nat) (s : State), Solo s → t ≤ 6 → b < 8 → a < 8 → d < 8 →
    ∃ z w, IsKeySum (t + 2) p.2 (key s (t + 2) a) (key s (t + 2) b) z w ∧
      Completes (p.1 m t b a d) s (wrW (wrX (self s) d z) m w).lm [spanX (self s) d, spanW (self s) m] (pcAfter (self s) 4)) ∧
  (∀ (t b a d : Nat) (s : State), Solo s → t ≤ 6 → b < 8 → a < 8 →
    Completes (.ckCmp t b a d) s
      (wrW (self s) d (if key s (t + 2) a < key s (t + 2) b then 2 ^ 32 - 1 else if key s (t + 2) a = key s (t + 2) b then 0 else 1)).lm
      [spanW (self s) d] (pcAfter (self s) 4) ∧
    Completes (.ckDom t b a d) s
      (wrW (self s) d (b2n ((List.range (t + 2)).all fun i => decide (ax (t + 2) (key s (t + 2) a) i ≤ ax (t + 2) (key s (t + 2) b) i)))).lm
      [spanW (self s) d] (pcAfter (self s) 4)) ∧
  (∀ (m t b a d : Nat) (s : State), Solo s → t ≤ 6 → b < 7 → a < 8 → d < 8 →
    Completes (.ckInbox t b a d) s
      (wrW (self s) d (b2n ((List.range (t + 2)).all fun i =>
        decide (ax (t + 2) (box s (t + 2) b).1 i ≤ ax (t + 2) (key s (t + 2) a) i ∧ ax (t + 2) (key s (t + 2) a) i ≤ ax (t + 2) (box s (t + 2) b).2 i)))).lm
      [spanW (self s) d] (pcAfter (self s) 4) ∧
    ∃ z w, z < 2 ^ ((t + 2) * (64 / (t + 2))) ∧ w < 2 ^ (t + 2) ∧
      (∀ i, i < t + 2 →
        ax (t + 2) z i = min (max (ax (t + 2) (key s (t + 2) a) i) (ax (t + 2) (box s (t + 2) b).1 i)) (ax (t + 2) (box s (t + 2) b).2 i) ∧
        (w.testBit i = true ↔ ax (t + 2) z i ≠ ax (t + 2) (key s (t + 2) a) i)) ∧
      Completes (.ckClip m t b a d) s (wrW (wrX (self s) d z) m w).lm [spanX (self s) d, spanW (self s) m] (pcAfter (self s) 4)) ∧
  (∀ (t a d : Nat) (s : State), Solo s → t ≤ 6 → a < 8 →
    Completes (.ckChk t a d) s (wrW (self s) d (rdX (self s) a / 2 ^ ((t + 2) * (64 / (t + 2))))).lm [spanW (self s) d] (pcAfter (self s) 4)) ∧
  (∀ (m t b a d : Nat) (s : State), Solo s → t ≤ 6 →
    ∃ z w : Nat → Nat, (∀ i, i < 4 → IsKeySum (t + 2) false (lane 64 (rdV (self s) a) i % 2 ^ ((t + 2) * (64 / (t + 2))))
        (lane 64 (rdV (self s) b) i % 2 ^ ((t + 2) * (64 / (t + 2)))) (z i) (w i)) ∧
      Completes (.vckAdd m t b a d) s
        (wrM (wrV (self s) d (z 0 + z 1 * 2 ^ 64 + z 2 * 2 ^ 128 + z 3 * 2 ^ 192)) m (w 0 + w 1 * 2 ^ 8 + w 2 * 2 ^ 16 + w 3 * 2 ^ 24)).lm
        [spanV (self s) d, spanM (self s) m] (pcAfter (self s) 4))

/-- ck.next and ck.prev (R152): the smallest key of the box above a key, the largest one below it, in xd with 1 in wc; where there is none, the key
itself and 0. -/
def Obligations.NextAndPreviousKey : Prop :=
  ∀ (m t b a d : Nat) (s : State), Solo s → t ≤ 6 → b < 7 → a < 8 → d < 8 →
    let n := t + 2
    let k := key s n a
    let In (x : Nat) : Prop := x < 2 ^ (n * (64 / n)) ∧ ∀ i, i < n → ax n (box s n b).1 i ≤ ax n x i ∧ ax n x i ≤ ax n (box s n b).2 i
    (∃ x w, ((In x ∧ k < x ∧ (∀ y, In y → k < y → x ≤ y) ∧ w = 1) ∨ ((∀ y, In y → y ≤ k) ∧ x = k ∧ w = 0)) ∧
      Completes (.ckNext m t b a d) s (wrW (wrX (self s) d x) m w).lm [spanX (self s) d, spanW (self s) m] (pcAfter (self s) 4)) ∧
    (∃ x w, ((In x ∧ x < k ∧ (∀ y, In y → y < k → y ≤ x) ∧ w = 1) ∨ ((∀ y, In y → k ≤ y) ∧ x = k ∧ w = 0)) ∧
      Completes (.ckPrev m t b a d) s (wrW (wrX (self s) d x) m w).lm [spanX (self s) d, spanW (self s) m] (pcAfter (self s) 4))

/-- ck.split (R155): the first runs of a box from a key on, in local memory; with the first key of a further run in xa, or the key itself; with
their count, and MORE, in wd. -/
def Obligations.KeyRuns : Prop :=
  ∀ (m t b a d : Nat) (s : State), Solo s → t ≤ 6 → b < 7 → a < 8 → (self s).bar = false →
    let n := t + 2
    let k := key s n a
    let at_ := rdW (self s) m % 2 ^ 15
    let most := rdW (self s) m / 2 ^ 16
    at_ % 16 = 0 → most = 0 ∨ at_ + 16 * most ≤ 0x6000 → (∀ i, i < most → Storable (self s) (at_ + 16 * i) 16) →
    ∃ rs more, RunsOf n (box s n b) k most rs more ∧
      Accesses (.ckSplit m t b a d) s
        (wrW (wrX { self s with lm := writeRuns (self s).lm at_ rs } a (more.getD k)) d (b2n more.isSome * 2 ^ 31 + rs.length)).lm
        [(at_, 16 * rs.length), spanX (self s) a, spanW (self s) d] (pcAfter (self s) 4)

/-- Signals (R179, R182, R183, R205 to R208): an emit adds its signal to the core's contribution and folds in its value; test and tval read a
resolved signal, by which the core hears of others (the model's record for R272, log 61), and block with WAIT 0 on an unresolved one; cant clears
bits of the may-emit mask. -/
def Obligations.Signals : Prop :=
  (∀ (n : Nat) (s : State), Solo s → mayEmit s n →
    CompletesAs (.emit n) s { self s with pres := (self s).pres ||| BitVec.ofNat 128 (2 ^ n) } (pcAfter (self s) 4) ∧
    CompletesAs (.emit16 n) s { self s with pres := (self s).pres ||| BitVec.ofNat 128 (2 ^ n) } (pcAfter (self s) 2) ∧
    ∀ a, n < 16 →
      let op := nth 0 (dom s).comb n
      CompletesAs (.emitV n a) s
        { self s with pres := (self s).pres ||| BitVec.ofNat 128 (2 ^ n)
                      val := Table.set (self s).val n (combineVal op (Table.get (combineId op) (self s).val n) (rdW (self s) a)) }
        (pcAfter (self s) 4)) ∧
  (∀ (n d : Nat) (s : State), Solo s → n < 128 →
    (∀ p, sigStatus (dom s) n = some p → Receives (.test n d) s (wrW (self s) d (b2n p)).lm [spanW (self s) d] (pcAfter (self s) 4)) ∧
    (sigStatus (dom s) n = none → ∃ t, Waits (.test n d) s t 0 ∧ OnlyCores s t)) ∧
  (∀ (n d : Nat) (s : State), Solo s → n < 16 →
    (∀ v, sigValue (dom s) n = some v → Receives (.tval n d) s (wrW (self s) d v).lm [spanW (self s) d] (pcAfter (self s) 4)) ∧
    (sigValue (dom s) n = none → ∃ t, Waits (.tval n d) s t 0 ∧ OnlyCores s t)) ∧
  (∀ (n : Nat) (s : State), Solo s →
    (n < 128 → CompletesAs (.cant n) s (setSlot (self s) (here s) { slotAt (self s) (here s) with
      may := (slotAt (self s) (here s)).may &&& ~~~ BitVec.ofNat 128 (2 ^ n) }) (pcAfter (self s) 4)) ∧
    CompletesAs .cantAll s (setSlot (self s) (here s) { slotAt (self s) (here s) with may := 0 }) (pcAfter (self s) 4)) ∧
  (∀ (n a : Nat) (s : State), Solo s →
    (128 ≤ n → Traps (.emit n) s (illeg 4) ∧ Traps (.cant n) s (illeg 4)) ∧ (16 ≤ n → Traps (.emitV n a) s (illeg 4)) ∧
    (n < 128 → emsetEff (self s) (here s) / 2 ^ n % 2 = 0 → Traps (.emit n) s (trapOf 7 2 0)) ∧
    (n < 128 → emsetEff (self s) (here s) / 2 ^ n % 2 = 1 → (slotAt (self s) (here s)).may.toNat / 2 ^ n % 2 = 0 → Traps (.emit n) s (trapOf 7 3 0)))

/-- Preemption regions (R187, R209): entering one writes its entry and counts DEPTH up, leaving one counts it down; a ninth, a handler at an odd
address and an end outside a region trap. -/
def Obligations.Regions : Prop :=
  (∀ p ∈ [(Instr.rgAbort, 0), (.rgAborts, 1)], ∀ (n a : Nat) (s : State), Solo s → n < 128 → rdW (self s) a % 2 = 0 → stDepth (self s) (here s) < 8 →
    let e := stDepth (self s) (here s)
    Completes (p.1 n a) s
      (Memory.write (Memory.write (self s).lm (entryAt (self s) (here s) e) 8 (rdW (self s) a * 2 ^ 32 + p.2 * 2 ^ 12 + n))
        (statusAt (self s) (here s)) 4 (setFld (stWord (self s) (here s)) 10 4 (e + 1)))
      [(entryAt (self s) (here s) e, 8), (statusAt (self s) (here s), 4)] (pcAfter (self s) 4)) ∧
  (∀ (n : Nat) (s : State), Solo s → n < 128 → stDepth (self s) (here s) < 8 →
    let e := stDepth (self s) (here s)
    Completes (.rgSusp n) s
      (Memory.write (Memory.write (self s).lm (entryAt (self s) (here s) e) 8 (2 * 2 ^ 12 + n))
        (statusAt (self s) (here s)) 4 (setFld (stWord (self s) (here s)) 10 4 (e + 1)))
      [(entryAt (self s) (here s) e, 8), (statusAt (self s) (here s), 4)] (pcAfter (self s) 4)) ∧
  (∀ s : State, Solo s → stDepth (self s) (here s) ≠ 0 →
    Completes .rgEnd s (Memory.write (self s).lm (statusAt (self s) (here s)) 4
      (setFld (stWord (self s) (here s)) 10 4 (stDepth (self s) (here s) - 1))) [(statusAt (self s) (here s), 4)] (pcAfter (self s) 4)) ∧
  (∀ (n a : Nat) (s : State), Solo s → n < 128 →
    (rdW (self s) a % 2 = 1 → Traps (.rgAbort n a) s (trapOf 3 2 (rdW (self s) a)) ∧ Traps (.rgAborts n a) s (trapOf 3 2 (rdW (self s) a))) ∧
    (8 ≤ stDepth (self s) (here s) → rdW (self s) a % 2 = 0 → Traps (.rgAbort n a) s (trapOf 13 1 0) ∧ Traps (.rgSusp n) s (trapOf 13 1 0)) ∧
    (stDepth (self s) (here s) = 0 → Traps .rgEnd s (illeg 4)))

/-- Gangs (R141, R175, R210, R211): gang.form blocks with WAIT 3; when it brings the last member, the gang forms within 4 cycles; gang.end is a nop
outside a gang; in one, it clears GSZ, GIDX and LEADER of every member, its followers run on where they stand, and its leader goes on behind it; an
instruction on registers acts on every member; one that a gang does not execute takes ILLEG 4. GANG_FORMED (R175, R210): where every core of the
aligned group has its task in gang.form and none serves a trap, the gang forms: each member's status names its place and the gang's size, its
register receives its index, its workspace is current, and its PC is behind its gang.form; the leader alone is runnable, the others are followers. -/
def Obligations.Gangs : Prop :=
  ((∀ (n d : Nat) (s : State), Solo s → n ≤ 3 → s.cur % 8 % 2 ^ n = 0 → ∃ t, Waits (.gangForm n d) s t 3 ∧ OnlyCores s t) ∧
  (∀ (n d : Nat) (s : State), Solo s → 4 ≤ n ∨ s.cur % 8 % 2 ^ n ≠ 0 → Traps (.gangForm n d) s (illeg 4)) ∧
  (∀ (n d lead g : Nat) (i e : Nat → Nat) (s : State), 1 ≤ g → g ≤ 3 → lead % 8 % 2 ^ g = 0 → lead ≤ s.cur → s.cur < lead + 2 ^ g →
    n = (if s.cur = lead then g else 0) → Joinable (self s) → here s < 8 →
    (slotAt (self s) (here s)).live = true → (slotAt (self s) (here s)).trap = none → (slotAt (self s) (here s)).wake = false →
    (∀ j f, j < here s → (slotAt (self s) j).blockedIn ≠ some (.gangForm n f)) →
    (∀ j, j < 2 ^ g → lead + j ≠ s.cur → Joinable (coreOf s (lead + j)) ∧ Forming (coreOf s (lead + j)) (if j = 0 then g else 0) (i j) (e j) ∧
      (slotAt (coreOf s (lead + j)) (i j)).wake = false) →
    (∀ j m f, (slotAt (coreOf s lead) j).blockedIn = some (.gangForm m f) → m = 0 ∨ m = g) →
    ∃ t k, Waits (.gangForm n d) s t 3 ∧ OnlyCores s t ∧ 1 ≤ k ∧ k ≤ 4 ∧ Due t .gangFormed { a := lead, b := g } (s.cycle + k) 0) ∧
  (∀ s : State, Solo s → Completes .gangEnd s (self s).lm [] (pcAfter (self s) 4)) ∧
  (∀ s : State, ¬ Solo s → ∃ t, exec .gangEnd s = .next t ∧ OnlyCores s t ∧ (slotAt (coreOf t s.cur) (here s)).pc = pcAfter (self s) 4 ∧
    ∀ j, j < (self s).gangSize → let k := (self s).gangBase + j
      let i := curSlot (coreOf s k)
      (coreOf t k).gangSize = 0 ∧ gangFields (stWord (coreOf t k) i) = (0, 0, 0) ∧
      (k ≠ s.cur → (slotAt (coreOf t k) i).pc = (slotAt (coreOf s k) i).pc) ∧
      (stState (coreOf s k) i = 4 → stState (coreOf t k) i = 0 ∧ stWait (coreOf t k) i = 0 ∧ (slotAt (coreOf t k) i).blockedIn = none) ∧
      (stState (coreOf s k) i ≠ 4 → stState (coreOf t k) i = stState (coreOf s k) i)) ∧
  (∀ p ∈ aluRows, ∀ (b a d : Nat) (s : State), ¬ Solo s → (self s).gangBase = s.cur →
    ∃ t, exec (p.1 0 b a d) s = .next t ∧ ∀ j, j < (self s).gangSize →
      (coreOf t (s.cur + j)).lm =
        (wrW (coreOf s (s.cur + j)) d (p.2 32 (rdW (coreOf s (s.cur + j)) a) (rdW (coreOf s (s.cur + j)) b))).lm) ∧
  (∀ (a d : Nat) (s : State), ¬ Solo s → Traps .rgEnd s (illeg 4) ∧ Traps .halt s (illeg 4) ∧ Traps .yield s (illeg 4) ∧
    Traps (.gldHome 0 0 a d) s (illeg 4))) ∧
  (∀ (s : State) (i d : Nat → Nat), let lead := s.args.a
    let g := s.args.b
    1 ≤ g → g ≤ 3 → (∀ j, j < 2 ^ g → Joinable (coreOf s (lead + j)) ∧ Forming (coreOf s (lead + j)) (if j = 0 then g else 0) (i j) (d j) ∧ d j < 16 ∧
      Fits (coreOf s (lead + j)) (i j)) →
    ∃ t, exec .gangFormed s = .next t ∧ OnlyCores s t ∧ ∀ j, j < 2 ^ g → let k := lead + j
      (coreOf t k).gangBase = lead ∧ (coreOf t k).gangSize = 2 ^ g ∧ (coreOf t k).wsp.toNat = slotBase (coreOf s k) (i j) ∧
      stState (coreOf t k) (i j) = (if j = 0 then 0 else 4) ∧ stWait (coreOf t k) (i j) = 0 ∧
      gangFields (stWord (coreOf t k) (i j)) = (if j = 0 then 1 else 0, j, g) ∧ (slotAt (coreOf t k) (i j)).blockedIn = none ∧
      (slotAt (coreOf t k) (i j)).pc = ((slotAt (coreOf s k) (i j)).pc + 4) % 2 ^ 32 ∧
      (d j ≠ 0 → Memory.read (coreOf t k).lm (slotBase (coreOf s k) (i j) + 4 * d j) 4 = j))

/-- Barriers (R212 to R215): an operation completes after its cost and is applied later; an application counts an arrival, returns the phase and
moves it with the last; a wait passes when the phase has moved on, by which the core hears of others (log 61), else blocks with WAIT 3 until it is
released. Queue registers (R217 to R220): a
put takes a free entry and its word lands three cycles later, else blocks with WAIT 4; a poll takes the oldest word; an empty queue blocks it or,
without blocking, gives 0; another task's queue takes QUEUE 2. -/
def Obligations.BarriersAndQueues : Prop :=
  ((∀ (sx ix a : Nat) (s : State), Solo s → sx ≤ 1 → (sx = 0 → ix < 4) → 1 ≤ rdW (self s) a → rdW (self s) a ≤ (if sx = 0 then 8 else 128) →
    CompletesSending (.barInit sx ix a) s (self s) (pcAfter (self s) 4) .barrierApply
      { a := s.cur, b := here s, c := ix + sx * 16, d := rdW (self s) a } (s.cycle + (if sx = 0 then 1 else 3)) 2) ∧
  (∀ (sx ix d : Nat) (s : State), Solo s → sx ≤ 1 → (sx = 0 → ix < 4) →
    CompletesSending (.barArr sx ix d) s (self s) (pcAfter (self s) 4) .barrierApply
      { a := s.cur, b := here s, c := ix + sx * 16 + 32, d := d } (s.cycle + (if sx = 0 then 1 else 3)) 2 ∧
    CompletesSending (.barArrw sx ix d) s (self s) (pcHere s) .barrierApply
      { a := s.cur, b := here s, c := ix + sx * 16 + 64, d := d } (s.cycle + (if sx = 0 then 1 else 3)) 2) ∧
  (∀ (sx ix a : Nat) (s : State), Solo s → sx ≤ 1 → (sx = 0 → ix < 4) →
    let k := ((barOf s sx ix s.cur).phase.toNat + 2 ^ 32 - rdW (self s) a) % 2 ^ 32
    (1 ≤ k ∧ k < 2 ^ 31 → Receives (.barWait sx ix a) s (self s).lm [] (pcAfter (self s) 4)) ∧
    (¬ (1 ≤ k ∧ k < 2 ^ 31) → ∃ t, Waits (.barWait sx ix a) s t 3 ∧ OnlyCores s t)) ∧
  (∀ (ix a d : Nat) (s : State), Solo s → 4 ≤ ix → Traps (.barInit 0 ix a) s (illeg 4) ∧ Traps (.barArr 0 ix d) s (illeg 4) ∧
    Traps (.barWait 0 ix a) s (illeg 4) ∧ Traps (.barArrw 0 ix d) s (illeg 4)) ∧
  (∀ (s : State) (sx ix op : Nat), sx ≤ 1 → ix < 16 → op ≤ 2 → s.args.c = ix + sx * 16 + op * 32 →
    let b := barOf s sx ix s.args.a
    let old := b.phase.toNat
    (op = 0 → ∃ t, exec .barrierApply s = .next t ∧ barOf t sx ix s.args.a = { b with parts := s.args.d, arrivals := 0 }) ∧
    (op = 1 → b.arrivals + 1 < b.parts → ∃ t, exec .barrierApply s = .next t ∧ barOf t sx ix s.args.a = { b with arrivals := b.arrivals + 1 } ∧
      coreOf t s.args.a = inSlot s.args.b (fun c => wrW c s.args.d old) (coreOf s s.args.a)) ∧
    (op ≠ 0 → b.parts ≤ b.arrivals + 1 → ∃ t, exec .barrierApply s = .next t ∧
      barOf t sx ix s.args.a = { b with arrivals := 0, phase := b.phase + 1 }) ∧
    (op = 2 → b.arrivals + 1 < b.parts → ∃ t, exec .barrierApply s = .next t ∧ stState (coreOf t s.args.a) s.args.b = 1 ∧
      stWait (coreOf t s.args.a) s.args.b = 3 ∧ (slotAt (coreOf t s.args.a) s.args.b).opA = old)) ∧
  (∀ s : State, (slotAt (coreOf s s.args.a) s.args.b).wake = true →
    ∃ t, exec .barrierRelease s = .next t ∧ GoesOn s t s.args.a s.args.b)) ∧
  ((∀ (q a d : Nat) (s : State), Solo s → rdW (self s) d < 655360 → rdW (self s) d / 128 = s.cur / 128 →
    (queueRoom (queueAt (coreOf s (rdW (self s) d)) q) s.cycle = true →
      ∃ t, exec (.qPut q a d) s = .next t ∧ OnlyCores s t ∧ Due t .queueWordLand { a := s.cur, b := rdW (self s) d, c := q, d := rdW (self s) a } (s.cycle + 3) 2 ∧
        (queueAt (coreOf t (rdW (self s) d)) q).reserved = (queueAt (coreOf s (rdW (self s) d)) q).reserved + 1 ∧
        (slotAt (coreOf t s.cur) (here s)).pc = pcAfter (self s) 4 ∧ (coreOf t s.cur).lm = (self s).lm) ∧
    (queueRoom (queueAt (coreOf s (rdW (self s) d)) q) s.cycle = false → ∃ t, Waits (.qPut q a d) s t 4 ∧ OnlyCores s t)) ∧
  (∀ (q a d : Nat) (s : State), Solo s → ¬ (rdW (self s) d < 655360 ∧ rdW (self s) d / 128 = s.cur / 128) → Traps (.qPut q a d) s (illeg 4)) ∧
  (∀ (q a d : Nat) (s : State), Solo s → (queueAt (self s) q).owner = none ∨ (queueAt (self s) q).owner = some (here s) →
    (∀ v vs, (queueAt (self s) q).words = v :: vs →
      (∃ t, exec (.qPoll q d) s = .next t ∧ OnlyCores s t ∧ (queueAt (coreOf t s.cur) q).words = vs ∧
        (queueAt (coreOf t s.cur) q).owner = some (here s) ∧ (coreOf t s.cur).lm = (wrW (self s) d v).lm ∧
        (slotAt (coreOf t s.cur) (here s)).pc = pcAfter (self s) 4) ∧
      (∃ t, exec (.qPollNb q a d) s = .next t ∧ OnlyCores s t ∧ (queueAt (coreOf t s.cur) q).words = vs ∧
        (queueAt (coreOf t s.cur) q).owner = some (here s) ∧ (coreOf t s.cur).lm = (wrW (wrW (self s) d v) a 1).lm ∧
        (slotAt (coreOf t s.cur) (here s)).pc = pcAfter (self s) 4)) ∧
    ((queueAt (self s) q).words = [] →
      (∃ t, Waits (.qPoll q d) s t 4 ∧ OnlyCores s t ∧ (queueAt (coreOf t s.cur) q).owner = some (here s)) ∧
      (∃ t, exec (.qPollNb q a d) s = .next t ∧ OnlyCores s t ∧ (queueAt (coreOf t s.cur) q).owner = some (here s) ∧
        (coreOf t s.cur).lm = (wrW (self s) a 0).lm ∧ (slotAt (coreOf t s.cur) (here s)).pc = pcAfter (self s) 4))) ∧
  (∀ (q a d o : Nat) (s : State), Solo s → (queueAt (self s) q).owner = some o → o ≠ here s →
    Traps (.qPoll q d) s (trapOf 11 2 q) ∧ Traps (.qPollNb q a d) s (trapOf 11 2 q)) ∧
  (∀ s : State, ∃ t, exec .queueWordLand s = .next t ∧
    (queueAt (coreOf t s.args.b) s.args.c).words = (queueAt (coreOf s s.args.b) s.args.c).words ++ [s.args.d] ∧
    (queueAt (coreOf t s.args.b) s.args.c).reserved = (queueAt (coreOf s s.args.b) s.args.c).reserved - 1) ∧
  (∀ (s : State) (q a d : Nat), let x := slotAt (coreOf s s.args.a) s.args.b
    x.blockedIn = some (.qPut q a d) → queueRoom (queueAt (coreOf s x.opB) q) s.cycle = true →
      ∃ t, exec .qPutRetry s = .next t ∧ GoesOn s t s.args.a s.args.b ∧ Due t .queueWordLand { a := s.args.a, b := x.opB, c := q, d := x.opA } (s.cycle + 3) 2))

/-- spawn, spawn.box and park (R163, R166, R197 to R200): spawn writes one record with the domain's next task number, spawn.box one for each key of
its box, park that of its task, whose slot it frees; without room each blocks with WAIT 5; an image out of place or with bad fields is refused. The
model's readings: INFO of a bad row is its own address (log 24), the cycles to a held record count from the end of the whole cost (log 27), and the
order of the checks in spawn.box (log 28). -/
def Obligations.RecordsWritten : Prop :=
  (∀ (a d : Nat) (s : State), Solo s → (self s).bar = false → let at_ := rdW (self s) a
    let ctl := imageField s at_ 4 4
    let aff := imageField s at_ 8 4
    ImageRefused (.spawn a d) s at_ ∧
    (ImageTaken s at_ → ∀ m, domOf s s.cur = some m →
      (AreaRoom s at_ 1 → ∃ t idx, exec (.spawn a d) s = .next t ∧ ComesIntoUse s t at_ (imageDie s at_) idx (coreOf t s.cur).busy ∧
        SpawnedRecord s t at_ (imageDie s at_) idx (ctl % 2 ^ 15) (aff / 2 ^ 8 * 2 ^ 8 + aff % 2 ^ 3) ((dom s).nextTask % 2 ^ 32) (imageField s at_ 0x10 8) ∧
        (coreOf t s.cur).lm = (wrW (self s) d (dom s).nextTask).lm ∧ (slotAt (coreOf t s.cur) (here s)).pc = pcAfter (self s) 4 ∧
        (domAt t m).nextTask = ((dom s).nextTask + 1) % 2 ^ 32) ∧
      (¬ AreaRoom s at_ 1 → ∃ t, Waits (.spawn a d) s t 5 ∧ OnlyCores s t))) ∧
  (∀ (f co b a d : Nat) (s : State), Solo s → (self s).bar = false → let at_ := rdW (self s) a
    let i := Instr.spawnBox f co b a d
    let c := imageCores s at_
    let die := imageDie s at_
    let ctl := imageField s at_ 4 4
    (f = 7 ∨ b = 7 → Traps i s (illeg 4)) ∧
    (f < 7 → b < 7 → ImageRefused i s at_ ∧
      (ImageTaken s at_ → c ≠ 128 ∧ c ≠ 512 → Traps i s (illeg 4)) ∧
      ∀ ks, KeysOf (f + 2) (box s (f + 2) b) ks →
        (ImageTaken s at_ → 65536 < ks.length ∨ (co = 1 ∧ ks.length ≠ c) → Traps i s (illeg 4)) ∧
        (ImageTaken s at_ → c = 128 ∨ c = 512 → ks.length ≤ 65536 → co = 0 ∨ (co = 1 ∧ ks.length = c) → AboveAreas s at_ → ∀ m, domOf s s.cur = some m →
          (AreaRoom s at_ ks.length → ∃ t, exec i s = .next t ∧ (coreOf t s.cur).lm = (wrW (self s) d ks.length).lm ∧
            (slotAt (coreOf t s.cur) (here s)).pc = pcAfter (self s) 4 ∧ (domAt t m).nextTask = ((dom s).nextTask + ks.length) % 2 ^ 32 ∧
            ∀ q, q < ks.length → ∃ idx, ComesIntoUse s t at_ die idx (coreOf t s.cur).busy ∧
              (Table.get {} (dieAt t die).recs idx).setSize = (if co = 1 then c else 0) ∧
              SpawnedRecord s t at_ die idx (ctl % 2 ^ 15 / 2 ^ 7 * 2 ^ 7 + f * 2 ^ 4 + ctl % 2 ^ 4)
                ((imageBase s at_ + q * c / ks.length) * 2 ^ 8) (((dom s).nextTask + q) % 2 ^ 32) (nth 0 ks q)) ∧
          (ks ≠ [] → ¬ AreaRoom s at_ (if co = 1 then c else 1) → ∃ t, exec i s = .next t ∧ BlockedAt t s.cur (here s) i 5 (pcHere s) ∧
            t.dies = s.dies ∧ SameOutside [(statusAt (self s) (here s), 4)] (self s).lm (coreOf t s.cur).lm)))) ∧
  (∀ (a d : Nat) (s : State), Solo s → (self s).bar = false → let at_ := rdW (self s) a
    let x := slotAt (self s) (here s)
    let i := Instr.park a d
    (stDepth (self s) (here s) ≠ 0 → Traps i s (trapOf 13 2 0)) ∧
    (stDepth (self s) (here s) = 0 → x.outst ≠ 0 → Traps i s (trapOf 11 1 0)) ∧
    (stDepth (self s) (here s) = 0 → x.outst = 0 → PlaceRefused i s at_ ∧ (ImagePlaced s at_ → ¬ ImageFields s at_ → Traps i s (illeg 4)) ∧
      (ImagePlaced s at_ → ImageFields s at_ →
        (AreaRoom s at_ 1 → ∃ t idx, exec i s = .next t ∧ ComesIntoUse s t at_ (imageDie s at_) idx (coreOf t s.cur).busy ∧
          ParkedRecord s t at_ (imageDie s at_) idx ∧ slotAt (coreOf t s.cur) (here s) = {} ∧ ∀ q ∈ (coreOf t s.cur).queues, q.owner ≠ some (here s)) ∧
        (¬ AreaRoom s at_ 1 → ∃ t, Waits i s t 5 ∧ OnlyCores s t))))

/-- pause, pause.w, halt and yield (R202 to R204): the task pauses or ends, its may-emit mask zero; pause.w goes past a condition that holds, else
takes a watch entry and pauses, or blocks with WAIT 5; its PC stays at the instruction until it passes (the model's reading, log 33), by which the
core hears of others (log 61). Counter
conditions (R169, R195, R216): ctr.wait blocks with WAIT 2 while its counter is read, at least 40 cycles; then it delivers a value that meets the
threshold, or waits for one; a bad counter traps. -/
def Obligations.TasksAndCounters : Prop :=
  ((∀ s : State, Solo s →
    let x := setSlot { self s with lm := Memory.write (self s).lm (statusAt (self s) (here s)) 4 (setFld (stWord (self s) (here s)) 0 3 2) } (here s)
      { slotAt (self s) (here s) with may := 0 }
    CompletesAs .pause s x (pcAfter (self s) 4) ∧ CompletesAs .pause16 s x (pcAfter (self s) 2)) ∧
  (∀ s : State, Solo s → Completes .yield s (self s).lm [] (pcAfter (self s) 4) ∧ Completes .yield16 s (self s).lm [] (pcAfter (self s) 2)) ∧
  (∀ (i : Instr) (s : State), i = .halt ∨ i = .halt16 → Solo s → ∃ t, exec i s = .next t ∧
    ((slotAt (self s) (here s)).outst = 0 → (slotAt (coreOf t s.cur) (here s)).live = false) ∧
    ((slotAt (self s) (here s)).outst ≠ 0 → stState (coreOf t s.cur) (here s) = 5 ∧ (slotAt (coreOf t s.cur) (here s)).may = 0) ∧
    ∀ q ∈ (coreOf t s.cur).queues, q.owner ≠ some (here s)) ∧
  (∀ (a d : Nat) (s : State), Solo s → d < 8 → counterOk (dom s) (rdW (self s) a) = true →
    let at_ := rdW (self s) a
    let thr := rdX (self s) d
    (counterMet (counterWord s at_) thr = true → Receives (.pauseW a d) s (self s).lm [] (pcAfter (self s) 4)) ∧
    (counterMet (counterWord s at_) thr = false → watchRoom s (ctrDie at_) 1 = true → ∃ t, exec (.pauseW a d) s = .next t ∧
      stState (coreOf t s.cur) (here s) = 2 ∧ (slotAt (coreOf t s.cur) (here s)).may = 0 ∧ (slotAt (coreOf t s.cur) (here s)).pc = pcHere s ∧
      (dieAt t (ctrDie at_)).watches = (dieAt s (ctrDie at_)).watches ++ [{ off := ctrOff at_, thr := thr, kind := 2, a := s.cur, b := here s }]) ∧
    (counterMet (counterWord s at_) thr = false → watchRoom s (ctrDie at_) 1 = false → ∃ t, Waits (.pauseW a d) s t 5 ∧ OnlyCores s t))) ∧
  ((∀ (word thr : Nat), word < 2 ^ 64 → (counterMet word thr = true ↔ 2 ^ 63 ≤ word ∨ thr % 2 ^ 63 ≤ word)) ∧
  (∀ (a d : Nat) (s : State), Solo s → d < 8 → counterOk (dom s) (rdW (self s) a) = true →
    ∃ t n, Waits (.ctrWait a d) s t 2 ∧ OnlyCores s t ∧ 40 ≤ n ∧ Due t .ctrReadReturn { a := s.cur, b := here s } (s.cycle + n) 0) ∧
  (∀ (a d : Nat) (s : State), Solo s →
    (8 ≤ d → Traps (.ctrWait a d) s (illeg 2) ∧ Traps (.pauseW a d) s (illeg 2)) ∧
    (d < 8 → counterOk (dom s) (rdW (self s) a) = false → Traps (.ctrWait a d) s (illeg 4) ∧ Traps (.pauseW a d) s (illeg 4))) ∧
  (∀ (s : State) (a d : Nat), let k := s.args.a
    let i := s.args.b
    let x := slotAt (coreOf s k) i
    let v := counterWord s x.opA
    x.blockedIn = some (.ctrWait a d) → d < 8 → Fits (coreOf s k) i →
    (counterMet v x.opB = true → ∃ t, exec .ctrReadReturn s = .next t ∧ GoesOn s t k i ∧
      (d ≠ 0 → Memory.read (coreOf t k).lm (slotBase (coreOf s k) i + 8 * d) 8 = v)) ∧
    (counterMet v x.opB = false → watchRoom s (ctrDie x.opA) 1 = true → ∃ t, exec .ctrReadReturn s = .next t ∧ stWait (coreOf t k) i = 2 ∧
      (dieAt t (ctrDie x.opA)).watches = (dieAt s (ctrDie x.opA)).watches ++ [{ off := ctrOff x.opA, thr := x.opB, kind := 1, a := k, b := i }]) ∧
    ∃ t, exec .ctrWaitWake s = .next t ∧ GoesOn s t k i ∧
      (d ≠ 0 → Memory.read (coreOf t k).lm (slotBase (coreOf s k) i + 8 * d) 8 = x.opA % 2 ^ 64)))

/-- The distributor (R167, R170 to R174, R198, R201, R202, R334): a record becomes held; of the highest level that has a placeable record, the
record that R172 chooses is selected for the core with the most free slots, never for a handler's, and those it passes over are counted; it is
bound in 44 to 64 cycles, held domain or not, to the slot selected or, where a handler has taken that (the model's choice, log 32), to another; the
members of a set are selected and bound together. A spawn that waited writes the image it keeps, with the task number taken then (log 27). -/
def Obligations.Distributor : Prop :=
  (∀ (s : State) (r : Rec), Table.find (dieAt s s.args.a).recs s.args.b = some r →
    ∃ t, exec .recordHeld s = .next t ∧ Table.find (dieAt t s.args.a).recs s.args.b = some { r with held := true } ∧
      (coreOf t r.from_).bound = (coreOf s r.from_).bound - 1) ∧
  (∀ s : State, let die := s.args.a
    dieHeld s die = false → (dieAt s die).placing = none →
    (∀ lv, (readyAt s die lv).Nodup ∧ ∀ j ∈ readyAt s die lv, (Table.get {} (dieAt s die).recs j).setSize = 0) →
    (∃ lv j, lv < 8 ∧ j ∈ readyAt s die lv ∧ CanPlace s die j) →
    ∃ t lv j k i n, exec .distributorSelect s = .next t ∧ lv < 8 ∧ (∀ l, l < lv → ∀ o ∈ readyAt s die l, ¬ CanPlace s die o) ∧ Chosen s die lv j ∧
      (∀ o ∈ olderThan s die lv j, recBypass t die o = min 8 (recBypass s die o + 1)) ∧
      MostFree s (recImg s die j) k ∧ i ∈ openSlots (coreOf s k) ∧ (slotAt (coreOf t k) i).reserved = true ∧ j ∉ readyAt t die lv ∧
      (∃ r, Table.find (dieAt t die).recs j = some r ∧ r.st = 4 ∧ r.prio = lv ∧ r.slot = i) ∧
      44 ≤ n ∧ n ≤ 64 ∧ Due t .recordBind { a := die, b := j, c := k } (s.cycle + n) 0) ∧
  (∀ s : State, dieHeld s s.args.a = true → exec .distributorSelect s = .next s) ∧
  (∀ (s : State) (lv base n g : Nat) (js : List Nat), let die := s.args.a
    let recs := (dieAt s die).recs
    dieHeld s die = false → (dieAt s die).placing = none → lv < 8 → readyAt s die lv = js → js.Nodup → js.length = n → n ≠ 0 →
    (∀ l, l < lv → readyAt s die l = []) → (recs.map Prod.fst).Nodup → (∀ q ∈ recs, q.2.st ≠ 4 ∧ (q.2.set_ = g → q.1 ∈ js)) →
    (∀ w ∈ (dieAt s die).watches, 0x400000 ≤ w.off) →
    (∀ j ∈ js, j < 16384 ∧ ∃ r, Table.find recs j = some r ∧ r.st = 3 ∧ r.held = true ∧ r.setSize = n ∧ r.setBase = base ∧ r.set_ = g) →
    (∀ m, m < n → openSlots (coreOf s (base + m)) ≠ [] ∧ ∃ j ∈ js, imgFirst (recImg s die j) = base + m) →
    ∃ t k, exec .distributorSelect s = .next t ∧ (dieAt t die).placing = some g ∧ 44 ≤ k ∧ k ≤ 64 + n ∧
      Due t .coLaunchPlacement { a := die, b := g } (s.cycle + k) 0 ∧ ∀ j ∈ js, let r := Table.get {} (dieAt t die).recs j
        let q := imgFirst (recImg s die j)
        r.st = 4 ∧ r.slot ∈ openSlots (coreOf s q) ∧ (slotAt (coreOf t q) r.slot).reserved = true) ∧
  (∀ s : State, let die := s.args.a
    let k := s.args.c
    let img := recImg s die s.args.b
    let r := Table.get {} (dieAt s die).recs s.args.b
    (StillOpen (coreOf s k) r.slot → ∃ t, exec .recordBind s = .next t ∧ BoundTo s t k r.slot img r ∧ Table.find (dieAt t die).recs s.args.b = none) ∧
    (¬ StillOpen (coreOf s k) r.slot →
      (∀ q, MostFree s img q → openSlots (coreOf s q) ≠ [] → ∃ t i, exec .recordBind s = .next t ∧ i ∈ openSlots (coreOf s q) ∧ BoundTo s t q i img r ∧
        Table.find (dieAt t die).recs s.args.b = none) ∧
      ((∀ q, Affine img q → openSlots (coreOf s q) = []) → ∃ t, exec .recordBind s = .next t ∧
        Table.get {} (dieAt t die).recs s.args.b = { r with slot := 8 } ∧ Due t .recordBind { a := die, b := s.args.b, c := k } (s.cycle + 1) 0))) ∧
  (∀ (s : State) (j : Nat) (r : Rec), let die := s.args.a
    let first (j : Nat) := imgFirst (recImg s die j)
    Table.find (dieAt s die).recs j = some r → r.st = 4 → r.setSize ≠ 0 → r.set_ = s.args.b →
    StillOpen (coreOf s (first j)) r.slot → ((dieAt s die).recs.map Prod.fst).Nodup → (∀ q ∈ (dieAt s die).recs, q.1 ≠ j → first q.1 ≠ first j) →
    ∃ t, exec .coLaunchPlacement s = .next t ∧ (dieAt t die).placing = none ∧ Table.find (dieAt t die).recs j = none ∧
      (slotAt (coreOf t (first j)) r.slot).live = true ∧ (slotAt (coreOf t (first j)) r.slot).setSize = r.setSize) ∧
  (∀ (s : State) (a d : Nat), let k := s.args.a
    let i := s.args.b
    (slotAt (coreOf s k) i).blockedIn = some (.spawn a d) → d < 16 → Fits (coreOf s k) i → stWait (coreOf s k) i = 5 →
    recordRoom s (Memory.write (slotAt (coreOf s k) i).img 0x0C 4 (newTask s k)) 1 = true →
      ∃ t, exec .watchEntryResume s = .next t ∧ GoesOn s t k i ∧ RecordMade s t (Memory.write (slotAt (coreOf s k) i).img 0x0C 4 (newTask s k)) ∧
        (d ≠ 0 → Memory.read (coreOf t k).lm (slotBase (coreOf s k) i + 4 * d) 4 = newTask s k % 2 ^ 32)) ∧
  (∀ s : State, let k := s.args.a
    (slotAt (coreOf s k) s.args.b).live = true → stState (coreOf s k) s.args.b = 5 → (slotAt (coreOf s k) s.args.b).outst = 0 →
    ∃ t, exec .slotFreeAfterDrain s = .next t ∧ (slotAt (coreOf t k) s.args.b).live = false ∧
      (isBarista k = false → Due t .distributorSelect { a := dieOfCore k } (s.cycle + 1) 0))

/-- Global loads and stores (R248, R250 to R254): an access that no check of its issue refuses is in flight to its address; a load's task blocks
with WAIT 6, with no byte of memory changed; a store carries its register as read at issue. -/
def Obligations.GlobalLoadsAndStores : Prop :=
  (∀ (o sx z a d : Nat) (s : State), Solo s →
    let n := accessWidth sx z
    let va := globalEa (self s) o n a
    (GlobalLoad sx z d → Permitted s va n 0 →
      Issues (.gld o sx z a d) s .load va n fun y => y.dest = accessReg sx z ∧ y.reg = d ∧ y.sx = (if z ≤ 1 then sx else 0) ∧ y.hint = 64) ∧
    (GlobalStore sx z d → Permitted s va n 1 →
      Posts (.gst o sx z a d) s .store va n fun y => y.val = ofType (self s) (accessReg sx z) d % 2 ^ (8 * n))) ∧
  (∀ p ∈ hintedKinds, ∀ (h a d : Nat) (s : State), Solo s → h < 40 → (p.1 = 5 → d < 8) →
    let va := rdX (self s) a
    (Permitted s va p.2.1 0 →
      Issues (.gldHome h p.1 a d) s .load va p.2.1 fun y => y.dest = p.2.2.2 ∧ y.reg = d ∧ y.sx = p.2.2.1 ∧ y.hint = h) ∧
    (p.1 ≠ 1 → p.1 ≠ 3 → Permitted s va p.2.1 1 →
      Posts (.gstHome h p.1 a d) s .store va p.2.1 fun y => y.val = ofType (self s) p.2.2.2 d % 2 ^ (8 * p.2.1) ∧ y.hint = h))

/-- Atomics, wait and shared accesses (R253, R254, R258 to R261): each blocks its task with WAIT 6, but an sst that has a tag, and is in flight
with the operands it read. -/
def Obligations.AtomicsAndShared : Prop :=
  (∀ p ∈ atomicRows, ∀ (w b a d m : Nat) (s : State), Solo s → w ≤ 1 →
    let n := if w = 0 then 4 else 8
    (a < 8 → (w = 1 → b < 8 ∧ d < 8) → Permitted s (rdX (self s) a) n 2 → NoWindow s (rdX (self s) a) →
      Issues (p.1 0 0 w b a d) s .atomic (rdX (self s) a) n fun y =>
        y.op = p.2.1 ∧ y.val = rdR (self s) w b ∧ y.cmp = rdR (self s) w d ∧ y.dest = w ∧ y.reg = d) ∧
    ((w = 1 → m < 8 ∧ d < 8) → SharedOk s (rdW (self s) a) (rdW (self s) b) n →
      Issues (p.1 m 1 w b a d) s .satomic (rdW (self s) b) n fun y =>
        y.op = p.2.1 ∧ y.val = rdR (self s) w m ∧ y.cmp = rdR (self s) w d ∧ y.dest = w ∧ y.reg = d ∧ y.place = rdW (self s) a) ∧
    (∀ o v c : Nat, o < 2 ^ (8 * n) → v < 2 ^ (8 * n) → amoValue p.2.1 (8 * n) o v c = p.2.2 (8 * n) o v c)) ∧
  (∀ (k w b a d : Nat) (s : State), Solo s → w ≤ 1 → k ≤ 5 → (w = 1 → b < 8 ∧ d < 8) →
    let n := if w = 0 then 4 else 8
    Permitted s (rdX (self s) a) n 0 → NoWindow s (rdX (self s) a) →
    Issues (.wait k w b a d) s .wait (rdX (self s) a) n fun y => y.op = k ∧ y.val = rdR (self s) w b ∧ y.dest = w ∧ y.reg = d) ∧
  (∀ (w b a d : Nat) (s : State), Solo s → w ≤ 1 → (w = 1 → d < 8) →
    let n := if w = 0 then 4 else 8
    SharedOk s (rdW (self s) a) (rdW (self s) b) n →
    (Issues (.sld w b a d) s .sld (rdW (self s) b) n fun y => y.dest = w ∧ y.reg = d ∧ y.place = rdW (self s) a) ∧
    ∃ t, exec (.sst w b a d) s = .next t ∧ OnlyIssues s t ∧
      InFlight t s.cur .sst (rdW (self s) b) n (fun y => y.val = rdR (self s) w d ∧ y.place = rdW (self s) a) ∧
      let ahead := ∃ q ∈ s.accs, q.1 < s.nextId ∧ q.2.core = s.cur ∧ q.2.place = rdW (self s) a ∧ q.2.stage = .tag ∧
        (q.2.kind = .sst ∨ q.2.kind = .satomic ∨ q.2.kind = .sld)
      (tagsOut (self s) < 256 → ¬ ahead → (coreOf t s.cur).wseq = (self s).wseq + 1 ∧ GoesOn s t s.cur (here s)) ∧
      (256 ≤ tagsOut (self s) ∨ ahead → Waits (.sst w b a d) s t 6))

/-- Fences and cache instructions (R230, R254, R262, R264): an acquire empties L1 by its scope; a release blocks with WAIT 6; pref completes at
once; cln and inv are accesses of one sector; inv.all empties L1. -/
def Obligations.FencesAndCaches : Prop :=
  (∀ (sc : Nat) (s : State), Solo s → sc ≤ 5 →
    (∃ x, x = (if sc = 0 then self s else { self s with l1 := [], l1Gen := x.l1Gen }) ∧ CompletesAs (.fence sc 0) s x (pcAfter (self s) 4)) ∧
    (∀ k, k = 1 ∨ k = 2 → ∃ t, Waits (.fence sc k) s t 6 ∧ OnlyCores s t ∧ (slotAt (coreOf t s.cur) (here s)).opA = (self s).wseq.toNat)) ∧
  (∀ (sc k : Nat) (s : State), Solo s → k = 3 ∨ 6 ≤ sc → Traps (.fence sc k) s (illeg 4)) ∧
  (∀ (l a : Nat) (s : State), Solo s → ∃ t, exec (.pref l a) s = .next t ∧ OnlyIssues s t ∧ (coreOf t s.cur).lm = (self s).lm ∧
    (slotAt (coreOf t s.cur) (here s)).pc = pcAfter (self s) 4) ∧
  (∀ (a : Nat) (s : State), Solo s → Permitted s (rdX (self s) a) 1 0 →
    (Posts (.cln a) s .cln (rdX (self s) a) 1 fun _ => True) ∧
    (MicroMiss s (rdX (self s) a) → Issues (.inv a) s .inv (rdX (self s) a) 1 fun _ => True) ∧
    (∀ e, findTlb (rodOf s (rodOfCore s.cur)).tlb (rdX (self s) a) = some e →
      ∃ t, exec (.inv a) s = .next t ∧ OnlyIssues s t ∧ GoesOn s t s.cur (here s) ∧
        ∀ q ∈ (coreOf t s.cur).l1, q.1 ≠ paOf e (rdX (self s) a) / 256)) ∧
  (∀ s : State, Solo s → ∃ x, x = { self s with l1 := [], l1Gen := x.l1Gen } ∧ CompletesAs .invAll s x (pcAfter (self s) 4))

/-- The traps of a global or shared access in its issue cycle (R224, R240, R248, R250, R258): ALIGN 3, then XLATE 1 for an address above 57 bits,
then what the entry of the micro-TLB denies; ALIGN 1, LMBOUND 6 and LMBOUND 7 with the target's number for a shared one. -/
def Obligations.GlobalAccessTraps : Prop :=
  (∀ (o z a d : Nat) (s : State), Solo s → z ≤ 2 →
    let va := globalEa (self s) o (2 ^ z) a
    (va % 2 ^ z ≠ 0 → Traps (.gld o 0 z a d) s (trapOf 3 3 va) ∧ Traps (.gst o 0 z a d) s (trapOf 3 3 va)) ∧
    (va % 2 ^ z = 0 → 2 ^ 57 ≤ va → Traps (.gld o 0 z a d) s (trapOf 5 1 va) ∧ Traps (.gst o 0 z a d) s (trapOf 5 1 va)) ∧
    (∀ e, va % 2 ^ z = 0 → va < 2 ^ 57 → findTlb (rodOf s (rodOfCore s.cur)).tlb va = some e →
      (e.kind = 3 → Traps (.gld o 0 z a d) s (trapOf 5 3 va)) ∧
      (e.kind ≠ 3 → e.u = false → isPriv (self s) = false → Traps (.gld o 0 z a d) s (trapOf 5 2 va)) ∧
      (e.kind ≠ 3 → e.u = true → e.w = false → Traps (.gst o 0 z a d) s (trapOf 5 2 va)))) ∧
  (∀ (o sx z a d : Nat) (s : State), Solo s → (sx = 1 ∧ z = 2) ∨ (sx = 0 ∧ z = 3 ∧ 8 ≤ d) → Traps (.gld o sx z a d) s (illeg 2)) ∧
  (∀ (h a d : Nat) (s : State), Solo s → 40 ≤ h → Traps (.gldHome h 4 a d) s (illeg 4) ∧ Traps (.gstHome h 4 a d) s (illeg 4)) ∧
  (∀ (b a d : Nat) (s : State), Solo s →
    let k := rdW (self s) a
    let ad := rdW (self s) b
    let x := slotAt (self s) (here s)
    let info := ad % 2 ^ 15 + k % 2 ^ 20 * 2 ^ 32
    (ad % 4 ≠ 0 → Traps (.sld 0 b a d) s (trapOf 3 1 info) ∧ Traps (.sst 0 b a d) s (trapOf 3 1 info)) ∧
    (ad % 4 = 0 → x.setSize = 0 ∨ k < x.setBase ∨ x.setBase + x.setSize ≤ k →
      Traps (.sld 0 b a d) s (trapOf 4 6 info) ∧ Traps (.sst 0 b a d) s (trapOf 4 6 info)) ∧
    (ad % 4 = 0 → x.setSize ≠ 0 → x.setBase ≤ k → k < x.setBase + x.setSize →
      ad < (coreOf s k).lmspill.toNat ∨ (coreOf s k).lmscr.toNat ≤ ad →
      Traps (.sld 0 b a d) s (trapOf 4 7 info) ∧ Traps (.sst 0 b a d) s (trapOf 4 7 info)))

/-- Values and acknowledgements that arrive (R225, R251, R254, R258, R260): a value is deposited in its register, when the port of its bank is free,
and its task goes on; a store acknowledged moves WACK; a redirected push or pop moves SP and is counted as it completes; a shared access is applied to
its target, in the order of its core's; a load and a store perform at a die that holds what they need, and the store changes no block of another
core's L1 (R230). Accesses that wait and go on (R229 to R231, R254 to R257, R261 to R265): a fill deposits its rows, and the last makes its block
present; a load that hits returns the block's bytes in 2 cycles, if R272 does not order it behind what has overtaken the block (the model's reading,
log 61); a prefetch reads its sector; a tag is taken once there is room, an order ends, a fence's release is done, a wait translates and reads
again. -/
def Obligations.AccessesComplete : Prop :=
  ((∀ (s : State) (x : Acc), acc s s.args.b x → x.stage = .back → x.kind = .load ∨ x.kind = .sld → x.tag = none → WaitedFor s x → RegField x.dest x.reg →
    x.got < 2 ^ (8 * x.n) → (x.sx = 1 → x.n ≤ 2) → x.fill = false ∨ x.block = none ∨ x.rows = 255 → PortsFree s x.core →
    ∃ t, exec .globalLoadArrival s = .next t ∧ GoesOn s t x.core x.slot ∧ Table.find t.accs s.args.b = none ∧
      slotReg (coreOf t x.core) x.slot x.dest x.reg = (if x.sx = 1 then pat 32 (sgn (8 * x.n) x.got) else x.got) % 2 ^ regBits x.dest ∧
      ∀ sp, x.sp = some sp → StackMoved s t x sp) ∧
  (∀ (s : State) (x : Acc), acc s s.args.b x → x.stage = .back → x.kind = .store → x.tag = some ((coreOf s x.core).wack + 1).toNat →
    (coreOf s x.core).acked = [] → waitsFor s x = false →
    ∃ t, exec .storeAck s = .next t ∧ Table.find t.accs s.args.b = none ∧ (coreOf t x.core).wack = (coreOf s x.core).wack + 1) ∧
  (∀ (s : State) (x : Acc), acc s s.args.b x → x.kind = .sst → (∀ q ∈ s.accs, q.2.stage ≠ .own) → PortsFree s x.place →
    NoneShared s s.args.b x.core x.place .path →
    ∃ t, exec .depositApply s = .next t ∧ Table.find t.accs s.args.b = none ∧ Memory.read (coreOf t x.place).lm x.va x.n = x.val % 256 ^ x.n) ∧
  (∀ (s : State) (x : Acc), acc s s.args.b x → x.kind = .sld →
    (NoneShared s s.args.b x.core x.place .path →
      ∃ t y, exec .depositApply s = .next t ∧ acc t s.args.b y ∧ y.stage = .back ∧ y.got = Memory.read (coreOf s x.place).lm x.va x.n) ∧
    (¬ NoneShared s s.args.b x.core x.place .path →
      ∃ t, exec .depositApply s = .next t ∧ acc t s.args.b x ∧ Due t .depositApply { a := x.core, b := s.args.b } (s.cycle + 1) 1)) ∧
  (∀ (s : State) (x : Acc), acc s s.args.b x → x.kind = .satomic → (∀ q ∈ s.accs, q.2.stage ≠ .own) → PortsFree s x.place →
    NoneShared s s.args.b x.core x.place .path →
    let old := Memory.read (coreOf s x.place).lm x.va x.n
    let new := (if x.op = 0x11 ∧ old ≠ x.cmp then old else amoValue x.op (8 * x.n) old x.val x.cmp) % 256 ^ x.n
    (x.dest = 3 → x.sp = none → x.block = none → waitsFor s x = false →
      ∃ t, exec .depositApply s = .next t ∧ Memory.read (coreOf t x.place).lm x.va x.n = new) ∧
    (x.core ≠ x.place → x.sp = none → x.block = none → x.sx = 0 → WaitedFor s x → RegField x.dest x.reg → PortsFree s x.core →
      ∃ t, exec .depositApply s = .next t ∧ Memory.read (coreOf t x.place).lm x.va x.n = new ∧ GoesOn s t x.core x.slot ∧
        slotReg (coreOf t x.core) x.slot x.dest x.reg = old % 2 ^ regBits x.dest)) ∧
  (∀ (s : State) (x : Acc), acc s s.args.b x → x.stage = .path → x.kind = .load → x.bypass = false → isDram x.pa = true → x.place ≠ 40 →
    mayRead s x.place (lineOf x.pa) (2 ^ sectorOf x.pa) = true →
    ∃ t y, exec .globalLoadArrival s = .next t ∧ acc t s.args.b y ∧ y.stage = .back ∧ y.got = readLine s x.pa x.n) ∧
  (∀ (s : State) (x : Acc), acc s s.args.b x → x.stage = .path → x.kind = .store → x.bypass = false → isDram x.pa = true → x.place ≠ 40 →
    mayWrite s x.place (lineOf x.pa) = true → x.pa % 1024 + x.n ≤ 1024 → (∀ q ∈ s.accs, q.2.older = s.args.b → q.2.stage ≠ .joined) →
    ∃ t y, exec .storeAck s = .next t ∧ acc t s.args.b y ∧ y.stage = .back ∧ readAt t x.place x.pa x.n = x.val % 256 ^ x.n ∧
      ∀ k, k ≠ x.core → (coreOf t k).lm = (coreOf s k).lm ∧ (coreOf t k).l1 = (coreOf s k).l1)) ∧
  ((∀ (s : State) (x : Acc) (b : Nat), acc s s.args.b x → x.block = some b → x.fill = true → (coreOf s x.core).l1Gen = x.gen → PortsFree s x.core → Memory.wf x.sector = true →
    ∃ t, exec .l1Fill s = .next t ∧
      (∀ j, j < 32 → Memory.get (coreOf t x.core).lm (l1Addr (coreOf s x.core) b + 32 * s.args.c + j) = Memory.get x.sector (32 * s.args.c + j)) ∧
      (Nat.lor x.rows (2 ^ s.args.c) = 255 → (coreOf t x.core).l1.head? = some (x.pa / 256, b)) ∧
      (Nat.lor x.rows (2 ^ s.args.c) ≠ 255 → (coreOf t x.core).l1 = (coreOf s x.core).l1)) ∧
  (∀ (s : State) (x : Acc), acc s s.args.b x → x.kind = .pref → x.stage = .path → x.op ≠ 1 → x.place ≠ 40 →
    mayRead s x.place (lineOf x.pa) (2 ^ sectorOf x.pa) = true → ∃ t, exec .prefFill s = .next t ∧ Table.find t.accs s.args.b = none) ∧
  (∀ (s : State) (x : Acc), acc s s.args.b x → x.stage = .tag → x.kind ≠ .sld → x.sp = none → tagsOut (coreOf s x.core) < 256 →
    (x.kind = .sst ∨ x.kind = .satomic → NoneShared s s.args.b x.core x.place .tag) →
    ∃ t, exec .tagRoomResume s = .next t ∧ (coreOf t x.core).wseq = (coreOf s x.core).wseq + 1 ∧
      ∃ y, acc t s.args.b y ∧ y.tag = some ((coreOf s x.core).wseq + 1).toNat) ∧
  (∀ (s : State) (x : Acc) (sp : Nat), acc s s.args.b x → x.stage = .tag → x.kind = .store → x.sp = some sp → tagsOut (coreOf s x.core) < 256 →
    (∀ q ∈ (coreOf s x.core).l1, q.1 ≠ x.pa / 256) → x.page ≠ 0 → WaitedFor s x →
    ∃ t, exec .tagRoomResume s = .next t ∧ StackMoved s t x sp ∧ GoesOn s t x.core x.slot) ∧
  (∀ (s : State) (x : Acc), acc s s.args.b x → (x.stage = .own → x.page ≠ 0 → ownBefore s s.args.b = false →
      ∃ t y, exec .loadAfterStoreAck s = .next t ∧ acc t s.args.b y ∧ (y.stage = .path ∨ y.stage = .back)) ∧
    (x.stage = .order → earlierOpen s s.args.b = false → ownBefore s s.args.b = false →
      ∃ t y, exec .soAccessStart s = .next t ∧ acc t s.args.b y ∧ (y.stage = .path ∨ y.stage = .back))) ∧
  (∀ (s : State) (x : Acc) (b : Nat), acc s s.args.b x → x.stage = .own → x.kind = .load → x.page ≠ 0 → isDram x.pa = true → ownBefore s s.args.b = false →
    l1Find (coreOf s x.core) (x.pa / 256) = some b →
    let v := Memory.read (coreOf s x.core).lm (l1Addr (coreOf s x.core) b + x.pa % 256) x.n
    Table.find (coreOf s x.core).l1Age (x.pa / 256) ≠ some 3 ∨ v = readLine s x.pa x.n →
    ∃ t y, exec .loadAfterStoreAck s = .next t ∧ acc t s.args.b y ∧ y.stage = .back ∧ y.got = v ∧
      Due t .globalLoadArrival { a := x.core, b := s.args.b } (s.cycle + 2) 2) ∧
  (∀ (s : State) (sc k : Nat), (slotAt (coreOf s s.args.a) s.args.b).blockedIn = some (.fence sc k) →
    ∃ t, exec .fenceReleaseDone s = .next t ∧ GoesOn s t s.args.a s.args.b ∧ (k = 2 → sc ≠ 0 → (coreOf t s.args.a).l1 = [])) ∧
  (∀ (s : State) (x : Acc), acc s s.args.b x → x.kind = .wait →
    (x.stage = .path → ReadsAgain .waitWakeOnWrite s x) ∧
    (x.stage = .sleep → x.naps = s.args.c → s.args.a = x.core → ReadsAgain .waitTimeout s x)) ∧
  (∀ (s : State) (x : Acc), acc s s.args.b x → x.stage = .back → x.kind = .wait → x.tag = none → WaitedFor s x → x.again = false →
    waitTest (8 * x.n) x.op x.got x.val = false →
    ∃ t, exec .globalLoadArrival s = .next t ∧ At t s.args.b .sleep ∧ stWait (coreOf t x.core) x.slot = 2 ∧
      Due t .waitTimeout { a := x.core, b := s.args.b, c := x.naps + 1 } (s.cycle + 1024) 0) ∧
  (∀ (s : State) (x : Acc), acc s s.args.b x → x.stage = .behind → x.kind = .load → x.place ≠ 40 →
    mayRead s x.place (lineOf x.pa) (2 ^ sectorOf x.pa) = true →
    ∃ t y, exec .mshrReissue s = .next t ∧ acc t s.args.b y ∧ y.stage = .back ∧ y.got = readLine s x.pa x.n))

/-- Translation (R238 to R245): the lookups of an access; a walk, which begins at the root and reads an entry of each level through memory, ends in a
fault or at its leaf, and repeats while the page migrates; the re-read of a leaf whose D is 0 and the OR that sets it, in the entries that serve the
access. That a walk starts again from the root after 256 cycles is the model's reading (log 56), and that a re-read which meets MIG walks at once its
choice (log 76). What an entry says at its level (R238 to R240): with V = 0 it is a recoverable fault; a malformed one is a fault; a pointer leads to
the next table; a leaf ends the walk. The indexes of the five levels and the offset in a page of the lowest make up the address. -/
def Obligations.Translations : Prop :=
  ((∀ (s : State) (x : Acc), acc s (s.args.b - 1) x → s.args.b ≠ 0 → s.args.b ≤ s.nextId → x.stage = .walk →
    findTlb (dieAt s (accDie x)).tlb x.va = none → (∀ w ∈ s.walks, w.2.die = accDie x → w.2.page ≠ x.va / 2 ^ 16 % 2 ^ 41) →
    ∃ t w y, exec .walkStart s = .next t ∧ Table.find t.walks w = some y ∧ y.accs = [s.args.b - 1] ∧ y.die = accDie x ∧
      y.page = x.va / 2 ^ 16 % 2 ^ 41 ∧
      (s.walks = [] → y.runs = true ∧ y.lev = 4 ∧ y.table = (accDom s x).root ∧ WalkReads t y x.va)) ∧
  (∀ (s : State) (w : Walk) (x r : Acc) (id : Nat), Table.find s.walks s.args.b = some w → w.accs = [id] → id < s.nextId → s.args.c < s.nextId → id ≠ s.args.c →
    acc s id x → acc s s.args.c r → w.read = some s.args.c → r.stage ≠ .fault →
    (∀ u, entryStep r.got w.lev = .table u → ∃ t y, exec .tlbWalkFill s = .next t ∧ Table.find t.walks s.args.b = some y ∧ y.table = u ∧
      y.lev = w.lev - 1 ∧ y.accs = [id] ∧ WalkReads t y x.va) ∧
    (entryStep r.got w.lev = .leaf → pteMig r.got = true →
      ∃ t, exec .tlbWalkFill s = .next t ∧ Due t .migRewalk { a := w.die, b := s.args.b } (s.cycle + 256) 0) ∧
    (x.kind = .load → entryStep r.got w.lev = .fault true →
      ∃ t, exec .tlbWalkFill s = .next t ∧ Table.find t.walks s.args.b = none ∧ At t id .fault ∧
        Due t .faultPost { a := accDie x, b := 0, c := id, d := 1 } s.cycle 3) ∧
    (x.kind = .load → x.sp = none → entryStep r.got w.lev = .leaf → pteMig r.got = false → deniedLeaf r.got 0 x.priv = none →
      let n := min (pageSize w.lev) (2 ^ 21)
      ∃ t y, exec .tlbWalkFill s = .next t ∧ Table.find t.walks s.args.b = none ∧ acc t id y ∧
        y.pa = pteFrame r.got + (x.va / n * n) % pageSize w.lev + x.va % n ∧ y.page = pteKind r.got ∧
        (pteA r.got = false → ∃ k, UnitAcc t k .uwrite r.pa 1 fun z => z.op = 1 ∧ z.val = 0x40)) ∧
    (x.kind = .store → x.sp = none → x.tag = none → entryStep r.got w.lev = .leaf → pteMig r.got = false → deniedLeaf r.got 1 x.priv = none →
      pteA r.got = false ∨ pteD r.got = false →
      ∃ t y, exec .tlbWalkFill s = .next t ∧ Table.find t.walks s.args.b = none ∧ acc t id y ∧ y.stage ≠ .walk ∧ y.page = pteKind r.got ∧
        ∃ k, UnitAcc t k .uwrite r.pa 1 fun z => z.op = 1 ∧ z.val = 0xC0)) ∧
  (∀ (s : State) (w : Walk) (x : Acc) (id : Nat), Table.find s.walks s.args.b = some w → w.accs = [id] → acc s id x → id < s.nextId → w.read = none →
    ∃ t y, exec .migRewalk s = .next t ∧ Table.find t.walks s.args.b = some y ∧ y.accs = [id] ∧ y.lev = 4 ∧ y.table = (accDom s x).root ∧ WalkReads t y x.va) ∧
  (∀ (s : State) (x r : Acc) (e : TlbEntry), acc s s.args.b x → x.stage = .walk → x.kind = .store → x.sp = none → x.tag = none →
    acc s s.args.c r → s.args.c ≠ s.args.b → r.stage ≠ .fault → findTlb (rodOf s (rodOfCore x.core)).tlb x.va = some e →
    (s.args.d ≠ 1 → entryStep r.got e.lev = .leaf → pteMig r.got = false → deniedLeaf r.got 1 x.priv = none →
      ∃ t k, exec .dirtyReread s = .next t ∧ UnitAcc t k .uwrite e.leaf 1 fun z => z.op = 1 ∧ z.val = 0xC0) ∧
    (s.args.d ≠ 1 → entryStep r.got e.lev = .leaf → pteMig r.got = true → s.args.b < s.nextId →
      (∀ w ∈ s.walks, w.2.die = accDie x → w.2.page ≠ x.va / 2 ^ 16 % 2 ^ 41) →
      ∃ t w y, exec .dirtyReread s = .next t ∧ Table.find t.walks w = some y ∧ y.accs = [s.args.b] ∧ y.die = accDie x ∧
        y.page = x.va / 2 ^ 16 % 2 ^ 41 ∧ (s.walks = [] → y.runs = true ∧ y.lev = 4 ∧ y.table = (accDom s x).root ∧ WalkReads t y x.va)) ∧
    (s.args.d = 1 → ∃ t y, exec .dirtyReread s = .next t ∧ acc t s.args.b y ∧ y.pa = paOf e x.va ∧
      (∀ u ∈ (rodOf t (rodOfCore x.core)).tlb ++ (dieAt t (accDie x)).tlb, u.leaf = e.leaf → u.va ≤ x.va → x.va < u.va + u.size → u.d = true) ∧
      ∀ u ∈ (rodOf s (rodOfCore x.core)).tlb, u.leaf ≠ e.leaf ∨ x.va < u.va ∨ u.va + u.size ≤ x.va → u ∈ (rodOf t (rodOfCore x.core)).tlb))) ∧
  ((∀ (e lev : Nat), e % 2 = 0 → entryStep e lev = .fault true) ∧
  (∀ (e lev : Nat), e % 2 = 1 → e / 2 % 2 = 1 →
    entryStep e lev = if lev = 0 ∨ badPointer e lev = true then .fault false else .table (e / 2 ^ 8 % 2 ^ 44 * 2 ^ 8)) ∧
  (∀ (e lev : Nat), e % 2 = 1 → e / 2 % 2 = 0 → entryStep e lev = if 3 ≤ lev ∨ badLeaf e lev = true then .fault false else .leaf) ∧
  (∀ (e lev : Nat), badPointer e lev = true ↔ e / 2 ^ 52 % 2 ^ 12 ≠ 0 ∨ e / 4 % 2 ^ 6 ≠ 0 ∨ 3 * 2 ^ 40 ≤ e / 2 ^ 8 % 2 ^ 44 * 2 ^ 8 ∨
    (2 ≤ lev ∧ e / 2 ^ 8 % 2 ^ 44 * 2 ^ 8 % 4096 ≠ 0)) ∧
  (∀ (rd : Nat → Nat) (va t lev : Nat) (rest : List Nat), rd (t + 8 * walkIndex va lev) % 2 = 0 → walkFrom rd va t (lev :: rest) = .fault true) ∧
  (∀ (rd : Nat → Nat) (va t lev : Nat) (rest : List Nat), let e := rd (t + 8 * walkIndex va lev)
    e % 2 = 1 → e / 2 % 2 = 1 → lev ≠ 0 → badPointer e lev = false → walkFrom rd va t (lev :: rest) = walkFrom rd va (e / 2 ^ 8 % 2 ^ 44 * 2 ^ 8) rest) ∧
  (∀ (rd : Nat → Nat) (va t lev : Nat) (rest : List Nat), let e := rd (t + 8 * walkIndex va lev)
    e % 2 = 1 → e / 2 % 2 = 0 → walkFrom rd va t (lev :: rest) =
      if 3 ≤ lev ∨ badLeaf e lev = true then .fault false else .leaf e (t + 8 * walkIndex va lev) lev) ∧
  (∀ va, va < 2 ^ 57 → va = walkIndex va 4 * 2 ^ 48 + walkIndex va 3 * 2 ^ 39 + walkIndex va 2 * 2 ^ 30 + walkIndex va 1 * 2 ^ 21 +
    walkIndex va 0 * 2 ^ 16 + va % 2 ^ 16))

/-- Token coherence (R358 to R365, R369, R373): what a die answers to a read request; an answer takes from a place what it sends, a message gives
its tokens to the place it reaches, and the steps that move tokens leave the sum of those at the 41 places and on their way as it was; a request
goes to the home, reissues after 512 cycles and persists after two; the home reads from DRAM what its answer lacks, first; a winner keeps its
tokens; an atomic is performed at its holder, or has its tokens migrate with the history that names its die; a NACK translates again. -/
def Obligations.TokenCoherence : Prop :=
  (∀ (s : State) (place line j g : Nat), place < 40 → j < 4 → let l := l2Of s place line
    (l.tokens = 0 → answerRead s place line (2 ^ j) g = none) ∧
    (l.tokens = 1 → l.owner = false → answerRead s place line (2 ^ j) g = none) ∧
    (l.tokens = 1 → l.owner = true → ∃ m u, answerRead s place line (2 ^ j) g = some (m, u) ∧ m.tokens = 1 ∧ m.owner = true ∧ m.valid = 15 ∧ m.data = l.data) ∧
    (1 < l.tokens → l.valid / 2 ^ j % 2 = 0 → answerRead s place line (2 ^ j) g = none) ∧
    (1 < l.tokens → l.valid / 2 ^ j % 2 = 1 → ∃ m u, answerRead s place line (2 ^ j) g = some (m, u) ∧ m.tokens = 1 ∧ m.owner = false ∧ m.valid = 2 ^ j)) ∧
  (∀ (s t : State) (place line mask g : Nat) (m : Msg), place ≤ 40 → answerRead s place line mask g = some (m, t) ∨ answerAll s place line g = some (m, t) →
    m.line = line ∧ m.goal_ = g ∧ m.tokens + tokensAt t place line = tokensAt s place line ∧ OtherTokens s t place line) ∧
  (∀ (s : State) (place : Nat) (m : Msg), place = 40 ∨ (place < 40 ∧ victimOf (dieAt s place) m.line = none) →
    tokensAt (giveTokens place m s) place m.line = tokensAt s place m.line + m.tokens ∧ OtherTokens s (giveTokens place m s) place m.line) ∧
  (∀ s : State, s.args.a ≤ 40 → Conserves .tokenMessageReceive s ∧ Conserves .tokenRequestReceive s) ∧
  (∀ s : State, (∀ d ∈ s.dies, d.1 < 40) → Conserves .moduleRoundResult s) ∧
  (∀ s : State, s.args.b < s.nextId → ∃ t, exec .tokenMessageReceive s = .next t ∧ Table.find t.msgs s.args.b = none) ∧
  (∀ s : State, s.args.a ≤ 40 → (s.args.a = 40 → (homeOf s s.args.c).moved = false) → winnerOf s s.args.c ≠ some s.args.a → ∀ (m : Msg) (u : State),
    let ask := s.args.d % 16
    let late := ask < 8 ∧ s.args.a = 40 ∧ LlcLacks s s.args.c m.valid
    (ask % 8 < 4 ∧ answerRead s s.args.a s.args.c (2 ^ (ask % 8)) (s.args.d / 16) = some (m, u)) ∨
      (4 ≤ ask % 8 ∧ answerAll s s.args.a s.args.c (s.args.d / 16) = some (m, u)) →
    (¬ late → ∃ t i c, exec .tokenRequestReceive s = .next t ∧ Table.find t.msgs i = some m ∧
      Due t .tokenMessageReceive { a := m.goal_, b := i } (s.cycle + c) 0) ∧
    (late → ∃ t, exec .tokenRequestReceive s = .next t ∧ t.msgs = s.msgs ∧
      Due t .tokenRequestReceive { a := 40, b := s.args.b, c := s.args.c, d := s.args.d + 8 } (s.cycle + 110) 0)) ∧
  (∀ s : State, winnerOf s s.args.c = some s.args.a → (s.args.a = 40 → (homeOf s s.args.c).moved = false) →
    ∃ t, exec .tokenRequestReceive s = .next t ∧ t.msgs = s.msgs ∧ ∀ p l, tokensAt t p l = tokensAt s p l) ∧
  (∀ s : State, s.args.a = 40 → (homeOf s s.args.c).moved = true → ∃ t c, exec .tokenRequestReceive s = .next t ∧
    Due t .nackReceive { a := (accAt s s.args.b).core, b := s.args.b } (s.cycle + c) 0) ∧
  (∀ (s : State) (x : Acc), acc s s.args.b x → x.stage = .path → x.kind = .load → isDram x.pa = true → x.bypass = false → x.place < 40 →
    mayRead s x.place (lineOf x.pa) (2 ^ sectorOf x.pa) = false → victimOf (dieAt s x.place) (lineOf x.pa) ≠ some none →
    (∀ q ∈ s.accs, q.2.stage ≠ .tokens) → ∃ t c, exec .globalLoadArrival s = .next t ∧ At t s.args.b .tokens ∧
      Due t .tokenRequestReceive { a := 40, b := s.args.b, c := lineOf x.pa, d := 16 * x.place + sectorOf x.pa } (s.cycle + c) 0) ∧
  (∀ (s : State) (x : Acc), acc s s.args.b x → x.stage = .tokens → x.born = s.args.c → x.place < 40 →
    victimOf (dieAt s x.place) (lineOf x.pa) ≠ some none →
    (x.tries < 2 → ∃ t y, exec .requestReissue s = .next t ∧ acc t s.args.b y ∧ y.tries = x.tries + 1 ∧
      Due t .requestReissue { a := x.core, b := s.args.b, c := x.born } (s.cycle + 512) 1) ∧
    (2 ≤ x.tries → ∃ t, exec .requestReissue s = .next t ∧ s.args.b ∈ (dieAt t x.place).persist)) ∧
  (∀ s : State, ∃ t, exec .moduleRoundSample s = .next t ∧ Due t .moduleRoundSample { a := s.args.a + 1 } (96 * (s.args.a + 1)) 3 ∧
    Due t .moduleRoundResult { a := s.args.a } (96 * (s.args.a + 1)) 0) ∧
  (∀ s : State, ∃ t, exec .moduleRoundResult s = .next t ∧ t.modRound = s.args.a ∧ t.modActive = s.modSample) ∧
  (∀ (s : State) (x : Acc), acc s s.args.b x → x.stage = .tokens → x.taken = false → x.kind = .atomic → s.args.a < 40 → s.args.c = lineOf x.pa →
    ownerPlace s (lineOf x.pa) = some s.args.a →
    let h := (lineHist s (lineOf x.pa) ++ [dieOfCore x.core]).reverse.take 4
    (h.count (dieOfCore x.core) < 3 → mayWrite s s.args.a (lineOf x.pa) = true →
      ∃ t y, exec .atomicRequestReceive s = .next t ∧ acc t s.args.b y ∧ y.stage = .back ∧ y.got = readAt s s.args.a x.pa x.n) ∧
    (∀ m u, 3 ≤ h.count (dieOfCore x.core) → winnerOf s (lineOf x.pa) ≠ some s.args.a → answerAll s s.args.a (lineOf x.pa) x.place = some (m, u) →
      ∃ t y i c, exec .atomicRequestReceive s = .next t ∧ Table.find t.msgs i = some { m with hist := h.reverse } ∧
        Due t .tokenMessageReceive { a := m.goal_, b := i } (s.cycle + c) 0 ∧ acc t s.args.b y ∧ y.taken = true ∧ y.migr = true)) ∧
  (∀ (s : State) (x : Acc), acc s s.args.b x → s.args.b < s.nextId → x.stage = .tokens →
    (x.phys = false → ∃ t, exec .nackReceive s = .next t ∧ At t s.args.b .walk) ∧
    (x.phys = true → x.next.isSome = true → ∃ t y, exec .nackReceive s = .next t ∧ acc t s.args.b y ∧ y.stage = .fault ∧ y.got = 0) ∧
    (x.phys = true → x.next = none → x.op = 1 → ∃ t k y, exec .nackReceive s = .next t ∧ acc t k y ∧ y.stage = .walk ∧ y.va = x.va ∧ y.op = 3 ∧
      y.kind = if x.val = 0xC0 then .uwrite else .uread))

/-- Page moves (R371 to R373): an operation starts, with all tokens of its first line asked for, or is refused by its block's STATUS; with the
tokens of both lines at hand a line's bytes are copied and its tokens return to its home, which marks the old one moved; then LINES counts it and
the next follows, or the operation is done; marks are released. That a refusal leaves OP is the model's reading (log 53). -/
def Obligations.PageMoves : Prop :=
  (∀ s : State, BlockUnwatched s s.args.a → let old := moveField s s.args.a 0 8
    let new := moveField s s.args.a 8 8
    let pages := moveField s s.args.a 0x10 4
    (moveRefused 1 old new pages = true → ∃ t, exec .move s = .next t ∧ poolRead t s.args.a 0x310015 1 = 3 ∧
      poolRead t s.args.a 0x310014 1 = poolRead s s.args.a 0x310014 1) ∧
    (moveRefused 1 old new pages = false → ∃ t k, exec .move s = .next t ∧ poolRead t s.args.a 0x310015 1 = 1 ∧ poolRead t s.args.a 0x310018 8 = 0 ∧
      (dieAt t s.args.a).move = some { op := 1, old := old / 1024, new := new / 1024, lines := pages * 64 } ∧
      UnitAcc t k .uwrite (old / 1024 * 1024) 1 fun z => z.op = 2 ∧ z.core = moveUnit s.args.a)) ∧
  (∀ (op old new pages : Nat), moveRefused op old new pages = true ↔ pages = 0 ∨ 16384 < pages ∨ old % 2 ^ 16 ≠ 0 ∨ 3 * 2 ^ 40 < old + pages * 2 ^ 16 ∨
    (op = 1 ∧ (new % 2 ^ 16 ≠ 0 ∨ 3 * 2 ^ 40 < new + pages * 2 ^ 16 ∨ (old < new + pages * 2 ^ 16 ∧ new < old + pages * 2 ^ 16)))) ∧
  (∀ (s : State) (o : MoveOp) (x : Acc), (dieAt s s.args.a).move = some o → acc s s.args.c x → x.stage ≠ .fault → s.args.a < 40 →
    let old := o.old + o.next
    let new := o.new + o.next
    (s.args.b = 0 → ∃ t k, exec .moveLineStep s = .next t ∧ UnitAcc t k .uwrite (new * 1024) 1 fun z => z.op = 2 ∧ z.core = moveUnit s.args.a) ∧
    (s.args.b = 1 → old ≠ new → x.place = s.args.a → HoldsAll s s.args.a old → HoldsAll s s.args.a new →
      ∃ t, exec .moveLineStep s = .next t ∧ tokensAt t s.args.a old = 0 ∧ tokensAt t s.args.a new = 0 ∧
        (∃ m ∈ t.msgs, m.2.line = new ∧ m.2.tokens = 64 ∧ m.2.owner = true ∧ m.2.goal_ = 40 ∧ m.2.moved = false ∧
          ∀ j, j < 1024 → Memory.get m.2.data j = Memory.get (lineBytes s old) j) ∧
        (∃ m ∈ t.msgs, m.2.line = old ∧ m.2.tokens = 64 ∧ m.2.owner = true ∧ m.2.goal_ = 40 ∧ m.2.moved = true ∧ m.2.from_ = s.args.a ∧
          ∀ j, j < 1024 → Memory.get m.2.data j = Memory.get (lineBytes s old) j))) ∧
  (∀ (s : State) (m : Msg), Table.find s.msgs s.args.b = some m → s.args.a = 40 → m.moved = true →
    ∃ t, exec .tokenMessageReceive s = .next t ∧ (homeOf t m.line).moved = true ∧ Due t .moveLineStep { a := m.from_, b := 3, c := m.line } s.cycle 3) ∧
  (∀ (s : State) (o : MoveOp), (dieAt s s.args.a).move = some o → s.args.b = 3 → s.args.c = o.old + o.next → BlockUnwatched s s.args.a →
    ∃ t, exec .moveLineStep s = .next t ∧ poolRead t s.args.a 0x310018 8 = (o.next + 1) % 2 ^ 64 ∧
      (o.lines ≤ o.next + 1 → (dieAt t s.args.a).move = none ∧ poolRead t s.args.a 0x310015 1 = 2 ∧ poolRead t s.args.a 0x310014 1 = 0) ∧
      (o.next + 1 < o.lines → (dieAt t s.args.a).move = some { o with next := o.next + 1 } ∧
        ∃ k, UnitAcc t k .uwrite ((o.old + o.next + 1) * 1024) 1 fun z => z.op = 2)) ∧
  (∀ s : State, BlockUnwatched s s.args.a → let old := moveField s s.args.a 0 8
    let pages := moveField s s.args.a 0x10 4
    (moveRefused 2 old 0 pages = true → ∃ t, exec .releaseMovedMarks s = .next t ∧ poolRead t s.args.a 0x310015 1 = 3 ∧
      poolRead t s.args.a 0x310014 1 = poolRead s s.args.a 0x310014 1) ∧
    (moveRefused 2 old 0 pages = false → ∃ t, exec .releaseMovedMarks s = .next t ∧ poolRead t s.args.a 0x310015 1 = 2 ∧
      ∀ l, old / 1024 ≤ l → l < old / 1024 + pages * 64 → (homeOf t l).moved = false))

/-- Jobs are issued (R283 to R285, R290, R292, R308 to R310, R318, R323, R324): the copy instructions, mx.mm and mc.post form a job of their
descriptors, or trap on descriptors that R309 or their own checks refuse (which those are, CopyUnit, MatrixEngine and Baristas say); job.fence puts a
fence behind the jobs issued so far. Jobs end (R284, R286 to R288): the increment is added to the counter, or ERR set in it and the fault record
written; the entry is free, and who waits for one takes it. -/
def Obligations.Jobs : Prop :=
  ((∀ p ∈ copyInstrs, ∀ (r pr f e a d : Nat) (s : State), Solo s →
    (¬ DescriptorsOk s e p.2.2.1 p.2.2.2.1 → Traps (p.1 r pr f e a d) s (illeg 4)) ∧
    (DescriptorsOk s e p.2.2.1 p.2.2.2.1 →
      let j := jobOf s p.2.1 e p.2.2.1 a f pr r []
      (∀ t, p.2.2.2.2 (self s) j = some t → Traps (p.1 r pr f e a d) s t) ∧
      (p.2.2.2.2 (self s) j = none → IssuesJob (p.1 r pr f e a d) s 0 d j))) ∧
  (∀ (f e a d : Nat) (s : State), Solo s →
    (¬ DescriptorsOk s e 5 badMm → Traps (.mxMm f e a d) s (illeg 4)) ∧
    (DescriptorsOk s e 5 badMm →
      let x := slotAt (self s) (here s)
      let j := jobOf s 4 e 5 a f 0 0 [(self s).cfg0.toNat, (self s).cfg1.toNat, x.setBase, x.setSize]
      (∀ t, mmTrap (self s) j = some t → Traps (.mxMm f e a d) s t) ∧ (mmTrap (self s) j = none → IssuesJob (.mxMm f e a d) s 1 d j))) ∧
  (∀ (n f e a d : Nat) (s : State), Solo s →
    (5 < n ∨ ¬ DescriptorsOk s e (2 + n) badPost → Traps (.mcPost n f e a d) s (illeg 4)) ∧
    (n ≤ 5 → DescriptorsOk s e (2 + n) badPost → IssuesJob (.mcPost n f e a d) s 2 d (jobOf s 5 e (2 + n) a f 0 0 []))) ∧
  (∀ (q : Nat) (s : State), Solo s → q < 8 →
    (q = 0 → Traps (.jobFence q) s (illeg 4)) ∧
    (q ≠ 0 → ∃ x, x = { self s with fences := x.fences } ∧ CompletesAs (.jobFence q) s x (pcAfter (self s) 4) ∧
      (∀ i, i < 3 → q.testBit i = true → ∀ w, w < 3 → q.testBit w = true → (w, nth 0 (self s).jobCount w) ∈ nth [] x.fences i) ∧
      (∀ i, i < 3 → q.testBit i = false → nth [] x.fences i = nth [] (self s).fences i)))) ∧
  ((∀ (s : State) (j : Job), let k := s.args.a
    let q := s.args.b
    q ≤ 2 → headJob s k q = some j → j.ending = true → NoneFlying s k q j.id → RecordsBelow s → 0x300000 ≤ ctrOff (jobCtr j) →
    (jobRec j ≠ 0 → 0x300000 ≤ ctrOff (jobRec j)) →
    ∃ t, exec .jobCompletion s = .next t ∧ (queueOf (coreOf t k) q).length + 1 = (queueOf (coreOf s k) q).length ∧
      nth 0 (coreOf t k).jobDone q = (nth 0 (coreOf s k).jobDone q + 1) % 2 ^ 32 ∧
      (j.error = 0 → counterWord t (jobCtr j) = counterAdd (counterWord s (jobCtr j)) j.inc) ∧
      (j.error ≠ 0 → jobRec j = 0 → counterWord t (jobCtr j) = Nat.lor (counterWord s (jobCtr j)) (2 ^ 63)) ∧
      (j.error ≠ 0 → j.error < 2 ^ 8 → jobRec j ≠ 0 →
        ctrDie (jobRec j) ≠ ctrDie (jobCtr j) ∨ ctrOff (jobRec j) + 64 ≤ ctrOff (jobCtr j) ∨ ctrOff (jobCtr j) + 8 ≤ ctrOff (jobRec j) →
        counterWord t (jobCtr j) = Nat.lor (counterWord s (jobCtr j)) (2 ^ 63) ∧
        poolRead t (ctrDie (jobRec j)) (ctrOff (jobRec j)) 1 = j.error ∧ poolRead t (ctrDie (jobRec j)) (ctrOff (jobRec j) + 1) 1 = 2)) ∧
  (∀ (s : State) (j : Job) (f : Nat × Flight), let k := s.args.a
    let q := s.args.b
    headJob s k q = some j → j.ending = true → f ∈ s.flights → f.2.core = k → f.2.queue = q → f.2.jobId = j.id →
    ∃ t, exec .jobCompletion s = .next t ∧ Due t .jobCompletion { a := k, b := q } (s.cycle + 1) 2) ∧
  (∀ (s : State) (ins : Instr) (i : Nat) (j : Job), let k := s.args.a
    let q := s.args.b
    q ≤ 2 → kindQueue j.kind = q → nth [] (coreOf s k).jobWait q = [(i, j)] → (queueOf (coreOf s k) q).length < 4 →
    (slotAt (coreOf s k) i).blockedIn = some ins → Fits (coreOf s k) i → jobDest ins < 16 →
    ∃ t, exec .jobEntryTake s = .next t ∧ GoesOn s t k i ∧ (queueOf (coreOf t k) q).length = (queueOf (coreOf s k) q).length + 1 ∧
      nth [] (coreOf t k).jobWait q = [] ∧
      (jobDest ins ≠ 0 → slotReg (coreOf t k) i 0 (jobDest ins) = (nth 0 (coreOf s k).jobCount q + 1) % 2 ^ 32)))

/-- The payload stream of a copy job (R293, R294, R313): each sector's pieces are its units in stream order, each piece within one row of its
source and one of its destination; where the units of a send stand, in place and transposed (log 42). The copy unit (R289, R293 to R298, R355): a
turn delivers the next sector of a rod's job, a write that lands is applied or ends the job with its code, an access of a sector that ends in a
fault leaves the sector held and its fault to be posted, once for a page, a fault is posted once nothing is in flight, sectors that were held are
replayed, a gather reads at the home and deposits what it read. In which turn a row is read, and for how long one read is kept, is the model's
reading (log 42), and so are the 64 cycles by which every write of a transposed copy comes later (log 81). What the copy instructions refuse at
their issue (R312 to R316): reserved bits, shapes, places and elements out of range; a footprint that a load may not read; its INFO where an extent
passes 0x6000 is the model's choice (log 89). -/
def Obligations.CopyUnit : Prop :=
  ((∀ ds : List Nat, let w := nth 0 ds
      (badSend ds = false ↔ w 1 / 2 ^ 30 % 4 = 0 ∧ w 2 / 2 ^ 26 % 2 ^ 36 = 0 ∧ w 3 / 2 ^ 46 % 2 ^ 16 = 0) ∧
      (badPut ds = false ↔ w 1 / 2 ^ 30 % 4 = 0 ∧ w 2 / 2 ^ 26 % 2 ^ 36 = 0) ∧
      (badRl ds = false ↔ w 1 / 2 ^ 35 % 2 ^ 29 = 0 ∧ (w 1).testBit 15 = false ∧ w 3 / 2 ^ 48 % 2 ^ 16 = 0 ∧ w 3 / 2 ^ 29 % 8 = 0) ∧
      (badHalo ds = false ↔ (w 4).testBit 63 = false)) ∧
    (∀ (c : Core) (spans : List (Int × Nat)), c.bar = false → c.lmscr.toNat % 32 = 0 → (∀ q ∈ spans, 0 < q.2) →
      ((∀ q ∈ spans, SpanReads c q) → footTrap c spans = none) ∧
      ∀ l q r, spans = l ++ q :: r → (∀ p ∈ l, SpanReads c p) → ¬ SpanReads c q →
        let ea := max q.1.toNat (loadEnd c)
        footTrap c spans = some (if q.1 < 0 then trapOf 4 1 (pat 15 q.1) else trapOf 4 (if 0x6000 ≤ ea then 1 else 3) (ea % 2 ^ 15))) ∧
    (∀ (c : Core) (put : Bool) (j : Job), j.kind ≤ 1 →
      let w := dsc j 1
      let src := dsc j 2
      let dst := dsc j 3
      let rows := w / 2 ^ 16 % 2 ^ 14 + 1
      let cols := w % 2 ^ 14 + 1
      let ew := w / 2 ^ 14 % 4
      let spans := (List.range rows).map fun (r : Nat) => (((src % 2 ^ 26 : Nat) : Int) + r * sgn 16 (w / 2 ^ 32 % 2 ^ 16), if j.tr then cols * (4 * 2 ^ ew) / 8 else cols)
      let ok : Prop := (if j.tr then rows ≤ 64 ∧ cols ≤ 64 ∧ (ew = 0 → rows % 2 = 0 ∧ cols % 2 = 0) else ew = 0) ∧
        src / 2 ^ 62 % 4 ≤ 1 ∧ (src / 2 ^ 62 % 4 = 0 → src / 2 ^ 15 % 2 ^ 11 = 0) ∧
        (if put then dst / 2 ^ 57 % 2 ^ 7 = 0
          else dst / 2 ^ 62 % 4 ≤ 1 ∧ (dst / 2 ^ 62 % 4 = 0 → dst / 2 ^ 15 % 2 ^ 11 = 0 ∧ dst / 2 ^ 26 % 2 ^ 20 ≤ 655359) ∧
            (dst / 2 ^ 62 % 4 = 1 → dst / 2 ^ 26 % 2 ^ 20 ≤ 39))
      (¬ ok → sendTrap c put j = some (illeg 4)) ∧
      (ok → src / 2 ^ 62 % 4 = 0 → sendTrap c put j = footTrap c spans) ∧
      (ok → src / 2 ^ 62 % 4 = 1 → ((∀ q ∈ spans, 0 ≤ q.1 ∧ q.1 + q.2 ≤ 2 ^ 26) → sendTrap c put j = none) ∧
        ((∃ q ∈ spans, q.1 < 0 ∨ 2 ^ 26 < q.1 + q.2) → sendTrap c put j = some (illeg 4)))) ∧
    (∀ (c : Core) (j : Job), j.kind = 2 →
      let l := dsc j 1
      let loc := dsc j 3
      let ew := loc / 2 ^ 27 % 4
      let n := l / 2 ^ 16 % 2 ^ 15
      let ok : Prop := l / 2 ^ 32 % 8 ≤ 5 ∧ (if j.tr then ew ≠ 0 ∧ 8 * 2 ^ (l / 2 ^ 32 % 8) = 4 * 2 ^ ew else loc / 2 ^ 15 % 2 ^ 33 = 0)
      (¬ ok → rlTrap c j = some (illeg 4)) ∧
      (ok → l % 2 ^ 15 % 16 ≠ 0 → rlTrap c j = some (trapOf 3 1 (l % 2 ^ 15))) ∧
      (ok → l % 2 ^ 15 % 16 = 0 → rlTrap c j = if n = 0 then none else footTrap c [(((l % 2 ^ 15 : Nat) : Int), 16 * n)])) ∧
    (∀ (c : Core) (j : Job), j.kind = 3 →
      let h := dsc j 4
      let d := h / 2 ^ 15 % 8 + 2
      let keys := ((List.range d).map fun i => ax d (keyOf d (dsc j 2)) i + 1 - ax d (keyOf d (dsc j 1)) i).prod
      let n := keys * 2 ^ (h / 2 ^ 54 % 8)
      let ok : Prop := j.tr = false ∧ d ≤ 8 ∧ h / 2 ^ 18 % 8 < d ∧ h / 2 ^ 22 % 2 ^ 32 < 2 ^ axisBits d ∧ h / 2 ^ 54 % 8 ≤ 5 ∧ dsc j 5 / 2 ^ 57 % 2 ^ 7 = 0
      (¬ ok → haloTrap c j = some (illeg 4)) ∧
      (ok → 0x6000 < h % 2 ^ 15 + n → haloTrap c j = some (trapOf 4 1 (h % 2 ^ 15))) ∧
      (ok → h % 2 ^ 15 + n ≤ 0x6000 → haloTrap c j = if n = 0 then none else footTrap c [(((h % 2 ^ 15 : Nat) : Int), n)]))) ∧
  ((∀ (j : Job) (x : Nat), let k := unitsPerByte j
    ((piecesOf j x).flatMap fun p => (List.range p.n).map fun (i : Nat) =>
        ({ p.src with addr := p.src.addr + (i : Int) }, { p.dst with addr := p.dst.addr + (i : Int) })) =
      ((List.range (sectorBytes j x * k)).map fun i => (srcSpot j (256 * x * k + i), dstSpot j (256 * x * k + i))) ∧
    ∀ p ∈ piecesOf j x, ∀ i : Nat, i < p.n → (p.src.addr + i) / 32 = p.src.addr / 32 ∧ (p.dst.addr + i) / 32 = p.dst.addr / 32) ∧
  (∀ (j : Job) (r c : Nat), j.kind = 0 → j.tr = false → let cols := dsc j 1 % 2 ^ 14 + 1
    c < cols →
    (srcSpot j (r * cols + c)).addr = ((dsc j 2 % 2 ^ 26 : Nat) : Int) + r * sgn 16 (dsc j 1 / 2 ^ 32 % 2 ^ 16) + c ∧
    (dsc j 3 / 2 ^ 62 % 4 ≠ 2 →
      (dstSpot j (r * cols + c)).addr = ((dsc j 3 % 2 ^ 26 : Nat) : Int) + r * sgn 16 (dsc j 1 / 2 ^ 48 % 2 ^ 16) + c)) ∧
  (∀ (j : Job) (r c b : Nat), j.kind = 0 → j.tr = true → let cols := dsc j 1 % 2 ^ 14 + 1
    let n := 2 ^ (dsc j 1 / 2 ^ 14 % 4 - 1)
    dsc j 1 / 2 ^ 14 % 4 ≠ 0 → c < cols → b < n →
    (srcSpot j ((r * cols + c) * n + b)).addr = ((dsc j 2 % 2 ^ 26 : Nat) : Int) + r * sgn 16 (dsc j 1 / 2 ^ 32 % 2 ^ 16) + c * n + b ∧
    (dsc j 3 / 2 ^ 62 % 4 ≠ 2 →
      (dstSpot j ((r * cols + c) * n + b)).addr = ((dsc j 3 % 2 ^ 26 : Nat) : Int) + c * sgn 16 (dsc j 1 / 2 ^ 48 % 2 ^ 16) + r * n + b))) ∧
  ((∀ (s : State) (l : Nat) (j : Job), let k := 8 * s.args.a + l
    l < 8 → headJob s k 0 = some j → (∀ m, m < 8 → m ≠ l → headJob s (8 * s.args.a + m) 0 = none) → (rodOf s s.args.a).copyFree ≤ s.cycle →
    j.kind = 0 → j.started = true → j.ending = false → j.fault = none → j.pages = [] → j.held = [] → j.replay = [] → j.since ≤ s.cycle →
    j.next < j.total → j.prog = false → j.rows = [] → dsc j 2 / 2 ^ 62 % 4 = 0 → dsc j 3 / 2 ^ 62 % 4 ≤ 1 →
    (∀ f ∈ s.flights, f.2.core = k → f.2.trans = false) →
    ∃ t id f y, exec .copySectorTurn s = .next t ∧ Table.find t.flights id = some f ∧ f.core = k ∧ f.jobId = j.id ∧ f.sector = j.next ∧
      f.writes.map (fun w => w.2.data) = (piecesOf j j.next).map (fun p => pieceBytes (rowNow s p.src) p) ∧
      (∀ w ∈ f.writes, s.cycle + (if j.tr then 64 else 0) + 1 < w.1) ∧
      headJob t k 0 = some y ∧ y.next = j.next + 1 ∧ y.inFlight = j.inFlight + 1 ∧
      (rodOf t s.args.a).copyLane = l ∧ s.cycle < (rodOf t s.args.a).copyFree) ∧
  (∀ (s : State) (f : Flight) (j : Job) (w : Wr), let k := s.args.a
    Table.find s.flights s.args.b = some f → headJob s k 0 = some j → j.id = f.jobId → j.ending = false → s.args.d = 0 → s.args.b < s.nextId →
    OnlyWrites f → PortsFree s w.unit → NoneBehind s s.args.b f w →
    (OneDeposit s j f w → j.error = 0 → ∃ t y, exec .copyDepositLand s = .next t ∧ Landed t w ∧ Table.find t.flights s.args.b = none ∧ headJob t k 0 = some y ∧
      y.done_ = j.done_ + f.bytes ∧ y.inFlight = if j.prog then j.inFlight else j.inFlight - 1) ∧
    ((∃ c, f.writes = [(c, w)] ∧ c ≤ s.cycle) → w.kind = 0 → dieInDom (theDom s j.core) (dieOfCore w.unit) = false →
      ∃ t y, exec .copyDepositLand s = .next t ∧ headJob t k 0 = some y ∧ y.ending = true ∧ y.error = 4)) ∧
  (∀ (s : State) (f : Flight) (j : Job) (x : Acc), let k := s.args.a
    let id := s.args.d - 1
    Table.find s.flights s.args.b = some f → headJob s k 0 = some j → j.id = f.jobId → j.ending = false → s.args.d ≠ 0 → s.args.b < s.nextId →
    acc s id x → f.wait = [id] →
    (x.stage ≠ .fault → x.op ≠ 3 → f.writes = [] → f.gather = [] → f.trans = false → f.prog = false → j.error = 0 →
      ∃ t y, exec .copyDepositLand s = .next t ∧ Table.find t.flights s.args.b = none ∧ Table.find t.accs id = none ∧ headJob t k 0 = some y ∧
        y.done_ = j.done_ + f.bytes) ∧
    (x.stage = .fault → x.got = 3 → j.pages.contains (x.va / 2 ^ 16) = false → j.fault = none →
      ∃ t y, exec .copyDepositLand s = .next t ∧ Table.find t.flights s.args.b = none ∧ headJob t k 0 = some y ∧ y.fault = some (f.sector, x.va) ∧
        y.held = j.held ++ [f.sector] ∧ y.inFlight = j.inFlight - 1) ∧
    (x.stage = .fault → x.got = 3 → j.pages.contains (x.va / 2 ^ 16) = true → j.fault = none → j.started = true → 1 < j.inFlight →
      ∃ t y, exec .copyDepositLand s = .next t ∧ Table.find t.flights s.args.b = none ∧ headJob t k 0 = some y ∧ y.fault = none ∧
        y.held = j.held ++ [f.sector]) ∧
    (x.stage = .fault → x.got ≠ 3 → ∃ t y, exec .copyDepositLand s = .next t ∧ headJob t k 0 = some y ∧ y.ending = true ∧ y.error = x.got / 2 ∧
      y.errVa = x.va)) ∧
  (∀ (s : State) (j : Job) (x va : Nat), let k := s.args.a
    headJob s k 0 = some j → j.fault = some (x, va) → j.inFlight = 0 → j.ending = false → RecordsBelow s →
    ∃ t, exec .copyFaultPost s = .next t ∧
      Due t .faultPost { a := dieOfCore k, b := 1, c := k, d := if j.kind = 2 ∧ rlPuts j = false then 1 else 2 } s.cycle 3 ∧
      (0x300000 ≤ ctrOff (jobRec j) → poolRead t (ctrDie (jobRec j)) (ctrOff (jobRec j)) 2 = 0x0101 ∧
        (j.kind ≤ 3 → j.id < 2 ^ 32 → poolRead t (ctrDie (jobRec j)) (ctrOff (jobRec j) + 8) 8 = va % 2 ^ 64))) ∧
  (∀ (s : State) (j : Job), let k := s.args.a
    headJob s k 0 = some j → j.ending = false → j.fault = none → j.pages = [s.args.b] →
    ∃ t y, exec .copyReplay s = .next t ∧ headJob t k 0 = some y ∧ y.pages = [] ∧ y.held = [] ∧ y.replay.Pairwise (· < ·) ∧
      (∀ x, x ∈ y.replay ↔ x < j.total ∧ (x ∈ j.replay ∨ x ∈ j.held)) ∧ Due t .copySectorTurn { a := rodOfCore k } (s.cycle + 1) 1) ∧
  (∀ (s : State) (f : Flight) (j : Job) (va at_ n : Nat), let k := s.args.a
    let pa := framePa f.frames (256 * (va / 256))
    Table.find s.flights s.args.b = some f → headJob s k 0 = some j → f.gather = [(va, at_, n)] → isDram pa = true →
    ∃ t a c g, exec .gatherRequestArrive s = .next t ∧ UnitAcc t a .uread pa 256 (fun z => z.place = 40) ∧ 20 ≤ c ∧
      Due t .globalLoadArrival { a := k, b := a } (s.cycle + c) 2 ∧ Table.find t.flights s.args.b = some g ∧ g.wait = [a] ∧ g.gather = f.gather) ∧
  (∀ (s : State) (f : Flight) (j : Job) (x : Acc) (va at_ n : Nat), let k := s.args.a
    let id := s.args.d - 1
    Table.find s.flights s.args.b = some f → headJob s k 0 = some j → j.id = f.jobId → j.ending = false → acc s id x → x.stage ≠ .fault →
    f.wait = [id] → f.gather = [(va, at_, n)] → va / 256 = x.va / 256 →
    ∃ t c g, exec .gatherReadDone s = .next t ∧ s.cycle + 80 + (if j.tr then 64 else 0) ≤ c ∧ Due t .copyDepositLand { a := k, b := s.args.b } c 2 ∧
      Table.find t.flights s.args.b = some g ∧ g.gather = [] ∧ g.wait = [] ∧
      g.writes = f.writes ++ [(c, { kind := 0, unit := k, addr := at_, data := toBytes n (x.got / 2 ^ (8 * (va % 256)) % 2 ^ (8 * n)) })]))

/-- The matrix engine (R299 to R303, R317, R318, R320, R332): mx.cfg sets CFG0 and CFG1; each element of C is in one tile; an element is the dot
product that its pairing names, over the incoming value; a visit to a lane goes on while it stands, then the next lane in order that has a tile is
visited; a rod fetches a tile, pins its lines, starts the tile of the lane that is visited and gives any other up, and ends it; the C rows of a
tile land, and the last tile's end its job. When rows are read, and which fetched tiles are given up, are the model's readings (logs 45, 63, 64); so
is that rows due before their tile starts land in the first cycle after it (log 65), and the least times of an access to a pool are drawn freely
(log 2). What mx.mm refuses at its issue (R318, R319, R321): its fields, a misaligned operand, a footprint that a load may not read, rows of C
outside the scratchpad; which address INFO then reports is not said (log 89). -/
def Obligations.MatrixEngine : Prop :=
  ((∀ w, badLoc w = false ↔ if w / 2 ^ 62 % 4 = 2 then w / 2 ^ 57 % 2 ^ 5 = 0 else w / 2 ^ 35 % 2 ^ 27 = 0) ∧
    (∀ ds : List Nat, badMm ds = false ↔ (∀ i ∈ [1, 2, 3], badLoc (nth 0 ds i) = false) ∧ nth 0 ds 4 / 2 ^ 53 % 2 ^ 11 = 0) ∧
    (∀ (c : Core) (j : Job), let sh := dsc j 4
      let m := 16 * (sh % 16 + 1)
      let n := 16 * (sh / 2 ^ 4 % 16 + 1)
      let k := 16 * (sh / 2 ^ 8 % 16 + 1)
      let fmt := sh / 2 ^ 12 % 16
      let row := k * (if fmt ≤ 3 then 16 else 8) / 8
      let lda := 32 * (sh / 2 ^ 16 % 2 ^ 12)
      let ldb := 32 * (sh / 2 ^ 28 % 2 ^ 12)
      let ldc := 32 * (sh / 2 ^ 40 % 2 ^ 12)
      let lds := dsc j 5 / 2 ^ 32 % 2 ^ 16
      let addr (w : Nat) : Nat := if w / 2 ^ 62 % 4 = 2 then w % 2 ^ 57 else w % 2 ^ 15
      let ok : Prop := fmt ≤ 11 ∧ (∀ i ∈ [1, 2, 3], LocationOk (dsc j i)) ∧ row ≤ lda ∧ row ≤ ldb ∧ 4 * n ≤ ldc ∧
        (9 ≤ fmt → LocationOk (dsc j 6) ∧ (dsc j 5).testBit 48 = true ∧ (k + 31) / 32 ≤ lds)
      let aligned : Prop := ∀ i ∈ [1, 2, 3], addr (dsc j i) % 32 = 0
      let spans := ownRows (dsc j 1) lda row m ++ ownRows (dsc j 2) ldb row n ++ if 9 ≤ fmt then ownRows (dsc j 6) lds ((k + 31) / 32) n else []
      let at_ (i : Nat) : Nat := dsc j 3 % 2 ^ 15 + ldc * i
      let fits (i : Nat) : Prop := c.lmspill.toNat ≤ at_ i ∧ at_ i + 4 * n ≤ c.lmscr.toNat
      (¬ ok → mmTrap c j = some (illeg 4)) ∧
      (ok → ∀ i ∈ [1, 2, 3], addr (dsc j i) % 32 ≠ 0 → (∀ h ∈ [1, 2, 3], h < i → addr (dsc j h) % 32 = 0) →
        mmTrap c j = some (trapOf 3 (if dsc j i / 2 ^ 62 % 4 = 2 then 3 else 1) (addr (dsc j i)))) ∧
      (ok → aligned → ∀ t, footTrap c spans = some t → mmTrap c j = some t) ∧
      (ok → aligned → footTrap c spans = none →
        ((dsc j 3 / 2 ^ 62 % 4 = 0 → ∀ i, i < m → fits i) → mmTrap c j = none) ∧
        (dsc j 3 / 2 ^ 62 % 4 = 0 → (∃ i, i < m ∧ ¬ fits i) → ∃ a, mmTrap c j = some (trapOf 4 7 a))))) ∧
  (∀ (e : Nat) (s : State), Solo s →
    (e ≤ 6 → rdE (self s) e / 2 ^ 49 % 2 ^ 15 = 0 → badLoc (rdE (self s) (e + 1)) = false →
      CompletesAs (.mxCfg e) s { self s with cfg0 := BitVec.ofNat 64 (rdE (self s) e), cfg1 := BitVec.ofNat 64 (rdE (self s) (e + 1)) } (pcAfter (self s) 4)) ∧
    (6 < e ∨ rdE (self s) e / 2 ^ 49 % 2 ^ 15 ≠ 0 ∨ badLoc (rdE (self s) (e + 1)) = true → Traps (.mxCfg e) s (illeg 4))) ∧
  (∀ (j : Job) (r c : Nat), r < mxM j → c < mxN j →
    let holds (x : Nat) : Prop := x < tileCount j ∧ (tileAt j x).1 ≤ r ∧ r < (tileAt j x).1 + (tileAt j x).2.2.1 ∧
      (tileAt j x).2.1 ≤ c ∧ c < (tileAt j x).2.1 + (tileAt j x).2.2.2
    ∃ x, holds x ∧ ∀ y, holds y → y = x) ∧
  (∀ (j : Job) (c a b sc : Nat), let ks := List.range (mxK j)
    let scale (g : Nat) : Nat := sc / 2 ^ (8 * g) % 2 ^ 8
    let beads (k : Nat) : Int := beadUnits (b / 2 ^ (8 * k) % 2 ^ 8)
    (mxFmt j ≤ 7 → let t := [(1, 1), (2, 2), (1, 2), (2, 1), (3, 3), (3, 4), (4, 3), (4, 4)].getD (mxFmt j) (1, 1)
      macElement j c a b sc = (dotFP c 16 (ks.map fun k =>
        (unpack (fmtOf t.1) (a / 2 ^ (typeWidth t.1 * k) % 2 ^ typeWidth t.1), unpack (fmtOf t.2) (b / 2 ^ (typeWidth t.2 * k) % 2 ^ typeWidth t.2)))).1) ∧
    (mxFmt j = 8 → macElement j c a b sc =
      pat 32 (ks.foldl (fun (v : Int) i => v + sgn 8 (a / 2 ^ (8 * i) % 2 ^ 8) * sgn 8 (b / 2 ^ (8 * i) % 2 ^ 8)) (c : Int))) ∧
    (mxFmt j = 9 → ∃ run : Nat → Nat, run 0 = c ∧
      (∀ g, g < (mxK j + 31) / 32 →
        let sum : Int := ((ks.filter fun k => decide (k / 32 = g)).map fun k => beads k * sgn 8 (a / 2 ^ (8 * k) % 2 ^ 8)).sum
        run (g + 1) = (groupStep false [unpack fmtF32 (run g),
          if scale g = 255 then .nan false else .fin (decide (sum < 0)) sum.natAbs ((scale g : Int) - 133)]).1) ∧
      macElement j c a b sc =
        (packF fmtF32 .rne (mulNum (unpack fmtF32 (run ((mxK j + 31) / 32))) (unpack fmtF32 (dsc j 5 % 2 ^ 32))).1).1) ∧
    (mxFmt j = 10 ∨ mxFmt j = 11 → macElement j c a b sc = (dotFP c 32 (ks.map fun k =>
      (unpack (fmtOf (mxFmt j - 7)) (a / 2 ^ (8 * k) % 2 ^ 8),
        if scale (k / 32) = 255 then .nan false
        else unpack fmtF32 (packF fmtF32 .rne (.fin (decide (beads k < 0)) (beads k).natAbs ((scale (k / 32) : Int) - 133))).1))).1)) ∧
  (∀ (s : State) (rod : Nat), let r := rodOf s rod
    let has (l : Nat) : Prop := (laneNext s rod l).isSome = true
    let stands : Prop := (r.mxNew = true ∨ 0 < r.mxLeft) ∧ has r.mxLane
    (stands → nextLane s rod = some r.mxLane) ∧
    (¬ stands → ∀ i, i < 8 → (∀ m, m < i → ¬ has ((r.mxLane + 1 + m) % 8)) → has ((r.mxLane + 1 + i) % 8) → nextLane s rod = some ((r.mxLane + 1 + i) % 8)) ∧
    (¬ stands → (∀ i, i < 8 → ¬ has ((r.mxLane + 1 + i) % 8)) → nextLane s rod = none) ∧
    ∀ l, (queueOf (coreOf s (8 * rod + l)) 1 = [] → ¬ has l) ∧
      ∀ j js, queueOf (coreOf s (8 * rod + l)) 1 = j :: js → j.ending = false → j.next < tileCount j →
        (fencesPassed s (8 * rod + l) j = true → laneNext s rod l = some (.tile j j.next)) ∧ (fencesPassed s (8 * rod + l) j = false → ¬ has l)) ∧
  (∀ (s : State) (l n : Nat) (j : Job), let rod := s.args.a
    let u := arbitrate rod s
    s.args.d = 0 → (rodOf s rod).mxTile = none → nextLane u rod = some l → laneNext u rod l = some (.tile j n) →
    (∀ i ∈ [1, 2, 3], dsc j i / 2 ^ 62 % 4 = 0) → hasScales j = false →
    ∃ t x, exec .tileFetch s = .next t ∧ (rodOf t rod).mxTile = some x ∧ x.lane = l ∧ x.job = j.id ∧ x.index = n ∧ x.ready = true ∧
      x.at_ = max j.since (s.cycle + 1) ∧ Due t .tileStart { a := rod } (max x.at_ (rodOf s rod).mxFree) 1) ∧
  (∀ (s : State) (x : Tile) (j : Job) (line : Nat), let rod := s.args.a
    let die := rod / 2048
    (rodOf s rod).mxTile = some x → headJob s (8 * rod + x.lane) 1 = some j → x.stage = 1 → x.todo = [[line]] →
    (pinRoom s die [line] = true → victimOf (dieAt s die) line = none →
      ∃ t y, exec .pinGranted s = .next t ∧ (rodOf t rod).mxTile = some y ∧ y.todo = [] ∧ y.pins = x.pins ++ [line] ∧ y.stage = 2 ∧
        (y.ready = true ∨ y.wait ≠ []) ∧ (l2Of t die line).pins = (l2Of s die line).pins + 1) ∧
    (pinRoom s die [line] = false → ∃ t, exec .pinGranted s = .next t ∧ (rodOf t rod).mxTile = some x ∧ (rodOf t rod).mxWait = true ∧
      (l2Of t die line).pins = (l2Of s die line).pins)) ∧
  (∀ (s : State) (x : Tile), let rod := s.args.a
    let u := arbitrate rod s
    (rodOf s rod).mxRuns = none → (rodOf s rod).mxTile = some x → x.ready = true → max x.at_ (rodOf s rod).mxFree ≤ s.cycle →
    ((rodOf u rod).mxLane ≠ x.lane → ∃ t, exec .tileStart s = .next t ∧ (rodOf t rod).mxTile = none ∧ (rodOf t rod).mxRuns = none ∧
      Due t .tileFetch { a := rod } s.cycle 1) ∧
    (∀ j, (rodOf u rod).mxLane = x.lane → laneNext u rod x.lane = some (.tile j x.index) → j.id = x.job → dsc j 3 / 2 ^ 62 % 4 ≤ 1 →
      let k := 8 * rod + x.lane
      let free := s.cycle + (tileAt j x.index).2.2.1 / 16 * (mxK j / mxF j) * (if s.alarm then 2 else 1)
      ∃ t id f y, exec .tileStart s = .next t ∧ Table.find t.flights id = some f ∧ f.core = k ∧ f.jobId = j.id ∧ f.sector = x.index ∧
        f.writes.map Prod.snd = (tileResult u k j x.frames (tileAt j x.index)).1.flatMap (rowWrites k) ∧
        (∀ w ∈ f.writes, s.cycle + 1 ≤ w.1 ∧ w.1 ≤ free + 23 ∧ Due t .tileDone { a := rod, b := id + 1, c := k } w.1 2) ∧
        headJob t k 1 = some y ∧ y.next = x.index + 1 ∧ y.inFlight = j.inFlight + 1 ∧ (rodOf t rod).mxFree = free ∧ (rodOf t rod).mxTile = none ∧
        (rodOf t rod).mxRuns = some x ∧ (rodOf t rod).mxNew = false ∧
        (rodOf t rod).mxLeft =
          (if (rodOf u rod).mxNew then max 1 ((rodOf s rod).weight.toNat / 2 ^ (4 * x.lane) % 2 ^ 4) else (rodOf u rod).mxLeft) - 1 ∧
        (rodOf t rod).nTiles = (rodOf s rod).nTiles + (if s.alarm then 1 else 0) ∧ Due t .tileDone { a := rod } free 0)) ∧
  (∀ (s : State) (x : Tile) (line : Nat) (y : L2Line), s.args.b = 0 → (rodOf s s.args.a).mxRuns = some x → (rodOf s s.args.a).mxTile = none → x.pins = [line] →
    Table.find (dieAt s (s.args.a / 2048)).l2 line = some y →
    ∃ t, exec .tileDone s = .next t ∧ (rodOf t s.args.a).mxRuns = none ∧ (l2Of t (s.args.a / 2048) line).pins = y.pins - 1) ∧
  (∀ (s : State) (f : Flight) (j : Job) (w : Wr), s.args.b ≠ 0 → s.args.d = 0 → Table.find s.flights (s.args.b - 1) = some f →
    headJob s s.args.c 1 = some j → j.id = f.jobId → j.ending = false → j.prog = false → OnlyWrites f → OneDeposit s j f w → PortsFree s w.unit →
    NoneBehind s (s.args.b - 1) f w →
    ∃ t y, exec .tileDone s = .next t ∧ Landed t w ∧ Table.find t.flights (s.args.b - 1) = none ∧ headJob t s.args.c 1 = some y ∧ y.inFlight = j.inFlight - 1 ∧
      (j.inFlight = 1 → j.total ≤ j.next → y.ending = true ∧ y.error = 0)) ∧
  (∀ (s : State) (f : Flight) (j : Job) (x : Acc) (c : Nat) (w : Wr), let id := s.args.b - 1
    let pa := framePa (f.frames ++ [frameOf x]) w.unit
    s.args.b ≠ 0 → s.args.d ≠ 0 → Table.find s.flights id = some f → headJob s s.args.c 1 = some j → j.id = f.jobId → j.ending = false →
    acc s (s.args.d - 1) x → x.stage ≠ .fault → x.op = 3 → f.wait = [s.args.d - 1] → f.writes = [(c, w)] → isWindow pa = false →
    ∃ t z, exec .tileDone s = .next t ∧ UnitAcc t z .uwrite pa w.data.length (fun y => y.val = fromBytes w.data) ∧
      (isPool pa = false → Due t .storeAck { a := s.args.c, b := z } (max c s.cycle) 2) ∧
      (isPool pa = true → ∃ n, 40 ≤ n ∧ Due t .storeAck { a := s.args.c, b := z } (max (c - 24) s.cycle + n) 2))

/-- The programs of the baristas (R304, R323, R326 to R331): the reserved bits of a post and the record of a request; mcl.take, mcl.read, mcl.push and
mcl.done; what follows the error end of a record is the model's reading (log 46), and the least time to a completion its choice (log 87). What reaches
a barista (R304, R305, R327 to R329, R331): a request enters its ring or goes to a waiting take, a read stands in local memory, sector by sector, and
one that a moved line answers with a NACK is asked for again, 57 cycles later or more (the split of a minimum, log 15), a push is applied, or waits
behind an earlier one to its row, a request that expires ends in error, a program starts at START in a workspace of zeros but for the bounds of its
carve-out (log 46). -/
def Obligations.Baristas : Prop :=
  ((∀ ds : List Nat, badPost ds = false ↔ nth 0 ds 1 / 2 ^ 20 % 2 ^ 44 = 0 ∧ nth 0 ds 1 / 2 ^ 9 % 2 ^ 7 = 0) ∧
  (∀ j : Job, j.core < 2 ^ 32 → j.id < 2 ^ 32 → (∀ w ∈ j.desc, w < 2 ^ 64) → let r := requestRecord j
    r % 2 ^ 32 = j.core ∧ r / 2 ^ 32 % 2 ^ 32 = j.id ∧ r / 2 ^ 64 % 2 ^ 8 = dsc j 1 / 2 ^ 16 % 2 ^ 4 ∧
    r / 2 ^ 72 % 2 ^ 8 = (if j.free then 0 else 1) + (if j.priv then 2 else 0) ∧ r / 2 ^ 80 % 2 ^ 16 = j.dom % 2 ^ 16 ∧
    r / 2 ^ 96 % 2 ^ 32 = dsc j 0 % 2 ^ 32 ∧ r / 2 ^ 128 % 2 ^ 32 = j.inc % 2 ^ 32 ∧ r / 2 ^ 160 % 2 ^ 32 = dsc j 0 / 2 ^ 32 % 2 ^ 32 ∧
    ∀ i, i < 5 → r / 2 ^ (192 + 64 * i) % 2 ^ 64 = dsc j (i + 2)) ∧
  (∀ (a d : Nat) (s : State), Solo s → (self s).bar = true → liveRecord (self s) = none → rdW (self s) a % 64 = 0 →
    Storable (self s) (rdW (self s) a) 32 → Storable (self s) (rdW (self s) a + 32) 32 →
    (∀ j js, (self s).ring = j :: js → (self s).ringWait = [] → Memory.read (self s).lm (4 * (dsc j 1 / 2 ^ 16 % 2 ^ 4)) 4 ≠ 0 →
      ∃ t, exec (.mclTake a d) s = .next t ∧ OnlyCores s t ∧
        (coreOf t s.cur).lm = (wrW { self s with lm := Memory.write (self s).lm (rdW (self s) a) 64 (requestRecord j) } d
          (Memory.read (self s).lm (4 * (dsc j 1 / 2 ^ 16 % 2 ^ 4)) 4)).lm ∧
        (slotAt (coreOf t s.cur) (here s)).pc = pcAfter (self s) 4 ∧ (coreOf t s.cur).ring = js ∧
        (coreOf t s.cur).current = some { j with since := s.cycle, inFlight := 0, done_ := 0 } ∧
        Due t .baristaRequestTimeout { a := s.cur, b := (self s).takes + 1 } (s.cycle + 2 ^ 24) 0) ∧
    ((self s).ring = [] → ∃ t, Waits (.mclTake a d) s t 4 ∧ OnlyCores s t)) ∧
  (∀ (sx a d : Nat) (s : State), Solo s → (self s).bar = true → sx ≤ 1 →
    let pa := rdX (self s) a
    let at_ := rdW (self s) d
    isDram pa = true → pa % 256 = 0 → Config.cores + channelOf (lineOf pa) = s.cur → sectorOf pa + (sx + 1) ≤ 4 → at_ % 32 = 0 →
    (∀ i, i < 8 * (sx + 1) → Storable (self s) (at_ + 32 * i) 32) →
    ∃ t, Waits (.mclRead sx a d) s t 6 ∧ OnlyIssues s t ∧
      (slotAt (coreOf t s.cur) (here s)).opA = pa ∧ (slotAt (coreOf t s.cur) (here s)).opB = at_ ∧
      ∀ i, i ≤ sx → ∃ id n, UnitAcc t id .uread (pa + 256 * i) 256 (fun z => z.place = 40 ∧ z.core = s.cur) ∧ 20 ≤ n ∧
        Due t .globalLoadArrival { a := s.cur, b := id } (s.cycle + n) 2) ∧
  (∀ (r e a : Nat) (j : Job) (s : State), Solo s → (self s).bar = true → (self s).current = some j → j.error = 0 →
    let w := rdE (self s) e
    w / 2 ^ 62 % 4 = 0 → w / 2 ^ 46 % 2 ^ 16 = 0 → w / 2 ^ 15 % 2 ^ 11 = 0 → w / 2 ^ 26 % 2 ^ 20 < Config.cores → w % 2 ^ 26 % 32 = 0 →
    (∀ i, i ≤ r → Reachable (self s) (rdW (self s) a + 32 * i) 32) →
    ∃ t id f y, exec (.mclPush r e a) s = .next t ∧ (coreOf t s.cur).lm = (self s).lm ∧ (slotAt (coreOf t s.cur) (here s)).pc = pcAfter (self s) 4 ∧
      (coreOf t s.cur).current = some y ∧ y.inFlight = j.inFlight + 1 ∧ Table.find t.flights id = some f ∧ f.core = j.core ∧ f.jobId = j.id ∧
      (∀ q ∈ f.writes, s.cycle + 80 ≤ q.1 ∧ Due t .baristaPushArrive { a := s.cur, b := id } q.1 2) ∧
      f.writes.map Prod.snd = (List.range (r + 1)).map fun i =>
        { kind := 0, unit := w / 2 ^ 26 % 2 ^ 20, addr := w % 2 ^ 26 + 32 * i, data := toBytes 32 (Memory.read (self s).lm (rdW (self s) a + 32 * i) 32) }) ∧
  (∀ (r e a : Nat) (j : Job) (s : State), Solo s → (self s).bar = true → (self s).current = some j → j.error ≠ 0 →
    CompletesAs (.mclPush r e a) s (self s) (pcAfter (self s) 4) ∧ CompletesAs .mclDone s { self s with current := none } (pcAfter (self s) 4)) ∧
  (∀ s : State, Solo s →
    ((self s).current = none → Traps .mclDone s (illeg 4)) ∧
    (∀ j h js, (self s).current = some j → j.error = 0 → j.inFlight = 0 → nth [] (coreOf s j.core).jobs 2 = h :: js → h.id = j.id → h.dom = j.dom →
      ∃ t n y, exec .mclDone s = .next t ∧ OnlyCores s t ∧ (coreOf t s.cur).current = none ∧ (slotAt (coreOf t s.cur) (here s)).pc = pcAfter (self s) 4 ∧
        headJob t j.core 2 = some y ∧ y.ending = true ∧ y.error = 0 ∧ 100 ≤ n ∧ Due t .jobCompletion { a := j.core, b := 2 } (s.cycle + n) 2) ∧
    (∀ j, (self s).current = some j → j.error = 0 → j.inFlight ≠ 0 → ∃ t, Waits .mclDone s t 6 ∧ OnlyCores s t))) ∧
  ((∀ (s : State) (j : Job), let b := Config.cores + dsc j 1 % 2 ^ 9
    headJob s s.args.a 2 = some j → j.id = s.args.b → j.dom = s.args.c → j.ending = false → (coreOf s b).ringWait = [] →
    ((slotAt (coreOf s b) 0).blockedIn = none → (coreOf s b).ring.length < 256 →
      ∃ t, exec .baristaRingEnter s = .next t ∧ (coreOf t b).ring = (coreOf s b).ring ++ [j]) ∧
    (∀ a d, (slotAt (coreOf s b) 0).blockedIn = some (.mclTake a d) → (coreOf s b).ring = [] → 0 < d → d < 16 → Fits (coreOf s b) 0 →
      Memory.read (coreOf s b).lm (4 * (dsc j 1 / 2 ^ 16 % 2 ^ 4)) 4 ≠ 0 →
      ∃ t, exec .baristaRingEnter s = .next t ∧ GoesOn s t b 0 ∧ (coreOf t b).current = some { j with since := s.cycle, inFlight := 0, done_ := 0 } ∧
        slotReg (coreOf t b) 0 0 d = Memory.read (coreOf s b).lm (4 * (dsc j 1 / 2 ^ 16 % 2 ^ 4)) 4)) ∧
  (∀ (s : State) (sx a d : Nat) (y : Acc), let k := s.args.a
    let id := s.args.d - 1
    let x := slotAt (coreOf s k) 0
    let at_ := x.opB + (y.pa - x.opA)
    x.blockedIn = some (.mclRead sx a d) → acc s id y → id < s.nextId →
    (y.stage = .fault → ∃ t z n, exec .mclReadDone s = .next t ∧ Table.find t.accs id = none ∧ UnitAcc t z .uread y.pa 256 (fun z => z.place = 40 ∧ z.core = k) ∧
      (isDram y.pa = true → 57 ≤ n ∧ Due t .globalLoadArrival { a := k, b := z } (s.cycle + n) 2)) ∧
    (y.stage ≠ .fault → at_ + 256 ≤ statusAt (coreOf s k) 0 ∨ statusAt (coreOf s k) 0 + 4 ≤ at_ →
      ∃ t, exec .mclReadDone s = .next t ∧ Memory.read (coreOf t k).lm at_ 256 = y.got % 256 ^ 256 ∧ Table.find t.accs id = none ∧
        ((∀ q ∈ s.accs, q.1 ≠ id → q.2.core ≠ k) → GoesOn s t k 0) ∧
        ((∃ q ∈ s.accs, q.1 ≠ id ∧ q.2.core = k) → (slotAt (coreOf t k) 0).blockedIn = some (.mclRead sx a d)))) ∧
  (∀ (s : State) (f : Flight) (j : Job) (w : Wr) (c : Nat), let k := s.args.a
    Table.find s.flights s.args.b = some f → (coreOf s k).current = some j → j.error = 0 → f.core = j.core → f.jobId = j.id →
    (slotAt (coreOf s k) 0).blockedIn = none → f.writes = [(c, w)] → c ≤ s.cycle → ¬ NoneBehind s s.args.b f w →
    ∃ t, exec .baristaPushArrive s = .next t ∧ (∀ u, (coreOf t u).lm = (coreOf s u).lm) ∧ (coreOf t k).current = some j ∧
      Table.find t.flights s.args.b = some { f with writes := [(s.cycle + 1, w)] } ∧ Due t .baristaPushArrive { a := k, b := s.args.b } (s.cycle + 1) 2) ∧
  (∀ (s : State) (f : Flight) (j : Job) (w : Wr), let k := s.args.a
    Table.find s.flights s.args.b = some f → (coreOf s k).current = some j → j.error = 0 → f.core = j.core → f.jobId = j.id → OneDeposit s j f w → PortsFree s w.unit →
    NoneBehind s s.args.b f w →
    ((slotAt (coreOf s k) 0).blockedIn = none → ∃ t, exec .baristaPushArrive s = .next t ∧ Landed t w ∧ Table.find t.flights s.args.b = none ∧
      (coreOf t k).current = some { j with done_ := j.done_ + 32, inFlight := j.inFlight - 1 }) ∧
    ((slotAt (coreOf s k) 0).blockedIn = some .mclDone → j.inFlight = 1 →
      ∃ t, exec .baristaPushArrive s = .next t ∧ GoesOn s t k 0 ∧ (coreOf t k).current = none)) ∧
  (∀ (s : State) (j : Job), let k := s.args.a
    (coreOf s k).takes = s.args.b → (coreOf s k).current = some j → j.error = 0 → (slotAt (coreOf s k) 0).blockedIn = none →
    ∃ t, exec .baristaRequestTimeout s = .next t ∧ (coreOf t k).current = some { j with error := 9 }) ∧
  (∀ s : State, (coreOf s s.args.a).takes ≠ s.args.b → exec .baristaRequestTimeout s = .next s) ∧
  (∀ s : State, let k := s.args.a
    (coreOf s k).running = false →
    ∃ t, exec .baristaStart s = .next t ∧ (coreOf t k).running = true ∧
      slotAt (coreOf t k) 0 = { live := true, pc := Memory.read (coreOf s k).lm 0x40 4 / 2 * 2, readyAt := s.cycle } ∧
      (∀ a, Memory.get (coreOf t k).lm a = if a = 0x701 then 0x0C else if a = 0x705 then 0x08 else if a = 0x729 then 0x0C
        else if 0x400 ≤ a ∧ a < 0x800 then 0 else Memory.get (coreOf s k).lm a)))

/-- A step runs the decoded instruction (R65 to R67, R75, R90, R165): the earliest entry of the agenda is performed; an issue that is its core's
turn is exec of the instruction that the word at the PC decodes to, in the state in which its task has issued. The agenda and the open turn are the
model's form of time (log 1). -/
def Obligations.StepRunsDecoded : Prop :=
  (∀ (s : State) (k : Nat), s.turn = some k →
    (∀ i, (fetch (issuing k s)).2 = .ok i → step s = exec i (issuing k s)) ∧
    (∀ tr, (fetch (issuing k s)).2 = .error tr → step s = .next (trapNow tr (issuing k s)))) ∧
  (∀ (s : State) (e : Entry) (rest : List Entry), s.turn = none → leastOf s.agenda = some (e, rest) →
    let u := { s with agenda := rest, cycle := max s.cycle (e.time / 4) }
    (∀ i x, e.item = .ev i x → step s = exec i { u with args := x }) ∧
    (∀ k v, e.item = .issue k → turnOf k u = .wait v → step s = .next v) ∧
    (∀ k v i, e.item = .issue k → turnOf k u = .go v → (fetch (issuing k v)).2 = .ok i → step s = exec i (issuing k v))) ∧
  (∀ (s : State) (n w : Nat) (i : Instr), imageWord (imageOf s s.cur) (insPc (self s)) = (n, w) → n ≠ 0 → refusedFirst (self s).bar n w = false →
    decodeWord (8 * n) w = .ok i → fetch s = (w, .ok i)) ∧
  (∀ (s : State) (k : Nat), let x := slotAt (coreOf s k) (curSlot (coreOf s k))
    ∃ a, issuing k s = { setCore s k (setSlot (coreOf s k) (curSlot (coreOf s k)) { x with fresh := false }) with cur := k, turn := none, args := a })

/-- The earliest entry (R225, log 1): the one that step takes is in the agenda, no entry comes before it, and the others stay. -/
def Obligations.EarliestEntryFirst : Prop :=
  ∀ (es : List Entry), (leastOf es = none ↔ es = []) ∧
    ∀ m rest, leastOf es = some (m, rest) → (m :: rest).Perm es ∧ ∀ e ∈ es, m.time < e.time ∨ (m.time = e.time ∧ m.tie ≤ e.tie)

/-- Words that are no instruction of a unit (R67, R81, R90, R331), and the write buffer of an idle core (R38). -/
def Obligations.WordsThatTrap : Prop :=
  (∀ s : State, Traps .unallocatedOpcode s (illeg 1)) ∧
  (∀ (n : Nat) (s : State), s.args.a / 2 % 2 ^ 6 = 0x38 + n → Traps .emulMajor s (trapOf 2 n 0)) ∧
  (∀ s : State, Traps .fetchBeyondCodeImage s { cause := 1, sub := 1, fetch := true }) ∧
  (∀ (s : State) (w n : Nat), imageWord (imageOf s s.cur) (insPc (self s)) = (n, w) →
    (n = 0 → (fetch s).2 = .ok .fetchBeyondCodeImage) ∧
    (n ≠ 0 → refusedFirst (self s).bar n w = true → (fetch s).2 = .ok .unallocatedOpcode) ∧
    (∀ m, n ≠ 0 → refusedFirst (self s).bar n w = false → decodeWord (8 * n) w = .error (.reservedField m) → (fetch s).2 = .error (illeg 2)) ∧
    (∀ m, n ≠ 0 → refusedFirst (self s).bar n w = false → decodeWord (8 * n) w = .error (.badOperand m) → (fetch s).2 = .error (illeg 4))) ∧
  (∀ (d : Domain) (pc : Nat), d.codeLen ≤ pc → imageWord d pc = (0, 0)) ∧
  (∀ (s : State) (r : Nat) (rs : List Nat), let k := s.args.a
    (coreOf s k).buf = r :: rs → (coreOf s k).bufClock = s.cycle → (coreOf s k).busy ≤ s.cycle →
    ∃ t, exec .writeBufferRetire s = .next t ∧ OnlyCores s t ∧ (coreOf t k).buf = rs ∧ (coreOf t k).lm = (coreOf s k).lm ∧
      (rs ≠ [] → Due t .writeBufferRetire { a := k } (s.cycle + 1) 2))

/-- Taking a trap (R335 to R339, R342): where no handler runs and one is installed in another workspace, the frame is written, of an instruction, a
fetch, a prefixed pair or a prefix alone, w1 and w2 of the handler receive the workspace and CAUSE, WSP and the PC become the handler's, which
issues in cycle c + 4; in a gang the leader takes it, with the member and GANG in CAUSE, and the gang is disbanded; else the domain is contained. -/
def Obligations.TrapEntry : Prop :=
  (∀ (s : State) (t : Trap) (m : Nat), let k := s.cur
    let c := self s
    let i := here s
    let h := handlerBase c
    let b := slotBase c i
    let pc := (slotAt c i).pc
    let w := frameOfTrap (domAt s m) pc c.pfx t
    let cause := t.cause + t.sub * 2 ^ 8
    Solo s → k < Config.cores → domOf s k = some m → c.serving = none → c.tvec.toNat / 2 ^ 15 % 2 = 1 → b + 0x400 ≤ h ∨ h + 0x400 ≤ b →
    slotBase c (slotOf c h) = h →
    let u := trapNow t s
    let rd (a n : Nat) := Memory.read (coreOf u k).lm a n
    OnlyCores s u ∧ (∀ j, j ≠ k → coreOf u j = coreOf s j) ∧
    SameOutside [(b + 0x340, 64), (b + 0x54, 4), (h + 4, 8), (h + 0x50, 8)] c.lm (coreOf u k).lm ∧
    rd (b + 0x340) 4 = cause % 2 ^ 32 ∧ rd (b + 0x344) 4 = (if t.cause = 9 ∨ t.cause = 10 then w.1 else pc) % 2 ^ 32 ∧ rd (b + 0x348) 4 = pc % 2 ^ 32 ∧
    rd (b + 0x34C) 4 = w.1 % 2 ^ 32 ∧ rd (b + 0x350) 4 = w.2.1 % 2 ^ 32 ∧ rd (b + 0x354) 4 = w.2.2 % 2 ^ 32 ∧ rd (b + 0x358) 8 = t.info % 2 ^ 64 ∧
    rd (b + 0x360) 8 = (domAt s m).instant % 2 ^ 64 ∧ rd (b + 0x368) 8 = 0 ∧ rd (b + 0x370) 16 = 0 ∧
    rd (h + 4) 4 = b % 2 ^ 32 ∧ rd (h + 8) 4 = cause % 2 ^ 32 ∧
    (coreOf u k).wsp.toNat = h ∧ (coreOf u k).serving = some i ∧ (coreOf u k).busy = s.cycle + 4 ∧ (coreOf u k).pfx = none ∧
    (slotAt (coreOf u k) (slotOf c h)).pc = c.tvec.toNat / 2 ^ 16 % 2 ^ 16 * 4) ∧
  (∀ (s : State) (t : Trap) (m n : Nat), let k := s.cur
    let c := self s
    let h := handlerBase c
    let b := slotBase c (here s)
    let cause := (t.cause + t.sub * 2 ^ 8 + n * 2 ^ 16 + 2 ^ 19) % 2 ^ 32
    c.gangBase = k → c.gangSize ≠ 0 → k < Config.cores → domOf s k = some m → c.serving = none → c.tvec.toNat / 2 ^ 15 % 2 = 1 →
    b + 0x400 ≤ h ∨ h + 0x400 ≤ b → slotBase c (slotOf c h) = h →
    let u := takeTrap k (here s) t n 0 s
    Memory.read (coreOf u k).lm (b + 0x340) 4 = cause ∧ Memory.read (coreOf u k).lm (h + 8) 4 = cause ∧
    Memory.read (coreOf u k).lm (b + 0x348) 4 = (slotAt c (here s)).pc % 2 ^ 32 ∧
    (coreOf u k).wsp.toNat = h ∧ (coreOf u k).serving = some (here s) ∧
    ∀ j, k ≤ j → j < k + c.gangSize → (coreOf u j).gangSize = 0 ∧
      Memory.read (coreOf u j).lm (statusAt (coreOf s j) (curSlot (coreOf s j))) 4 / 2 ^ 22 % 2 ^ 6 = 0) ∧
  (∀ (s : State) (t : Trap) (m : Nat), let k := s.cur
    let c := self s
    Solo s → k < Config.cores → domOf s k = some m → (domAt s m).ended = false →
    c.serving.isSome = true ∨ c.tvec.toNat / 2 ^ 15 % 2 = 0 ∨ slotBase c (here s) = handlerBase c →
    let d := domAt (trapNow t s) m
    d.ended = true ∧ d.isOpen = false ∧ d.cause = t.cause ∧ d.sub = t.sub ∧ d.cerrCore = k)

/-- Leaving the handler and what only traps (R338, R340, R342): eret resumes the task of the trap at the RPC of its frame, eret.kill halts it; sysc
and trap take their traps, with INFO 0 (log 24); a waiting trap is taken by the lowest slot, and one of another task than the gang's waits until the
gang ends (the model's choice, log 67); the slot in which the handler ran reads halted afterwards (log 8); an unprivileged task takes PRIV subcode 1
from a system instruction. -/
def Obligations.HandlerReturn : Prop :=
  (∀ (a i : Nat) (s : State), Solo s → (self s).serving = some i → rdW (self s) a = slotBase (self s) i → slotBase (self s) i < 2 ^ 32 →
    ∃ t, exec (.eret a) s = .next t ∧ (coreOf t s.cur).wsp.toNat = slotBase (self s) i ∧ (coreOf t s.cur).serving = none ∧
      SameOutside [(statusAt (self s) i, 4), (statusAt (self s) (here s), 4)] (self s).lm (coreOf t s.cur).lm ∧
      ((slotAt (self s) (here s)).live = false → statusAt (self s) i + 4 ≤ statusAt (self s) (here s) ∨ statusAt (self s) (here s) + 4 ≤ statusAt (self s) i →
        stState (coreOf t s.cur) (here s) = stHalted) ∧
      (slotAt (coreOf t s.cur) i).pc = Memory.read (self s).lm (slotBase (self s) i + 0x344) 4 / 2 * 2 ∧ stState (coreOf t s.cur) i = 0 ∧
      (slotAt (coreOf t s.cur) i).readyAt = s.cycle + 3 ∧ s.cycle + 3 ≤ (coreOf t s.cur).busy) ∧
  (∀ (a i : Nat) (s : State), Solo s → (self s).serving = some i → rdW (self s) a = slotBase (self s) i →
    ∃ t, exec (.eretKill a) s = .next t ∧ (coreOf t s.cur).serving = none ∧
      ((slotAt (self s) i).outst = 0 → slotAt (coreOf t s.cur) i = {}) ∧
      ((slotAt (self s) i).outst ≠ 0 → stState (coreOf t s.cur) i = stHalted ∧ (slotAt (coreOf t s.cur) i).may = 0)) ∧
  (∀ (a : Nat) (s : State), Solo s → isPriv (self s) = true → (∀ i, (self s).serving = some i → rdW (self s) a ≠ slotBase (self s) i) →
    Traps (.eret a) s (illeg 4) ∧ Traps (.eretKill a) s (illeg 4)) ∧
  (∀ (n : Nat) (s : State), Solo s → Traps (.sysc n) s (trapOf 9 n 0)) ∧
  (∀ (n a : Nat) (s : State), Solo s →
    (n = 0 ∨ n = 6 ∨ 13 < n → Traps (.trap n a) s (illeg 4)) ∧
    (n ≠ 0 → n ≠ 6 → n ≤ 13 → isPriv (self s) = true → Traps (.trap n a) s (trapOf n (rdW (self s) a % 2 ^ 8) 0))) ∧
  (∀ (n a d : Nat) (s : State), Solo s → isPriv (self s) = false →
    ∀ i ∈ [Instr.wsSwOut a d, .wsSwIn a d, .eret a, .eretKill a, .tlbInv 0 a d, .fqTake a d, .fqTakeNb a d, .fqDone 0 a, .fqDone 1 a, .idle,
        .wipeSec a d] ++ (if n = 0 ∨ n = 6 ∨ 13 < n then [] else [.trap n a]), Traps i s (trapOf 8 1 0)) ∧
  (∀ (s : State) (i : Nat) (t : Trap), let k := s.args.a
    i < 8 → (coreOf s k).serving = none → (coreOf s k).gangSize = 0 → (slotAt (coreOf s k) i).trap = some t →
    (∀ j, j < i → (slotAt (coreOf s k) j).trap = none) →
    exec .pendingTrap s = .next (takeTrap k i t 0 (slotAt (coreOf s k) i).report s)) ∧
  (∀ s : State, let c := coreOf s s.args.a
    c.gangSize ≠ 0 → (slotAt c (curSlot c)).trap = none → exec .pendingTrap s = .next s)

/-- The system instructions that act (R340, R341, R343, R344): idle, tlb.inv, wipe.sec and the save engine, and what completes them. How its
transfer goes in time is the model's reading (log 41); that a loaded task takes the next number of its domain, and that the WAIT field of its image,
which marks a task in pause.w, reads 0 again, is log 8. -/
def Obligations.SystemInstructions : Prop :=
  (∀ s : State, Solo s → isPriv (self s) = true →
    ∃ t, exec .idle s = .next t ∧ OnlyCores s t ∧ stState (coreOf t s.cur) (here s) = stPaused ∧ (slotAt (coreOf t s.cur) (here s)).may = 0 ∧
      (slotAt (coreOf t s.cur) (here s)).pc = pcAfter (self s) 4 ∧ SameOutside [(statusAt (self s) (here s), 4)] (self s).lm (coreOf t s.cur).lm ∧
      ((coreOf t s.cur).stopped = true ↔ ∀ i, i < 8 → canRun (coreOf t s.cur) i = false)) ∧
  (∀ s : State, ∃ t, exec .idleWake s = .next t ∧ OnlyCores s t ∧ (coreOf t s.args.a).stopped = false ∧ (coreOf t s.args.a).lm = (coreOf s s.args.a).lm) ∧
  (∀ (m a d : Nat) (s : State), Solo s → isPriv (self s) = true → m = 0 ∨ (m ≤ 2 ∧ a = 0) →
    let mask := rdX (self s) d
    (mask = 0 ∨ (∃ n, mask.testBit n = true ∧ (40 ≤ n ∨ (dom s).mask.testBit n = false)) → Traps (.tlbInv m a d) s (illeg 4)) ∧
    (mask ≠ 0 → (∀ n, mask.testBit n = true → n < 40 ∧ (dom s).mask.testBit n = true) →
      ∃ t n, Waits (.tlbInv m a d) s t 6 ∧ OnlyCores s t ∧ (if mask = 2 ^ dieOfCore s.cur then 64 else 160) ≤ n ∧
        Due t .tlbInvDone { a := s.cur, b := here s } (s.cycle + n) 0)) ∧
  (∀ (s : State) (m a d : Nat), let x := slotAt (coreOf s s.args.a) s.args.b
    x.blockedIn = some (.tlbInv m a d) →
    ∃ t, exec .tlbInvDone s = .next t ∧ GoesOn s t s.args.a s.args.b ∧
      ∀ n, n < 40 → x.opA.testBit n = true → (dieAt t n).tlb = (dieAt s n).tlb.filter fun e => !invHits m x.opB e) ∧
  (∀ (a d : Nat) (s : State), Solo s → isPriv (self s) = true → (self s).bar = false →
    let at_ := rdW (self s) a
    let n := rdW (self s) d
    (at_ % 32 ≠ 0 ∨ n % 32 ≠ 0 → Traps (.wipeSec a d) s (trapOf 3 1 (at_ % 2 ^ 15))) ∧
    (at_ % 32 = 0 → n = 0 → Traps (.wipeSec a d) s (illeg 4)) ∧
    (at_ % 32 = 0 → n % 32 = 0 → n ≠ 0 → 0x400 ≤ at_ → at_ + n ≤ (self s).lmscr.toNat → at_ + n ≤ 0x6000 →
      (∀ i, i < slotCount (self s) → (slotAt (self s) i).live = true ∨ slotBase (self s) i = (self s).tvec.toNat / 2 ^ 10 % 2 ^ 5 * 0x400 →
        at_ + n ≤ slotBase (self s) i ∨ slotBase (self s) i + 0x400 ≤ at_) →
      ∃ m, (∀ x, Memory.get m x = if at_ ≤ x ∧ x < at_ + n then 0 else Memory.get (self s).lm x) ∧
        CompletesAs (.wipeSec a d) s { self s with lm := m } (pcAfter (self s) 4))) ∧
  (∀ (a d : Nat) (s : State), Solo s → isPriv (self s) = true → SlotOk (self s) → a < 16 →
    let b := rdW (self s) a
    let j := slotOf (self s) b
    let va := rdX (self s) d
    va % 1024 = 0 → va < 2 ^ 57 → isSlotBase (self s) b = true → b ≠ wsBase (self s) → b ≠ (self s).tvec.toNat / 2 ^ 10 % 2 ^ 5 * 0x400 → j ≠ here s →
    let Begun (ins : Instr) : Prop := ∃ t id f, Waits ins s t 6 ∧
      t = { s with cores := t.cores, agenda := t.agenda, free := t.free, flights := t.flights, nextId := t.nextId } ∧
      (slotAt (coreOf t s.cur) j).reserved = true ∧ (slotAt (coreOf t s.cur) (here s)).opB = va ∧ Table.find t.flights id = some f ∧ f.core = s.cur ∧
      f.jobId = here s ∧ f.sector = j ∧ Due t .wsSwDone { a := s.cur, b := id } (s.cycle + 2) 0
    ((slotAt (self s) j).live = true → stState (self s) j = stPaused ∨ stState (self s) j = stFrozen → Begun (.wsSwOut a d)) ∧
    ((slotAt (self s) j).live = false → (slotAt (self s) j).reserved = false → Begun (.wsSwIn a d))) ∧
  (∀ (s : State) (f : Flight) (a d : Nat), let k := s.args.a
    let x := slotAt (coreOf s k) f.jobId
    let out : Prop := x.blockedIn = some (.wsSwOut a d)
    s.args.d = 0 → Table.find s.flights s.args.b = some f → out ∨ x.blockedIn = some (.wsSwIn a d) →
    (out → (slotAt (coreOf s k) f.sector).outst ≠ 0 →
      ∃ t, exec .wsSwDone s = .next t ∧ t = { s with agenda := t.agenda } ∧ Due t .wsSwDone { a := k, b := s.args.b } (s.cycle + 1) 0) ∧
    (¬ out ∨ (slotAt (coreOf s k) f.sector).outst = 0 → x.opB < 2 ^ 57 → findTlb (rodOf s (rodOfCore k)).tlb x.opB = none →
      ∃ t id y g, exec .wsSwDone s = .next t ∧ Table.find t.flights s.args.b = some g ∧ g.trans = true ∧ g.wait.head? = some id ∧ acc t id y ∧
        y.va = x.opB ∧ y.op = 3 ∧ (y.kind = .uwrite ↔ out) ∧ Due t .walkStart { a := dieOfCore k, b := id + 1 } (s.cycle + 12) 0)) ∧
  (∀ (s : State) (f : Flight) (y : Acc) (a d : Nat), let k := s.args.a
    let id := s.args.d - 1
    let c := coreOf s k
    let x := slotAt c f.jobId
    let j := f.sector
    s.args.d ≠ 0 → Table.find s.flights s.args.b = some f → acc s id y → f.wait = [id] → f.jobId ≠ j →
    (y.stage = .fault → c.serving = none → ∃ t, exec .wsSwDone s = .next t ∧ Table.find t.flights s.args.b = none ∧
      (slotAt (coreOf t k) f.jobId).trap = some (trapOf 5 (y.got / 2) y.va) ∧ (slotAt (coreOf t k) j).reserved = false ∧
      Due t .pendingTrap { a := k } (max s.cycle c.busy) 0) ∧
    (y.stage ≠ .fault → y.op ≠ 3 → y.kind = .uwrite → s.args.c = 1 → x.blockedIn = some (.wsSwOut a d) →
      ∃ t, exec .wsSwDone s = .next t ∧ GoesOn s t k f.jobId ∧ slotAt (coreOf t k) j = {} ∧ Table.find t.flights s.args.b = none) ∧
    (y.stage ≠ .fault → y.op ≠ 3 → y.kind = .uread → x.blockedIn = some (.wsSwIn a d) → slotBase c j ≠ handlerBase c →
      let m := swImage { f with writes := f.writes ++ [(0, { addr := y.va - x.opB, data := toBytes 256 y.got })] }
      let b := slotBase c j
      Memory.read m 0x50 4 % 2 ^ 3 = stPaused ∨ Memory.read m 0x50 4 % 2 ^ 3 = stFrozen →
      ∃ t, exec .wsSwDone s = .next t ∧ GoesOn s t k f.jobId ∧ Table.find t.flights s.args.b = none ∧ (slotAt (coreOf t k) j).live = true ∧
        (slotAt (coreOf t k) j).pc = Memory.read m 0x54 4 / 2 * 2 ∧
        Memory.read (coreOf t k).lm (b + 0x304) 4 = (b + 0x400) % 2 ^ 32 ∧ Memory.read (coreOf t k).lm (b + 0x328) 4 = (b + slotSize c) % 2 ^ 32 ∧
        Memory.read (coreOf t k).lm (b + 0x50) 4 = Memory.read m 0x50 4 / 2 ^ 6 * 2 ^ 6 + Memory.read m 0x50 4 % 2 ^ 3 ∧
        (slotAt (coreOf t k) j).task = newTask s k ∧
        ∀ o, o < 0x300 → o < slotSize c → o ≠ 0x50 → Memory.get (coreOf t k).lm (b + o) = Memory.get m o))

/-- The fault queue (R345 to R349): the oldest pending entry is taken with its bytes, fq.done frees one and releases its requesters, a fault merges
into the entry of its page and class, or takes the free one of lowest index, or waits for one, a copy job going on only once its fault is posted
(R355), a requester is released or ends. -/
def Obligations.FaultQueue : Prop :=
  (∀ (s : State) (die : Nat), (∀ i, fqOldest s die = some i → i ∈ fqLive s die ∧ entryBytes s die i 9 1 = 1 ∧
      ∀ j ∈ fqLive s die, entryBytes s die j 9 1 = 1 → entryBytes s die i 0x3C 4 ≤ entryBytes s die j 0x3C 4) ∧
    (fqOldest s die = none → ∀ j ∈ fqLive s die, entryBytes s die j 9 1 ≠ 1)) ∧
  (∀ (a d : Nat) (s : State), Solo s → isPriv (self s) = true →
    let die := dieOfCore s.cur
    let at_ := rdW (self s) a
    Storable (self s) at_ 32 → Storable (self s) (at_ + 32) 32 → RecordsBelow s →
    (∀ e, fqOldest s die = some e → ∀ i ∈ [Instr.fqTake a d, .fqTakeNb a d], ∃ t, exec i s = .next t ∧ entryBytes t die e 9 1 = 2 ∧
      (coreOf t s.cur).lm = (wrW { self s with lm := Memory.write (self s).lm at_ 64 (entryBytes t die e 0 64) } d e).lm ∧
      (slotAt (coreOf t s.cur) (here s)).pc = pcAfter (self s) 4) ∧
    (fqOldest s die = none → (∃ t, Waits (.fqTake a d) s t 4 ∧ OnlyCores s t) ∧
      Completes (.fqTakeNb a d) s (wrW (self s) d (2 ^ 32 - 1)).lm [spanW (self s) d] (pcAfter (self s) 4))) ∧
  (∀ (n a : Nat) (s : State), Solo s → isPriv (self s) = true →
    let die := dieOfCore s.cur
    let i := rdW (self s) a
    (1 < n ∨ i ∉ fqLive s die ∨ entryBytes s die i 9 1 ≠ 2 → Traps (.fqDone n a) s (illeg 4)) ∧
    (n ≤ 1 → i ∈ fqLive s die → entryBytes s die i 9 1 = 2 → RecordsBelow s →
      ∃ t, exec (.fqDone n a) s = .next t ∧ entryBytes t die i 9 1 = 0 ∧ i ∉ fqLive t die ∧ (coreOf t s.cur).lm = (self s).lm ∧
        (slotAt (coreOf t s.cur) (here s)).pc = pcAfter (self s) 4 ∧ Due t .faultRequesterRelease { a := die, b := 1024 + i, c := n } (s.cycle + 1) 0)) ∧
  (∀ (s : State) (x : Acc), let die := s.args.a
    let page := x.va / 2 ^ 16 * 2 ^ 16
    let same (i : Nat) : Bool := entryBytes s die i 0 8 == page && entryBytes s die i 8 1 == s.args.d
    s.args.b = 0 → acc s s.args.c x → x.stage = .fault → x.va < 2 ^ 57 → x.core < Config.cores → s.args.d < 2 ^ 8 → NoTaker s → RecordsBelow s →
    (dieAt s die).fqWait = [] →
    (∀ i, (fqLive s die).find? same = some i → ∃ t, exec .faultPost s = .next t ∧
      entryBytes t die i 0x0A 2 = min 0xFFFF (entryBytes s die i 0x0A 2 + 1) ∧
      entryBytes t die i 0x10 32 = Nat.lor (entryBytes s die i 0x10 32) (2 ^ (x.core % 16384 / 128))) ∧
    ((fqLive s die).find? same = none → (fqLive s die).length < 1024 → ∃ t i, exec .faultPost s = .next t ∧ i < 1024 ∧ i ∉ fqLive s die ∧
      (∀ j, j < i → j ∈ fqLive s die) ∧ i ∈ fqLive t die ∧ (∀ m, domOfDie s die = some m → entryBytes t die i 0x0C 4 = (domAt s m).number % 2 ^ 32) ∧
      entryBytes t die i 0 8 = page ∧ entryBytes t die i 8 1 = s.args.d ∧ entryBytes t die i 9 1 = 1 ∧ entryBytes t die i 0x0A 2 = 1 ∧
      entryBytes t die i 0x10 32 = 2 ^ (x.core % 16384 / 128) ∧ entryBytes t die i 0x30 8 = x.va ∧ entryBytes t die i 0x38 4 = x.core ∧
      entryBytes t die i 0x3C 4 = (dieAt s die).seq.toNat ∧ (dieAt t die).seq = (dieAt s die).seq + 1) ∧
    ((fqLive s die).find? same = none → 1024 ≤ (fqLive s die).length → (fqLive s die).Nodup → ∃ t w, exec .faultPost s = .next t ∧
      (dieAt t die).fqWait = [w] ∧ w.id = s.args.c ∧ w.kind = 0 ∧ w.va = x.va)) ∧
  (∀ (s : State) (j : Job) (x va : Nat), let die := s.args.a
    let k := s.args.c
    s.args.b = 1 → headJob s k 0 = some j → j.fault = some (x, va) → va < 2 ^ 57 → k < Config.cores → s.args.d < 2 ^ 8 → NoTaker s → RecordsBelow s →
    (dieAt s die).fqWait = [] → (fqLive s die).find? (fun i => entryBytes s die i 0 8 == va / 2 ^ 16 * 2 ^ 16 && entryBytes s die i 8 1 == s.args.d) = none →
    ((fqLive s die).length < 1024 → ∃ t i y, exec .faultPost s = .next t ∧ i ∈ fqLive t die ∧ entryBytes t die i 0 8 = va / 2 ^ 16 * 2 ^ 16 ∧
      entryBytes t die i 0x10 32 = 2 ^ (128 + k % 16384 / 128) ∧ entryBytes t die i 0x38 4 = k ∧ headJob t k 0 = some y ∧ y.fault = none ∧
      va / 2 ^ 16 ∈ y.pages ∧ Due t .copySectorTurn { a := rodOfCore k } (s.cycle + 1) 1) ∧
    (1024 ≤ (fqLive s die).length → (fqLive s die).Nodup → ∃ t w, exec .faultPost s = .next t ∧ (dieAt t die).fqWait = [w] ∧ w.id = k ∧ w.kind = 1 ∧
      headJob t k 0 = some j)) ∧
  (∀ (s : State) (w : Want), let die := s.args.a
    (dieAt s die).fqWait = [w] → (fqLive s die).length < 1024 → w.kind ≠ 2 →
    ∃ t i, exec .faultEntryResume s = .next t ∧ (dieAt t die).fqWait = [] ∧ i < 1024 ∧ w ∈ Table.get [] (dieAt t die).fqOf i) ∧
  (∀ (s : State) (w : Want), let die := s.args.a
    Table.get [] (dieAt s die).fqOf s.args.b = [w] →
    (∀ x, w.kind = 0 → acc s w.id x → w.id < s.nextId → x.stage = .fault →
      (s.args.c = 0 → ∃ t, exec .faultRequesterRelease s = .next t ∧ At t w.id .walk) ∧
      (s.args.c = 1 → x.kind = .load → x.sp = none → x.tag = none → WaitedFor s x → (coreOf s x.core).serving = none →
        ∃ t, exec .faultRequesterRelease s = .next t ∧ Table.find t.accs w.id = none ∧
          (slotAt (coreOf t x.core) x.slot).trap = some (trapOf 5 1 x.va))) ∧
    (w.kind = 1 → s.args.c = 0 → ∃ t, exec .faultRequesterRelease s = .next t ∧ Due t .copyReplay { a := w.id, b := w.va / 2 ^ 16 } s.cycle 3) ∧
    (∀ j, w.kind = 1 → s.args.c = 1 → headJob s w.id 0 = some j → j.ending = false → w.va / 2 ^ 16 ∈ j.pages →
      ∃ t y, exec .faultRequesterRelease s = .next t ∧ headJob t w.id 0 = some y ∧ y.ending = true ∧ y.error = 0x0A)) ∧
  (∀ s : State, (∀ m, s.args.c = 0 → domOf s s.args.a = some m → (domAt s m).ended = false →
      ∃ t, exec .uncorrectableError s = .next t ∧ (domAt t m).ended = true ∧ (domAt t m).cause = 6 ∧ (domAt t m).sub = s.args.b) ∧
    (s.args.c ≠ 0 → ∃ t, exec .uncorrectableError s = .next t ∧ (homeOf t (s.args.c - 1)).poison = true))

/-- A task counts as runnable in a sample: it is, or has issued in this cycle, or has a trap that waits (Table 8.7, R338). -/
abbrev RunsInSample (c : Core) (i : Nat) : Prop := (slotAt c i).trap.isSome = true ∨ stState c i = stRunnable ∨ (slotAt c i).fresh = true

/-- The handler of a core tests a signal. -/
abbrev HandlerTests (c : Core) (n : Nat) : Prop :=
  c.serving.isSome = true ∧ ∃ d, (slotAt c (curSlot c)).blockedIn = some (.test n d) ∨ (slotAt c (curSlot c)).blockedIn = some (.tval n d)

/-- Rounds (R178, R181 to R186, R189, Table 8.7): a sample is what the cores, records and injections contribute, lane by lane; a task in fq.take counts as
paused (R348), and a core on which a handler runs contributes RUN and no ALLP (R338, log 35). Its result is due 48 or 96 cycles later; a
result closes the instant, or resolves the signals that tasks wait for in an instruction or a region check, or finds a causality cycle; a signal
that stood present before is waited for by a tval alone (log 68). -/
def Obligations.Rounds : Prop :=
  (∀ s : State, let m := s.args.a
    (domAt s m).isOpen = true →
    ∃ t, exec .roundSample s = .next t ∧ (domAt t m).sampled = [((domAt s m).round, roundOf s m)] ∧ (domAt t m).round = (domAt s m).round + 1 ∧
      Due t .roundResult { a := m } (s.cycle + if (diesOf (domAt s m).mask).length = 1 then 48 else 96) 0) ∧
  (∀ (s : State) (m n : Nat), sigIn (roundOf s m).pres n = (sigIn (domAt s m).injected n || (coresOfDom s m).any fun k => sigIn (coreOf s k).pres n)) ∧
  (∀ (s : State) (m : Nat), let r := roundOf s m
    let cores := coresOfDom s m
    let task (k i : Nat) : Prop := k ∈ cores ∧ i < 8 ∧ (slotAt (coreOf s k) i).live = true
    let record (q : Rec) : Prop := 3 ≤ q.st ∧ ∃ die ∈ diesOf (domAt s m).mask, ∃ x ∈ (dieAt s die).recs, x.2 = q
    (r.allp = true ↔ (∀ k ∈ cores, (coreOf s k).serving = none) ∧ (∀ q, ¬ record q) ∧
      ∀ k i, task k i → ¬ RunsInSample (coreOf s k) i ∧ stState (coreOf s k) i ≠ stFollower ∧
        (stState (coreOf s k) i = stBlocked → inFqTake (slotAt (coreOf s k) i) = true)) ∧
    (r.run = true ↔ (∃ k ∈ cores, (coreOf s k).serving.isSome = true) ∨ (∃ q, record q) ∨ ∃ k i, task k i ∧ RunsInSample (coreOf s k) i) ∧
    (r.outs = true ↔ (∃ k ∈ cores, 0 < (coreOf s k).bound) ∨ ∃ k i, task k i ∧ (slotAt (coreOf s k) i).wake = true) ∧
    (∀ n, n < 128 →
      (sigIn r.maye n = true ↔ (∃ q, record q ∧ sigIn q.may n = true) ∨ ∃ k i, task k i ∧ sigIn (slotAt (coreOf s k) i).may n = true ∧
        (RunsInSample (coreOf s k) i ∨ stState (coreOf s k) i = stFollower ∨ stState (coreOf s k) i = stBlocked)) ∧
      (sigIn r.tst n = true ↔ (∃ k ∈ cores, HandlerTests (coreOf s k) n) ∨ ∃ k i, task k i ∧ ¬ RunsInSample (coreOf s k) i ∧
        stState (coreOf s k) i = stBlocked ∧ testedSig (coreOf s k) i = some n)) ∧
    ((∀ k ∈ cores, ((coreOf s k).val.map Prod.fst).Nodup) → ∀ n, let op := nth 0 (domAt s m).comb n
      Table.get (combineId op) r.val n = cores.foldl (fun v k =>
        match Table.find (coreOf s k).val n with | some x => combineVal op v x | none => v) (combineId op))) ∧
  (∀ (s : State) (r : Round) (n : Nat), let m := s.args.a
    (domAt s m).sampled = [(n, r)] →
    (r.allp = true → r.outs = false → ∃ t, exec .roundResult s = .next t ∧ (domAt t m).isOpen = false ∧ (domAt t m).last = r.pres ∧
      (domAt t m).result = some r ∧ Due t .instantBoundary { a := m } s.cycle 3 ∧ t.cores = s.cores) ∧
    (r.allp = false → r.run = true → ∀ k g d, k ∈ coresOfDom s m → (coreOf s k).serving.isSome = true →
      let i := curSlot (coreOf s k)
      i < 8 → (∀ j, j < 8 → j ≠ i → (slotAt (coreOf s k) j).live = true → (coreOf s k).serving = some j ∧ (slotAt (coreOf s k) j).blockedIn = none) →
      Fits (coreOf s k) i → 0 < d → d < 16 →
      (∀ p, (slotAt (coreOf s k) i).blockedIn = some (.test g d) → sigStatus { domAt s m with result := some r } g = some p →
        ∃ t, exec .roundResult s = .next t ∧ GoesOn s t k i ∧ slotReg (coreOf t k) i 0 d = b2n p) ∧
      (∀ v, (slotAt (coreOf s k) i).blockedIn = some (.tval g d) → sigValue { domAt s m with result := some r } g = some v →
        ∃ t, exec .roundResult s = .next t ∧ GoesOn s t k i ∧ slotReg (coreOf t k) i 0 d = v % 2 ^ 32)) ∧
    (r.allp = false → r.run = true → ∀ k i g d, k ∈ coresOfDom s m → OnlySlot s k i → (∀ h, ¬ HandlerTests (coreOf s k) h) → Fits (coreOf s k) i → 0 < d → d < 16 →
      (∀ p, (slotAt (coreOf s k) i).blockedIn = some (.test g d) → sigStatus { domAt s m with result := some r } g = some p →
        ∃ t, exec .roundResult s = .next t ∧ GoesOn s t k i ∧ slotReg (coreOf t k) i 0 d = b2n p) ∧
      (∀ v, (slotAt (coreOf s k) i).blockedIn = some (.tval g d) → sigValue { domAt s m with result := some r } g = some v →
        ∃ t, exec .roundResult s = .next t ∧ GoesOn s t k i ∧ slotReg (coreOf t k) i 0 d = v % 2 ^ 32)) ∧
    (r.allp = false → r.run = true → ∀ k i, k ∈ coresOfDom s m → OnlySlot s k i → (∀ h, ¬ HandlerTests (coreOf s k) h) →
      Fits (coreOf s k) i → (slotAt (coreOf s k) i).blockedIn = none →
      (slotAt (coreOf s k) i).trap = none → (coreOf s k).serving ≠ some i → stState (coreOf s k) i = stBlocked → stWait (coreOf s k) i = 1 →
      (∀ q ∈ s.dies, ∀ w ∈ q.2.watches, w.kind = 0 ∨ w.a ≠ k ∨ w.b ≠ i) →
      let e := (slotAt (coreOf s k) i).check
      let w := Memory.read (coreOf s k).lm (entryAt (coreOf s k) i e) 8
      let seen := sigStatus { domAt s m with result := some r } (regionSig w)
      e < stDepth (coreOf s k) i → stDepth (coreOf s k) i ≤ 8 →
      ∃ t, exec .roundResult s = .next t ∧
        (regionKind w = 1 → seen = some true → (slotAt (coreOf t k) i).pc = regionHandler w / 2 * 2 ∧ stDepth (coreOf t k) i = e ∧ stState (coreOf t k) i = stRunnable) ∧
        (regionKind w = 2 → seen = some true → stState (coreOf t k) i = stFrozen ∧ stFrz (coreOf t k) i = true ∧ stFrzd (coreOf t k) i = e) ∧
        (regionKind w = 1 ∨ regionKind w = 2 → seen = some false → e + 1 = stDepth (coreOf s k) i → (slotAt (coreOf s k) i).pauseW = false →
          stState (coreOf t k) i = stRunnable ∧ (slotAt (coreOf t k) i).pc = (slotAt (coreOf s k) i).pc)) ∧
    (r.allp = false → r.run = false → r.outs = false →
      (∀ v, sigIn r.tst v = true → sigIn r.maye v = true ∧ (sigIn r.pres v = true → ∃ b, (domAt s m).result = some b ∧ sigIn b.pres v = true)) →
      (domAt s m).ended = false → ∀ k i g d, coresOfDom s m = [k] → OnlySlot s k i →
      domOf s k = some m → k < Config.cores → stState (coreOf s k) i = stBlocked → (slotAt (coreOf s k) i).trap = none →
      (slotAt (coreOf s k) i).blockedIn = some (.test g d) → sigStatus { domAt s m with result := some r } g = none →
      (coreOf s k).gangSize = 0 → (coreOf s k).serving = none → tvecEn (coreOf s k) = true →
      let h := tvecBase (coreOf s k)
      let b := slotBase (coreOf s k) i
      slotBase (coreOf s k) (slotOf (coreOf s k) h) = h → b + 0x400 ≤ h ∨ h + 0x400 ≤ b →
      ∃ t, exec .roundResult s = .next t ∧ (coreOf t k).serving = some i ∧ Memory.read (coreOf t k).lm (b + 0x340) 4 = 0x107 ∧
        Memory.read (coreOf t k).lm (b + 0x370) 16 = (r.tst &&& r.maye &&& ~~~ r.pres).toNat))

/-- Boundaries and openings (R177, R184, R185, R188, R189, R192, R391): the instant advances and L1 is invalidated, the weak stage runs, the next
instant opens two cycles later or is held; at its opening contributions are empty and masks are those of EMSET; a limit that expires contains the
domain. It counts from the delivery that closed the instant before, or from a first opening (the model's reading, log 36). -/
def Obligations.Instants : Prop :=
  (∀ (s : State) (k i : Nat), let m := s.args.a
    s.args.b = 0 → k ∈ coresOfDom s m → i < 8 → (slotAt (coreOf s k) i).live = true →
    ∃ t, exec .instantBoundary s = .next t ∧ (domAt t m).instant = (domAt s m).instant + 1 ∧ (domAt t m).injected = (domAt s m).inject ∧
      (domAt t m).inject = 0 ∧ (coreOf t k).l1 = [] ∧
      (sigIn (domAt s m).last 127 = false → Due t .instantOpen { a := m } (s.cycle + 2) 0) ∧ (sigIn (domAt s m).last 127 = true → (domAt t m).held = true) ∧
      (let w := Memory.read (coreOf s k).lm (entryAt (coreOf s k) i 0) 8
       stState (coreOf s k) i = stPaused → stDepth (coreOf s k) i = 1 → stFrz (coreOf s k) i = false → regionKind w = 0 → regionArmed w = true →
       sigIn (domAt s m).last (regionSig w) = true → (slotAt (coreOf t k) i).pc = regionHandler w / 2 * 2 ∧ stDepth (coreOf t k) i = 0)) ∧
  (∀ s : State, let m := s.args.a
    ∃ t, exec .instantOpen s = .next t ∧ (domAt t m).isOpen = true ∧ (domAt t m).held = false ∧ (domAt t m).result = none ∧ (domAt t m).round = 0 ∧
      (domAt t m).opened = s.cycle ∧ Due t .roundSample { a := m } s.cycle 3 ∧
      ((domAt s m).limit ≠ 0 → Due t .instantLimitExpiry { a := m, b := (domAt s m).instant }
        ((if s.args.b = 1 then s.cycle else s.cycle - 2) + (domAt s m).limit * 1024) 1) ∧
      ∀ k ∈ coresOfDom s m, (coreOf t k).pres = 0 ∧ (coreOf t k).val = [] ∧
        ∀ i, i < 8 → (slotAt (coreOf s k) i).live = true →
          (stState (coreOf s k) i = stRunnable → (slotAt (coreOf t k) i).may = BitVec.ofNat 128 (emsetEff (coreOf s k) i)) ∧
          (stState (coreOf s k) i = stPaused → stDepth (coreOf s k) i = 0 → (slotAt (coreOf s k) i).pauseW = false → stState (coreOf t k) i = stRunnable)) ∧
  (∀ s : State, let m := s.args.a
    ((domAt s m).isOpen = true → (domAt s m).instant = s.args.b → (domAt s m).ended = false →
      ∃ t, exec .instantLimitExpiry s = .next t ∧ (domAt t m).ended = true ∧ (domAt t m).cause = 7 ∧ (domAt t m).sub = 4) ∧
    ((domAt s m).isOpen = false ∨ (domAt s m).instant ≠ s.args.b → exec .instantLimitExpiry s = .next s)) ∧
  (∀ s : State, let d := domAt s s.args.a
    s.args.b = 1 → d.number < 2 ^ 32 →
    ∃ t, exec .instantBoundary s = .next t ∧ (domAt t s.args.a).ended = true ∧ Reported t d.report d.number 0 ∧
      Memory.read t.host (d.report + 8) 8 = (d.instant - 1) % 2 ^ 64)

/-- A TAIL write of v takes effect in a queue: the slots it adds come behind the host's writes that are in progress (R276, R385, R387). -/
def TailTaken (q q' : LaunchQueue) (writes : List Nat) (v : Nat) : Prop :=
  q' = { q with tail := v % 64, behind := q'.behind } ∧
  ∀ p, p ∈ q'.behind ↔ p ∈ q.behind ∨ (p.2 ∈ writes ∧ ∃ i, i < (v % 64 + 64 - q.tail) % 64 ∧ p.1 = (q.tail + i) % 64)

/-- Launch queues (R387, R388, R393): a TAIL write is taken or dropped with OVF; the queue that is served is the first in rotation of the highest
priority whose head does not wait for its dies, nor, a launch or a restore, for a write that the host made before its TAIL write (R276, R385); its
packet acts at the end of the cycle.
Launch and control packets (R389 to R393): a launch that meets every condition starts its domain, one whose dies are busy waits, any other is
refused; release, inject and evict act on the domain they name, in the state they ask for. A RETIRED module, a save area outside DRAM, and the
masked bits of TVEC are log 47; which vectors are masked is PCI Express (log 59); that free values take part in times is the model's form
(log 2). The images of an eviction (R173, R351, R391, Table 18.9): local memory with the PC saves of its tasks, the state block, the pool and the
order of the ready records, written in one step (log 14); the report; and the wipe of a die. The WAIT field of a paused or frozen task marks one
that waits in pause.w, and one whose condition held (log 8). -/
def Obligations.LaunchPackets : Prop :=
  ((∀ s : State, (s.wiping = true → exec .launchQueueTail s = .next s) ∧
    (s.wiping = false → s.args.b % 64 = (launchQ s s.args.a).head →
      ∃ t, exec .launchQueueTail s = .next t ∧ launchQ t s.args.a = { launchQ s s.args.a with ovf := true } ∧ Told s t (s.args.a / 16) 1) ∧
    (s.wiping = false → s.args.b % 64 ≠ (launchQ s s.args.a).head →
      ∃ t, exec .launchQueueTail s = .next t ∧ TailTaken (launchQ s s.args.a) (launchQ t s.args.a) (hostWrites s) s.args.b ∧
        ((∃ e ∈ s.agenda, e.item = .ev .launchQueueTake {}) ∧ t.agenda = s.agenda ∨ ∃ n, 1 ≤ n ∧ n ≤ 256 ∧ Due t .launchQueueTake {} (s.cycle + n) 0))) ∧
  (∀ (s : State) (qi : Nat), chooseQueue s = some qi →
    let Waiting (q : Nat) : Prop := q < 32 ∧ (launchQ s q).en = true ∧ (launchQ s q).head ≠ (launchQ s q).tail ∧
      let p := packetAt s q (launchQ s q).head
      ((Memory.read p 0 1 = 1 ∨ Memory.read p 0 1 = 4) →
        Nat.land (Memory.read p 8 8) s.dieBusy = 0 ∧ ∀ id ∈ hostWrites s, ((launchQ s q).head, id) ∉ (launchQ s q).behind)
    let turn (q : Nat) : Int := ((q : Int) - Table.get 31 s.lastServed (launchQ s qi).prio - 1) % 32
    Waiting qi ∧ ∀ q, Waiting q → (launchQ s qi).prio ≤ (launchQ s q).prio ∧ ((launchQ s q).prio = (launchQ s qi).prio → turn qi ≤ turn q)) ∧
  (∀ (s : State) (qi : Nat), s.wiping = false → s.booted = true → chooseQueue s = some qi →
    let q := launchQ s qi
    let op := Memory.read (packetAt s qi q.head) 0 1
    ∃ t, exec .launchQueueTake s = .next t ∧ launchQ t qi = { q with head := (q.head + 1) % 64, behind := q.behind.filter fun b => b.1 != q.head } ∧ Table.get 31 t.lastServed q.prio = qi ∧
      ∀ p ∈ [(1, Instr.launch), (2, .release), (3, .evict), (4, .restore), (5, .inject)], op = p.1 → Due t p.2 { a := qi, b := q.head } s.cycle 2)) ∧
  ((∀ s : State, let p := packet s
    (Nat.land (pkt p 8 8) s.dieBusy ≠ 0 → ∀ i ∈ [Instr.launch, .restore], ∃ t, exec i s = .next t ∧ t = { s with agenda := t.agenda } ∧
      Due t i { a := s.args.a, b := s.args.b } (s.cycle + 1) 2) ∧
    (Nat.land (pkt p 8 8) s.dieBusy = 0 → ¬ LaunchValid s s.args.a p →
      Refused .launch s s.args.a (pkt p 0x68 8) (pkt p 4 4) ∧ Refused .restore s s.args.a (pkt p 0x68 8) (pkt p 4 4)) ∧
    (Nat.land (pkt p 8 8) s.dieBusy = 0 → LaunchValid s s.args.a p →
      let mask := pkt p 8 8
      let first := pkt p 0x40 4 % 2 ^ 14
      let count := pkt p 0x40 4 / 2 ^ 14 % 2 ^ 15
      (∃ t m n, exec .launch s = .next t ∧ (domAt t m).number = pkt p 4 4 ∧ (domAt t m).mask = mask ∧ (domAt t m).root = pkt p 0x10 8 ∧
        (domAt t m).codeLen = pkt p 0x20 4 ∧ (domAt t m).code = dramRange s (pkt p 0x18 8) (pkt p 0x20 4) ∧ (domAt t m).limit = pkt p 0x4C 4 ∧ 1024 ≤ n ∧
        n ≤ 4096 + (pkt p 0x38 4 + 7) / 8 ∧ Due t .instantOpen { a := m, b := 1 } (s.cycle + n) 0 ∧ t.dieBusy = Nat.lor s.dieBusy mask ∧
        (∀ r, mask.testBit (r / 2048) = true → (rodOf t r).weight = 0x11111111) ∧
        ∀ die i, mask.testBit die = true → i < count → let k := die * 16384 + first + i
          (slotAt (coreOf t k) 0).live = true ∧ (slotAt (coreOf t k) 0).pc = pkt p 0x24 4 ∧ Memory.read (coreOf t k).lm 960 4 = k ∧
          Memory.read (coreOf t k).lm 980 4 = pkt p 4 4 ∧ (coreOf t k).lmspill.toNat = pkSpill p ∧ (coreOf t k).lmscr.toNat = pkL1 p ∧
          (coreOf t k).lml1.toNat = pkL1 p ∧ (coreOf t k).tvec.toNat = pkt p 0x48 4 / 2 ^ 10 * 2 ^ 10 ∧
          ((∀ l, WholeLine s l) →
            (∀ o, o < 960 → Memory.get (coreOf t k).lm o = Memory.get (dramRange s (pkt p 0x28 8) 960) o) ∧
            (pkt p 0x30 8 ≠ 0 → ∀ o, 0x400 ≤ o → o < pkt p 0x38 4 →
              Memory.get (coreOf t k).lm (0x400 + o) = Memory.get (dramRange s (pkt p 0x30 8) (pkt p 0x38 4)) o))) ∧
      (∃ t m n, exec .restore s = .next t ∧ (domAt t m).number = pkt p 4 4 ∧ (domAt t m).held = true ∧ (domAt t m).instant = pkt p 0x78 8 ∧ 1024 ≤ n ∧
        Due t .instantOpen { a := m, b := 1 } (s.cycle + n) 0 ∧
        (∀ k r, (coresOfMask mask)[r]? = some k → let img := dramRange s (pkt p 0x70 8 + 0x6000 * r) 0x6000
          (coreOf t k).lmspill = imgWord img 0 ∧ (coreOf t k).lmscr = imgWord img 4 ∧ (coreOf t k).lml1 = imgWord img 8 ∧ (coreOf t k).tvec = imgWord img 12 ∧
          (coreOf t k).wseq.toNat = Memory.read img 0x10 2 ∧ (coreOf t k).wack.toNat = Memory.read img 0x12 2 ∧
          (coreOf t k).jobCount = [Memory.read img 0x14 4, Memory.read img 0x18 4, Memory.read img 0x1C 4] ∧
          (coreOf t k).cfg0.toNat = Memory.read img 0x20 8 ∧ (coreOf t k).cfg1.toNat = Memory.read img 0x28 8 ∧
          ∀ o, 0x400 ≤ o → o < 0x6000 → Memory.get (coreOf t k).lm o = if o < (imgWord img 4).toNat then Memory.get img o else 0) ∧
        ∀ i die, (diesOf mask)[i]? = some die →
          let img := dramRange s (pkt p 0x70 8 + 0x6000 * 16384 * (diesOf mask).length + 0x4000000 * i) 0x4000000
          (dieAt t die).pool = img ∧
          ∀ lists : List (List Nat), lists.length = 8 → (∀ l ∈ lists, ∀ w ∈ l, w < 0xFFFF) →
            let all := lists.flatMap fun l => l ++ [0xFFFF]
            all.length ≤ 0x8000 → (∀ j v, all[j]? = some v → Memory.read img (0x320000 + 2 * j) 2 = v) → (dieAt t die).ready = lists.flatten))) ∧
  (∀ (s : State) (m : Nat), let p := packet s
    let d := domAt s m
    let opening := s.agenda.any fun e => e.item == .ev .instantOpen { a := m, b := 1 }
    let Held : Prop := d.held = true ∧ d.isOpen = false ∧ d.evicting = none ∧ opening = false
    liveNumber s (pkt p 4 4) = some m →
    (Control p 8 → Held → ∃ t n, exec .release s = .next t ∧ 1 ≤ n ∧ n ≤ 4 ∧ Due t .instantOpen { a := m, b := 1 } (s.cycle + n) 0) ∧
    (¬ (Control p 8 ∧ Held) → pkt p 0 1 = 2 → Refused .release s s.args.a (pkt p 0x18 8) (pkt p 4 4)) ∧
    (Control p 9 → ∃ t, exec .inject s = .next t ∧ domAt t m = { d with inject := d.inject ||| BitVec.ofNat 128 (pkt p 8 1 * 2 ^ 120) }) ∧
    (Control p 16 → Held → pkt p 8 8 + (0x6000 * 16384 + 0x4000000) * (diesOf d.mask).length ≤ 3 * 2 ^ 40 →
      ∃ t, exec .evict s = .next t ∧ (domAt t m).evicting = some (pkt p 8 8, pkt p 0x18 8) ∧
        (jobsDone { s with domains := t.domains } m = true → ∃ n, 1 ≤ n ∧ Due t .evictSave { a := m } (s.cycle + n) 0))) ∧
  (∀ s : State, let p := packet s
    (∀ q ∈ s.domains, q.2.number = pkt p 4 4 → q.2.ended = true) →
    ∀ x ∈ [(2, Instr.release), (3, .evict), (5, .inject)], pkt p 0 1 = x.1 →
      if x.1 = 5 ∧ pkt p 0x18 8 = 0 then exec x.2 s = .next s else Refused x.2 s s.args.a (pkt p 0x18 8) (pkt p 4 4))) ∧
  ((∀ (s : State) (save report : Nat), let m := s.args.a
    let d := domAt s m
    let n := (diesOf d.mask).length
    s.args.d = 0 → d.evicting = some (save, report) → d.held = true → d.ended = false → jobsDone s m = true → s.accs = [] → d.number < 2 ^ 32 →
    (∀ die, d.mask.testBit die = true → ∀ q ∈ (dieAt s die).recs, q.2.st ≠ 4) →
    (∀ q ∈ s.homes, q.2.tokens = 64 ∨ (q.1 + 1) * 1024 ≤ save ∨ save + (0x6000 * 16384 + 0x4000000) * n ≤ q.1 * 1024) →
    ∃ t, exec .evictSave s = .next t ∧ (domAt t m).ended = true ∧ Reported t report d.number 2 ∧
      Memory.read t.host (report + 8) 8 = d.instant % 2 ^ 64 ∧
      (∀ die, die < 40 → d.mask.testBit die = true → ∃ c, c ≤ s.cycle + 2 ^ 19 ∧ Due t .dieWipeComplete { a := die } c 0) ∧
      (∀ k r, (coresOfMask d.mask)[r]? = some k → Memory.wf (coreOf s k).lm = true →
        let c := coreOf s k
        let B (o b : Nat) : Nat := Memory.read t.dram (save + 0x6000 * r + o) b
        (∀ o, 0x400 ≤ o → o < c.lmscr.toNat → o < 0x6000 →
          (∀ i, i < 8 → (slotAt c i).live = true → o < slotBase c i + 0x50 ∨ slotBase c i + 0x58 ≤ o) →
          Memory.get t.dram (save + 0x6000 * r + o) = Memory.get c.lm o) ∧
        (k ∈ coresOfDom s m → c.lmscr.toNat ≤ 0x6000 → ∀ i, i < 8 → (slotAt c i).live = true → slotBase c i + 0x58 ≤ c.lmscr.toNat →
          B (slotBase c i + 0x54) 4 = (slotAt c i).pc % 2 ^ 32 ∧
          let w := Memory.read c.lm (slotBase c i + 0x50) 4
          let mark := if (slotAt c i).pauseW then (if (slotAt c i).pauseMet then 6 else 2) else 0
          B (slotBase c i + 0x50) 4 = if w % 8 = stPaused ∨ w % 8 = stFrozen then w / 2 ^ 6 * 2 ^ 6 + 2 ^ 3 * mark + w % 2 ^ 3 else w) ∧
        (∀ o, c.lmscr.toNat ≤ o → 0x400 ≤ o → o < 0x6000 → Memory.get t.dram (save + 0x6000 * r + o) = 0) ∧
        B 0 4 = c.lmspill.toNat ∧ B 4 4 = c.lmscr.toNat ∧ B 8 4 = c.lml1.toNat ∧ B 12 4 = c.tvec.toNat ∧ B 0x10 2 = c.wseq.toNat ∧ B 0x12 2 = c.wack.toNat ∧
        (∀ q, q < 3 → B (0x14 + 4 * q) 4 = nth 0 c.jobCount q % 2 ^ 32) ∧ B 0x20 8 = c.cfg0.toNat ∧ B 0x28 8 = c.cfg1.toNat ∧
        B 0x30 4 = (if k % 8 = 0 then (rodOf s (rodOfCore k)).weight.toNat else 0) ∧
        (∀ q, q < 4 → let w := nth {} c.queues q
          w.words.length ≤ 8 → (∀ j, j < w.words.length → B (0x40 + 32 * q + 4 * j) 4 = nth 0 w.words j % 2 ^ 32) ∧
            (∀ i, w.owner = some i → i < 8 → B (0xC0 + 4 * q) 4 = w.words.length + 16 * i + 128) ∧
            (w.owner = none → B (0xC0 + 4 * q) 4 = w.words.length)) ∧
        (k % 8 = 0 → ∀ x, x < 4 → let b := barOf s 0 x k
          B (0xD0 + 12 * x) 4 = b.parts % 2 ^ 32 ∧ B (0xD4 + 12 * x) 4 = b.arrivals % 2 ^ 32 ∧ B (0xD8 + 12 * x) 4 = b.phase.toNat) ∧
        (k % 128 = 0 → ∀ x, x < 16 → let b := barOf s 1 x k
          B (0x100 + 12 * x) 4 = b.parts % 2 ^ 32 ∧ B (0x104 + 12 * x) 4 = b.arrivals % 2 ^ 32 ∧ B (0x108 + 12 * x) 4 = b.phase.toNat) ∧
        B 0x1C0 4 = c.stall0.toNat ∧ B 0x1C4 4 = c.stall1.toNat ∧ B 0x1C8 4 = c.stall2.toNat ∧ B 0x1CC 4 = c.pinBypass.toNat ∧
        B 0x1D0 4 = c.spillRedir.toNat ∧
        B 0x1D4 1 = (if r = 0 then (d.injected ||| d.inject).toNat / 2 ^ 120 % 2 ^ 8 else 0) ∧
        ∀ o, 0x1D5 ≤ o → o < 0x400 → Memory.get t.dram (save + 0x6000 * r + o) = 0) ∧
      ∀ i die, (diesOf d.mask)[i]? = some die → Memory.wf (dieAt s die).pool = true →
        let at_ := save + 0x6000 * 16384 * n + 0x4000000 * i
        let all := (upTo 8).flatMap fun lv =>
          ((dieAt s die).ready.filter fun i => Memory.read (dieAt s die).pool (192 * i + 4) 4 % 2 ^ 3 == lv) ++ [0xFFFF]
        (∀ o, o < 0x320000 ∨ 0x330000 ≤ o ∧ o < 0x4000000 → all.length ≤ 0x8000 → Memory.get t.dram (at_ + o) = Memory.get (dieAt s die).pool o) ∧
        (all.length ≤ 0x8000 → ∀ j w, all[j]? = some w → Memory.read t.dram (at_ + 0x320000 + 2 * j) 2 = w % 2 ^ 16)) ∧
  (∀ s : State, let n := s.args.a
    n < 40 → ∃ t, exec .dieWipeComplete s = .next t ∧ (∀ k, k < Config.cores → dieOfCore k = n → coreOf t k = {}) ∧ (dieAt t n).pool = [] ∧
      (dieAt t n).recs = [] ∧ (∀ b, t.dieBusy.testBit b = (s.dieBusy.testBit b && decide (b ≠ n))) ∧
      ∀ e ∈ (dieAt t n).tlb, e.g = true ∧ e ∈ (dieAt s n).tlb))

/-- The host at the memory of the module (R331, R368, R379, R383, R384, R386): writes of DRAM at homes that hold all tokens, or that collect them
first; reads of DRAM; pools and barista memories, and what lies outside them; the invalidation of TLBs, which takes at least 160 cycles (log 51).
Writes go on while the module wipes (log 49); masked vectors follow PCI Express (log 59). -/
def Obligations.HostMemory : Prop :=
  (∀ s : State, let pa := s.args.a
    let n := s.args.b
    (s.args.c = 0 → pa + n ≤ 3 * 2 ^ 40 → (∀ l, pa / 1024 ≤ l → l * 1024 < pa + n → (homeOf s l).tokens = 64 ∧ (homeOf s l).moved = false) →
      (∀ q ∈ s.accs, q.1 < s.nextId ∧ q.2.older < s.nextId) →
      ∃ t, exec .hostDramWrite s = .next t ∧ (∀ k, (coreOf t k).lm = (coreOf s k).lm) ∧
        ∀ a, Memory.get t.dram a = if pa ≤ a ∧ a < pa + n then BitVec.ofNat 8 (s.args.d / 2 ^ (8 * (a - pa))) else Memory.get s.dram a) ∧
    (s.args.c = 0 → pa + n ≤ 3 * 2 ^ 40 → 0 < n → (pa + n - 1) / 1024 = pa / 1024 → (homeOf s (pa / 1024)).tokens ≠ 64 → (homeOf s (pa / 1024)).moved = false →
      ∃ t, exec .hostDramWrite s = .next t ∧ t.dram = s.dram ∧
        UnitAcc t s.nextId .uwrite pa n fun y => y.stage = .tokens ∧ y.place = 40 ∧ y.val = s.args.d % 2 ^ (8 * n)) ∧
    (s.args.c = 0 → 3 * 2 ^ 40 < pa + n → exec .hostDramWrite s = .next s ∧ exec .hostDramRead s = .next { s with reply := 2 ^ (8 * n) - 1 }) ∧
    (s.args.c = 0 → pa + n ≤ 3 * 2 ^ 40 → ∃ t, exec .hostDramRead s = .next t ∧ t = { s with reply := Memory.read s.dram pa n, llc := t.llc } ∧
      (0 < n → pa / 256 = (pa + n - 1) / 256 → llcHolds t (pa / 1024) (pa / 256 % 4) = true)) ∧
    (s.args.c ≠ 0 → ∃ t, exec .hostDramWrite s = .next t ∧ t.accs = Table.erase s.accs (s.args.c - 1) ∧ t.dram = s.dram ∧
      ∃ e ∈ t.agenda, e.item = .ev .launchQueueTake {})) ∧
  (∀ s : State, let off := s.args.a
    let n := s.args.b
    (off < 40 * 2 ^ 26 → 0x400000 ≤ off % 2 ^ 26 →
      (∃ t, exec .hostPoolWrite s = .next t ∧ poolRead t (off / 2 ^ 26) (off % 2 ^ 26) n = s.args.d % 256 ^ n) ∧
      exec .hostPoolRead s = .next { s with reply := poolRead s (off / 2 ^ 26) (off % 2 ^ 26) n }) ∧
    (40 * 2 ^ 26 ≤ off ∨ off % 2 ^ 26 < 0x400000 →
      exec .hostPoolWrite s = .next s ∧ exec .hostPoolRead s = .next { s with reply := 2 ^ (8 * n) - 1 })) ∧
  (∀ s : State, let k := Config.cores + s.args.a
    s.args.a < 512 → s.args.b + s.args.c ≤ 0x10000 →
    ∃ t, exec .hostBaristaWrite s = .next t ∧ (coreOf t k).lm = Memory.write (coreOf s k).lm s.args.b s.args.c s.args.d ∧
      (Memory.read (coreOf s k).lm 0x40 4 = 0 → Memory.read (coreOf t k).lm 0x40 4 ≠ 0 → (coreOf s k).running = false →
        Due t .baristaStart { a := k } s.cycle 3)) ∧
  (∀ s : State, let fn := s.args.a
    (s.wiping = true → exec .hostTlbInvalidate s = .next s) ∧
    (s.wiping = false → s.tlbBusy.isSome = true ∨ s.args.b % 4 = 3 ∨ s.tlbDies = 0 →
      exec .hostTlbInvalidate s = .next { s with tlbMode := s.args.b % 4 }) ∧
    (s.wiping = false → s.tlbBusy = none → s.args.b % 4 ≠ 3 → s.tlbDies ≠ 0 →
      ∃ t n, exec .hostTlbInvalidate s = .next t ∧ t.tlbBusy = some fn ∧ t.tlbMode = s.args.b % 4 ∧ 160 ≤ n ∧
        Due t .hostTlbInvDone { a := fn, b := s.args.b % 4, c := s.tlbDies, d := s.tlbVa } (s.cycle + n) 0)) ∧
  (∀ s : State, ∃ t, exec .hostTlbInvDone s = .next t ∧ t.tlbBusy = none ∧ (s.args.a < 2 → Told s t s.args.a 4) ∧
    (∀ n, n < 40 → s.args.c.testBit n = true → (dieAt t n).tlb = (dieAt s n).tlb.filter fun e => !invHits s.args.b s.args.d e) ∧
    ∀ r, s.args.c.testBit (r / 2048) = true → (rodOf t r).tlb = (rodOf s r).tlb.filter fun e => !invHits s.args.b s.args.d e)

/-- Registers, doorbells, peers and links (R13, R380, R381, R386, R387, R394 to R397, R402): writes of module registers, of vectors, of launch
queues, of network registers; what a peer may do, one write of a module after another (log 69), a halo write being translated in its domain;
register writes are ignored while the module wipes (log 49). Doorbells beyond their table have no effect (log 9), nor does a link of no port
(log 12); masked vectors follow PCI Express (log 59). Reads of registers by the host
(R13, R14, R379, R380, Tables 22.1, 22.3, 22.4): every field at its offset, reserved and write-only bits as zero. They ride on the row of a DRAM
read, its unit naming the space; the places of the identification in configuration space are those of PCI Express (log 9). -/
def Obligations.HostRegisters : Prop :=
  ((∀ s : State, s.wiping = true → exec .registerWrite s = .next s ∧ exec .qpDoorbell s = .next s ∧ exec .cqDoorbell s = .next s ∧
    exec .hostTlbInvalidate s = .next s ∧ exec .launchQueueTail s = .next s) ∧
  (∀ s : State, s.args.b + s.args.c ≤ 0x020 → exec .registerWrite s = .next s) ∧
  (∀ s : State, s.wiping = false →
    (s.args.b = 0x020 → s.args.c = 8 → exec .registerWrite s = .next { s with tlbVa := s.args.d % 2 ^ 64 }) ∧
    (s.args.b = 0x028 → s.args.c = 8 → exec .registerWrite s = .next { s with tlbDies := s.args.d % 2 ^ 40 }) ∧
    (∀ q, q < 16 → s.args.a < 2 → let qi := 16 * s.args.a + q
      (s.args.b = 0x100000 + 0x4000 * q + 0x2000 → s.args.c = 4 → ∃ t, exec .registerWrite s = .next t ∧
        launchQ t qi = { launchQ s qi with prio := s.args.d % 8, en := s.args.d.testBit 3, priv := s.args.d.testBit 4 }) ∧
      (s.args.b = 0x100000 + 0x4000 * q + 0x2004 → s.args.c = 4 → s.args.d % 64 ≠ (launchQ s qi).head → ∃ t, exec .registerWrite s = .next t ∧
        TailTaken (launchQ s qi) (launchQ t qi) (hostWrites s) s.args.d) ∧
      (s.args.b = 0x100000 + 0x4000 * q + 0x2008 → s.args.c = 4 → exec .registerWrite s = .next s) ∧
      (s.args.b = 0x100000 + 0x4000 * q + 0x200C → s.args.c = 4 → ∃ t, exec .registerWrite s = .next t ∧
        launchQ t qi = { launchQ s qi with ovf := (launchQ s qi).ovf && !s.args.d.testBit 0 }) ∧
      (∀ o, o + s.args.c ≤ 0x2000 → s.args.b = 0x100000 + 0x4000 * q + o → ∃ t, exec .registerWrite s = .next t ∧
        launchQ t qi = { launchQ s qi with slots := Memory.write (launchQ s qi).slots o s.args.c s.args.d })) ∧
    (∀ o, o + s.args.c ≤ 0x200 → s.args.b = 0x1000 + o → let f := Table.get {} s.funcs s.args.a
      ∃ t, exec .registerWrite s = .next t ∧ let g := Table.get {} t.funcs s.args.a
        g.msix = Memory.write f.msix o s.args.c s.args.d ∧
        ∀ v, v < 32 → g.pending.testBit v = (f.pending.testBit v && decide (Memory.read g.msix (16 * v + 12) 4 % 2 = 1)) ∧
          (f.pending.testBit v = true → Memory.read g.msix (16 * v + 12) 4 % 2 = 0 → v ∈ g.raised)) ∧
    (∀ p, p < 8 → s.args.b = 0x1000000 + 0x40000 * p + 0x08 → s.args.c = 8 → ∃ t, exec .registerWrite s = .next t ∧
      portAt t p = { portAt s p with qpBase := s.args.d % 2 ^ 64 / 4096 * 4096 })) ∧
  (∀ s : State, s.wiping = false → let p := s.args.a
    (p < 8 → s.args.b < (portAt s p).qpCount → ∃ t, exec .qpDoorbell s = .next t ∧
      portAt t p = { portAt s p with qp := Table.set (portAt s p).qp s.args.b (s.args.c % 2 ^ 64) }) ∧
    (p < 8 → s.args.b < (portAt s p).cqCount → ∃ t, exec .cqDoorbell s = .next t ∧
      portAt t p = { portAt s p with cq := Table.set (portAt s p).cq s.args.b (s.args.c % 2 ^ 64) }) ∧
    (8 ≤ p ∨ (portAt s p).qpCount ≤ s.args.b → exec .qpDoorbell s = .next s) ∧
    (8 ≤ p ∨ (portAt s p).cqCount ≤ s.args.b → exec .cqDoorbell s = .next s)) ∧
  (∀ s : State, let q := s.args.b / 0x4000
    let o := s.args.b % 0x4000
    (∀ a ∈ s.accs, a.1 < s.nextId ∧ (isPeer a.2 = false ∨ a.2.slot ≠ s.args.a)) →
    (s.wiping = true → ∃ t, exec .peerLaunchWrite s = .next t ∧ t = { s with nextId := t.nextId }) ∧
    (s.wiping = false → peerMay s s.args.a q = true → o + s.args.c ≤ 0x2000 → ∃ t, exec .peerLaunchWrite s = .next t ∧ t.reply = 0 ∧
      launchQ t q = { launchQ s q with slots := Memory.write (launchQ s q).slots o s.args.c s.args.d }) ∧
    (s.wiping = false → peerMay s s.args.a q = true → o = 0x2004 → s.args.d % 64 ≠ (launchQ s q).head → ∃ t, exec .peerLaunchWrite s = .next t ∧ t.reply = 0 ∧
      TailTaken (launchQ s q) (launchQ t q) (hostWrites s) s.args.d) ∧
    (s.wiping = false → peerMay s s.args.a q = false ∨ (0x2000 < o + s.args.c ∧ o ≠ 0x2004) →
      ∃ t, exec .peerLaunchWrite s = .next t ∧ t = { s with reply := 1, nextId := t.nextId })) ∧
  (∀ s : State, (∀ a ∈ s.accs, a.1 < s.nextId ∧ (isPeer a.2 = true → a.2.slot = s.args.a → a.2.stage ≠ .order)) →
    (∃ a ∈ s.accs, isPeer a.2 = true ∧ a.2.slot = s.args.a) →
    ∃ t, exec .peerLaunchWrite s = .next t ∧ t = { s with accs := t.accs, nextId := t.nextId } ∧ At t s.nextId .order) ∧
  (∀ (s : State) (m q : Nat), peerMay s m q = true ↔ m < 64 ∧ q < 16 ∧ aclAt s m % 2 = 1 ∧ aclAt s m / 2 ^ (4 + q) % 2 = 1 ∧
    aclAt s m / 2 ^ 20 % 2 ^ 3 ≤ (launchQ s q).prio) ∧
  (∀ s : State, let e := aclAt s s.args.a
    let va := s.args.b
    0 < s.args.c → (∀ a ∈ s.accs, a.1 < s.nextId ∧ (isPeer a.2 = false ∨ a.2.slot ≠ s.args.a)) →
    (64 ≤ s.args.a ∨ e % 2 = 0 ∨ e / 2 ^ 23 % 2 = 0 ∨ 2 ^ 57 ≤ va ∨ (∀ q ∈ s.domains, q.2.number = e / 2 ^ 24 % 2 ^ 32 → q.2.ended = true) →
      ∃ t, exec .haloWrite s = .next t ∧ t = { s with reply := 1, nextId := t.nextId }) ∧
    (∀ k die, s.args.a < 64 → e % 2 = 1 → e / 2 ^ 23 % 2 = 1 → va < 2 ^ 57 → liveNumber s (e / 2 ^ 24 % 2 ^ 32) = some k →
      (diesOf (domAt s k).mask).head? = some die → (rodOf s (rodOfCore (haloUnit die))).tlb = [] →
      ∃ t, exec .haloWrite s = .next t ∧ Due t .walkStart { a := die, b := s.nextId + 1 } (s.cycle + 12) 0 ∧
        ∃ y, acc t s.nextId y ∧ y.kind = .uwrite ∧ y.va = va ∧ y.n = s.args.c ∧ y.val = s.args.d ∧ y.priv = false ∧
          y.next = some (.haloWrite, { a := s.args.a, d := s.nextId + 1 }))) ∧
  (∀ (s : State) (id : Nat) (x : Acc), s.args.c = 0 → s.args.d = id + 1 → acc s id x →
    (∀ a ∈ Table.erase s.accs id, isPeer a.2 = false ∨ a.2.slot ≠ s.args.a) →
    ∃ t, exec .haloWrite s = .next t ∧ t = { s with accs := Table.erase s.accs id, reply := if x.stage = .fault then 1 else 0 }) ∧
  (∀ s : State, let f := Table.get {} s.funcs s.args.a
    let g := { f with rate := min s.args.b 128, width := min s.args.c 16, cxl := decide (s.args.a = 0) && decide (s.args.d = 1) }
    exec .linkTraining s = .next { s with funcs := Table.set s.funcs s.args.a g }) ∧
  (∀ s : State, (s.args.a < 8 → ∃ t, exec .linkUp s = .next t ∧
      portAt t s.args.a = { portAt s s.args.a with up := decide (s.args.b = 1), pfc := decide (s.args.c = 1) }) ∧
    (8 ≤ s.args.a → exec .linkUp s = .next s))) ∧
  (∀ s : State, let fn := s.args.c - 1
    let f := Table.get {} s.funcs fn
    (s.args.c = 1 ∨ s.args.c = 2 →
      (∀ r ∈ [(0x000, 4, 0x00014016), (0x004, 4, s.module), (0x008, 4, s.lcs), (0x00C, 4, 2 * b2n s.wiping + b2n s.alarm), (0x010, 8, s.dieBusy),
        (0x020, 8, s.tlbVa), (0x028, 8, s.tlbDies), (0x030, 4, b2n s.tlbBusy.isSome * 2 ^ 31 + s.tlbMode % 4), (0x1800, 8, f.pending)],
        s.args.a = r.1 → s.args.b = r.2.1 → exec .hostDramRead s = .next { s with reply := r.2.2 % 256 ^ r.2.1 }) ∧
      (∀ o, o < 0x200 → s.args.a = 0x1000 + o → exec .hostDramRead s = .next { s with reply := Memory.read f.msix o s.args.b }) ∧
      (∀ q, q < 16 → let x := launchQ s (16 * fn + q)
        (∀ o, o < 0x2000 → s.args.a = 0x100000 + 0x4000 * q + o → exec .hostDramRead s = .next { s with reply := Memory.read x.slots o s.args.b }) ∧
        ∀ r ∈ [(0x2000, x.prio + 8 * b2n x.en + 16 * b2n x.priv), (0x2004, x.tail), (0x2008, x.head), (0x200C, b2n x.ovf)],
          s.args.a = 0x100000 + 0x4000 * q + r.1 → s.args.b = 4 → exec .hostDramRead s = .next { s with reply := r.2 % 2 ^ 32 }) ∧
      (∀ p, p < 8 → let x := portAt s p
        ∀ r ∈ [(0x00, 4, b2n x.up + 2 * b2n x.pfc), (0x08, 8, x.qpBase), (0x10, 8, x.qpCount), (0x18, 8, x.cqBase), (0x20, 8, x.cqCount)],
          s.args.a = 0x1000000 + 0x40000 * p + r.1 → s.args.b = r.2.1 →
          exec .hostDramRead s = .next { s with reply := r.2.2 % 256 ^ r.2.1 }) ∧
      (∀ i o, i < 512 → o < 0x10000 → s.args.a = 0x2000000 + 0x10000 * i + o →
        exec .hostDramRead s = .next { s with reply := Memory.read (coreOf s (Config.cores + i)).lm o s.args.b })) ∧
    (s.args.c = 3 ∨ s.args.c = 4 → ∀ r ∈ [(0x00, 2, 0x1F2C), (0x02, 2, 0x4016), (0x08, 1, 0x01), (0x09, 3, 0x120000)],
      s.args.a = r.1 → s.args.b = r.2.1 → exec .hostDramRead s = .next { s with reply := r.2.2 }))

/-- Management (R375, R394, R395, R398 to R402, R404, R405): what it sets and reads, the life cycle, firmware, resets, the power alarm and the
clock. A millisecond is counted in core cycles and a change of the clock takes none (log 13); what a reset leaves standing is log 50; masked
vectors follow PCI Express (log 59). What a measurement digests, whether signatures verify, the minimum version, telemetry and each power estimate are
free values of Config (log 7). -/
def Obligations.Management : Prop :=
  (∀ s : State, exec .setModuleNumber s = .next (if s.args.a < 64 then { s with module := s.args.a } else s)) ∧
  (∀ s : State, (s.args.a < 64 → ∃ t, exec .writeAccessControl s = .next t ∧ aclAt t s.args.a = s.args.d % 2 + s.args.d / 2 ^ 4 % 2 ^ 52 * 2 ^ 4 ∧
      ∀ m, m ≠ s.args.a → aclAt t m = aclAt s m) ∧ (64 ≤ s.args.a → exec .writeAccessControl s = .next s)) ∧
  (∀ s : State, exec .setPowerLimit s = .next (if 6000 ≤ s.args.a ∧ s.args.a ≤ 18000 then { s with powerLimit := s.args.a } else s)) ∧
  (∀ s : State, ∃ t, exec .readTelemetry s = .next t ∧ t = { s with reply := t.reply, free := s.free + 1 } ∧ (s.args.a = 0 → t.reply = s.lcs)) ∧
  (∀ s : State, ∃ r, exec .getMeasurements s = .next { s with reply := r } ∧
    ∀ x y z, s.measure = [x, y, z] → r % 2 ^ 384 = x % 2 ^ 384 ∧ r / 2 ^ 384 % 2 ^ 384 = y % 2 ^ 384 ∧ r / 2 ^ 768 % 2 ^ 384 = z % 2 ^ 384) ∧
  (∀ s : State, let v := s.args.d
    let ok := v % 2 ^ 32 = 0x4A594657 ∧ Config.minVersion ≤ v / 2 ^ 32 % 2 ^ 32 ∧ Config.signaturesVerify v = true ∧ s.args.a ≤ 2 ^ 24 ∧
      0x40F0 + v / 2 ^ 64 % 2 ^ 32 ≤ 2 ^ 24
    (ok → exec .firmwareUpdate s = .next { s with flash := Memory.write [] 0 s.args.a v }) ∧ (¬ ok → exec .firmwareUpdate s = .next s)) ∧
  (∀ s : State, (lcsNextOk s.lcs s.args.a = true → exec .lifecycleTransition s = .next { s with lcsNext := some s.args.a }) ∧
    (lcsNextOk s.lcs s.args.a = false → exec .lifecycleTransition s = .next s)) ∧
  (∀ a b, lcsNextOk a b = true ↔ (a, b) ∈ [(0, 1), (1, 2), (1, 3), (2, 1), (2, 3)]) ∧
  (∀ s : State, ∀ i ∈ [Instr.coldReset, .warmReset], ∃ t, exec i s = .next t ∧ t.cores = [] ∧ t.rods = [] ∧ t.dies = [] ∧ t.domains = [] ∧ t.dram = [] ∧
    t.homes = [] ∧ t.accs = [] ∧ t.msgs = [] ∧ t.launch = [] ∧ t.acl = [] ∧ t.cycle = 0 ∧ t.wiping = true ∧ t.dieBusy = 0 ∧ t.powerLimit = 18000 ∧
    t.clock = 1050 ∧ t.alarm = false ∧ t.host = s.host ∧ t.flash = s.flash ∧ t.module = s.module ∧
    t.lcs = (if i = .coldReset then s.lcsNext.getD s.lcs else s.lcs) ∧ (∃ n, 0 < n ∧ n ≤ 210000000 ∧ Due t .wipeComplete {} n 0) ∧
    Due t .moduleRoundSample {} 0 3) ∧
  (∀ s : State, let v := slotImage s
    let ok : Prop := v % 2 ^ 32 = 0x4A594657 ∧ Config.minVersion ≤ v / 2 ^ 32 % 2 ^ 32 ∧ Config.signaturesVerify v = true
    ∃ t, exec .coldReset s = .next t ∧ (t.booted = true ↔ ok) ∧ nth 0 t.measure 0 = Config.digest 0 t.lcs ∧
      (ok → nth 0 t.measure 1 = Config.digest 1 v ∧ nth 0 t.measure 2 = Config.digest 2 v)) ∧
  (∀ s : State, ∃ t, exec .wipeComplete s = .next t ∧ t.wiping = false ∧ Told s t 0 3 ∧ Told s t 1 3 ∧
    ((∃ e ∈ s.agenda, e.item = .ev .launchQueueTake {}) ∧ t.agenda = s.agenda ∨
      ∃ n, 1 ≤ n ∧ n ≤ 256 ∧ Due t .launchQueueTake {} (s.cycle + n) 0)) ∧
  (∀ s : State, let w := Config.power s.free
    ∃ t, exec .powerEstimate s = .next t ∧ t.free = s.free + 1 ∧ Due t .powerEstimate {} (s.cycle + 1000 * s.clock) 0 ∧
    t.below = (if w * 100 < s.powerLimit * 95 then s.below + 1 else 0) ∧
    t.alarm = (if s.powerLimit < w then true else if 10 ≤ t.below then false else s.alarm) ∧
    (t.alarm ≠ s.alarm → Told s t 0 2 ∧ Told s t 1 2)) ∧
  (∀ s : State, (clockOk s.args.a = false → exec .setClock s = .next s) ∧
    (clockOk s.args.a = true → s.clockNext = none → ∃ t, exec .setClock s = .next t ∧ t.clockNext = some s.args.a ∧ t.clock = s.clock ∧
      Due t .clockChangeDone {} s.cycle 3) ∧
    (clockOk s.args.a = true → s.clockNext.isSome = true → exec .setClock s = .next { s with clockWait := some s.args.a })) ∧
  (∀ f, clockOk f = true ↔ 525 ≤ f ∧ f ≤ 1050 ∧ f % 25 = 0) ∧
  (∀ (s : State) (f : Nat), s.clockNext = some f →
    (s.clockWait = none → exec .clockChangeDone s = .next { s with clock := f, clockNext := none }) ∧
    (∀ g, s.clockWait = some g → ∃ t, exec .clockChangeDone s = .next t ∧ t.clock = f ∧ t.clockNext = some g ∧ t.clockWait = none ∧
      Due t .clockChangeDone {} s.cycle 3))

/-- What reset leaves (R5, R19, R22, R254, R358, R363, R402, R404, R405, Tables 14.5, 14.6, 22.3): the module at full clock and power limit, the
wipe in progress, no domain, no task, every byte zero, all tokens of a line at its home; what management keeps legal holds. The values that the
manual does not give, zeros among them, are the model's (log 5), and so is the count of the wipe in cycles (log 13). -/
def Obligations.ResetValues : Prop :=
  let s := State.reset
  s.cycle = 0 ∧ s.wiping = true ∧ s.alarm = false ∧ s.dieBusy = 0 ∧ s.powerLimit = 18000 ∧ s.clock = 1050 ∧ s.domains = [] ∧ Managed s ∧
  (∀ a, Memory.get s.dram a = 0) ∧ (∀ line, homeOf s line = { tokens := 64, owner := true }) ∧ (∀ place line, place < 40 → tokensAt s place line = 0) ∧
  (∀ k, (∀ a, Memory.get (coreOf s k).lm a = 0) ∧ (coreOf s k).wseq = 0 ∧ (coreOf s k).wack = 0 ∧ (coreOf s k).cfg0.toNat = 0x3F800000 ∧
    (coreOf s k).cfg1 = 0 ∧ (∀ i, (slotAt (coreOf s k) i).live = false)) ∧
  (∀ r, (rodOf s r).weight.toNat = 0x11111111 ∧ (rodOf s r).nTiles = 0) ∧
  Due s .moduleRoundSample {} 0 3 ∧ ∃ n, 0 < n ∧ n ≤ 210000000 ∧ Due s .wipeComplete {} n 0

/-- Every step keeps legal what management sets: whatever runs on the cores, and in whatever state, no instruction and no event leaves an illegal
life-cycle state, power limit, clock or module number (R375, R394, R401, R404, R405). -/
def Obligations.ManagementStaysLegal : Prop :=
  ∀ s t : State, Managed s → step s = .next t → Managed t

/-- The life cycle (R401, Table 22.11): a transition is requested, is of the table, and takes effect at the next cold reset; no step makes another. -/
def Obligations.LifeCycle : Prop :=
  let table : List (Nat × Nat) := [(0, 1), (1, 2), (1, 3), (2, 1), (2, 3)]
  (∀ s : State, ((s.lcs, s.args.a) ∈ table → exec .lifecycleTransition s = .next { s with lcsNext := some s.args.a }) ∧
    ((s.lcs, s.args.a) ∉ table → exec .lifecycleTransition s = .next s)) ∧
  (∀ s : State, ∃ t, exec .coldReset s = .next t ∧ t.lcs = s.lcsNext.getD s.lcs ∧ t.lcsNext = none) ∧
  (∀ s t : State, (∀ n, s.lcsNext = some n → (s.lcs, n) ∈ table) → step s = .next t →
    (∀ n, t.lcsNext = some n → (t.lcs, n) ∈ table) ∧
    (t.lcs = s.lcs ∨ s.turn = none ∧ ∃ e rest x, leastOf s.agenda = some (e, rest) ∧ e.item = .ev .coldReset x ∧ s.lcsNext = some t.lcs ∧ (s.lcs, t.lcs) ∈ table))

/-- Encoding and decoding agree (R65 to R81): the decoder reads from the encoded word of a well-formed instruction, whichever it is, that
instruction with every operand. -/
def Obligations.RoundTrip : Prop :=
  ∀ (i : Instr) (n w : Nat), wellFormed i = true → encode i = some (n, w) → decodeTableWord n w = some i

/-- Six words that the manual prints and what they decode to (Tables 3.24, 3.25, 3.27, 6.3). -/
def Obligations.DecodeWords : Prop :=
  decodeTableWord 32 0x00062183 = some (.add 0 12 4 3) ∧ decodeTableWord 32 0xFFFD9385 = some (.addImmediate 0x1FFFB 2 7) ∧
  decodeTableWord 32 0x00114991 = some (.ld 4 0 2 9 3) ∧ decodeTableWord 32 0xFFE8AA19 = some (.bne 0x3FFA 5 4) ∧
  decodeTableWord 32 0xC0020B43 = some (.ckSplit 12 0 4 1 6) ∧ decodeTableWord 32 0x40380BB5 = some (.vred 2 0 1 7)
end

