-- ==== Sys2Proof/Laws/Memory.lean ====
section
/-!
SUPPORT. Memory: reading after writing, for every memory, and the canonical form that every memory operation keeps.
-/

namespace Sys2Proof.Machine

/-! One byte. -/

theorem Memory.get_place (m : Mem) (a b : Nat) (v : Byte) : Memory.get (Memory.place m a v) b = if b = a then v else Memory.get m b := by
  induction m with
  | nil => simp [Memory.place, Memory.get, eq_comm]
  | cons c m ih =>
    simp only [Memory.place]
    split
    · by_cases h : a = b <;> simp [Memory.get, h, eq_comm]
    · split
      · next h => subst h; by_cases h : b = c.1 <;> simp [Memory.get, h, eq_comm]
      · next h2 =>
        by_cases h : c.1 = b
        · simp [Memory.get, h, show ¬ b = a from fun e => h2 (by rw [h, e])]
        · simp [Memory.get, h, ih]

theorem Memory.get_filter_ne (m : Mem) (a b : Nat) : Memory.get (m.filter fun c => decide (c.1 ≠ a)) b = if b = a then 0 else Memory.get m b := by
  induction m with
  | nil => simp [Memory.get]
  | cons c m ih =>
    by_cases h : c.1 = a
    · simp only [ne_eq, h, not_true_eq_false, decide_false, Bool.false_eq_true, not_false_eq_true, List.filter_cons_of_neg, Memory.get]
      simp only [ne_eq] at ih
      rw [ih]
      by_cases hb : b = a
      · simp [hb]
      · simp [hb, Ne.symm hb]
    · simp only [ne_eq] at ih
      simp only [ne_eq, h, not_false_eq_true, decide_true, List.filter_cons_of_pos, Memory.get, ih]
      by_cases hb : c.1 = b
      · simp [hb, hb ▸ h]
      · simp [hb]

/-- A byte written is read back, and every other byte is as before. -/
theorem Memory.get_put (m : Mem) (a b : Nat) (v : Byte) : Memory.get (Memory.put m a v) b = if b = a then v else Memory.get m b := by
  unfold Memory.put
  split
  · next h => rw [Memory.get_filter_ne, h]
  · exact Memory.get_place m a b v

@[simp] theorem Memory.get_put_same (m : Mem) (a : Nat) (v : Byte) : Memory.get (Memory.put m a v) a = v := by simp [Memory.get_put]

theorem Memory.get_put_ne (m : Mem) {a b : Nat} (v : Byte) (h : b ≠ a) : Memory.get (Memory.put m a v) b = Memory.get m b := by
  simp [Memory.get_put, h]

/-! Words. -/

/-- A byte outside the bytes written is as before. -/
theorem Memory.get_write_out (m : Mem) (a n v b : Nat) (h : b < a ∨ a + n ≤ b) : Memory.get (Memory.write m a n v) b = Memory.get m b := by
  induction n generalizing m a v with
  | zero => rfl
  | succ n ih =>
    rw [Memory.write, ih _ _ _ (by omega), Memory.get_put_ne _ _ (by omega)]

/-- Byte i of the bytes written. -/
theorem Memory.get_write_in (m : Mem) (a n v i : Nat) (h : i < n) :
    Memory.get (Memory.write m a n v) (a + i) = BitVec.ofNat 8 (v / 256 ^ i) := by
  induction n generalizing m a v i with
  | zero => omega
  | succ n ih =>
    rw [Memory.write]
    rcases i with _ | i
    · rw [Memory.get_write_out _ _ _ _ _ (by omega)]; simp
    · have := ih (Memory.put m a (BitVec.ofNat 8 v)) (a + 1) (v / 256) i (by omega)
      rw [show a + (i + 1) = a + 1 + i by omega, this, Nat.div_div_eq_div_mul, Nat.pow_succ, Nat.mul_comm 256]

/-- A read is decided by the bytes it reads. -/
theorem Memory.read_congr (m m' : Mem) (a n : Nat) (h : ∀ i < n, Memory.get m (a + i) = Memory.get m' (a + i)) :
    Memory.read m a n = Memory.read m' a n := by
  induction n generalizing a with
  | zero => rfl
  | succ n ih =>
    have h0 := h 0 (by omega)
    rw [Memory.read, Memory.read, ih (a + 1) fun i hi => by
      have := h (i + 1) (by omega)
      rwa [show a + (i + 1) = a + 1 + i by omega] at this]
    simp only [Nat.add_zero] at h0
    rw [h0]

/-- The bytes written are read back. -/
@[simp] theorem Memory.read_write (m : Mem) (a n v : Nat) : Memory.read (Memory.write m a n v) a n = v % 256 ^ n := by
  induction n generalizing m a v with
  | zero => simp [Memory.read, Nat.mod_one]
  | succ n ih =>
    rw [Memory.write, Memory.read, ih, Memory.get_write_out _ _ _ _ _ (by omega), Memory.get_put_same]
    rw [BitVec.toNat_ofNat, Nat.pow_succ 256, Nat.mul_comm (256 ^ n), Nat.mod_mul]

/-- A read that meets no byte written is as before. -/
theorem Memory.read_write_out (m : Mem) (a n v b k : Nat) (h : b + k ≤ a ∨ a + n ≤ b) :
    Memory.read (Memory.write m a n v) b k = Memory.read m b k :=
  Memory.read_congr _ _ _ _ fun i hi => Memory.get_write_out _ _ _ _ _ (by omega)

theorem Memory.read_lt (m : Mem) (a n : Nat) : Memory.read m a n < 256 ^ n := by
  induction n generalizing a with
  | zero => simp [Memory.read]
  | succ n ih =>
    have := ih (a + 1)
    have h := (Memory.get m a).isLt
    rw [Memory.read, Nat.pow_succ]
    omega

/-- A memory from which a range was cleared. -/
theorem Memory.get_clear (m : Mem) (lo hi b : Nat) : Memory.get (Memory.clear m lo hi) b = if lo ≤ b ∧ b < hi then 0 else Memory.get m b := by
  unfold Memory.clear
  induction m with
  | nil => simp [Memory.get]
  | cons c m ih =>
    simp only [List.filter_cons]
    split
    · next h =>
      simp only [Memory.get, ih]
      by_cases hb : c.1 = b
      · have : ¬ (lo ≤ b ∧ b < hi) := by simp at h; omega
        simp [hb, this]
      · simp [hb]
    · next h =>
      rw [ih]
      simp only [Memory.get]
      by_cases hb : c.1 = b
      · have : lo ≤ b ∧ b < hi := by simp at h; omega
        simp [this]
      · simp [hb]

/-! The canonical form. -/

theorem Memory.wfFrom_mono {lo lo' : Nat} (h : lo ≤ lo') : ∀ {m : Mem}, Memory.wfFrom lo' m = true → Memory.wfFrom lo m = true
  | [], _ => rfl
  | c :: m, hm => by
    simp only [Memory.wfFrom, Bool.and_eq_true, decide_eq_true_eq] at hm ⊢
    exact ⟨⟨by omega, hm.1.2⟩, hm.2⟩

theorem Memory.wfFrom_filter (p : Nat × Byte → Bool) : ∀ {m : Mem} {lo : Nat}, Memory.wfFrom lo m = true → Memory.wfFrom lo (m.filter p) = true
  | [], _, _ => rfl
  | c :: m, lo, h => by
    simp only [Memory.wfFrom, Bool.and_eq_true, decide_eq_true_eq] at h
    have ih := Memory.wfFrom_filter p h.2
    simp only [List.filter_cons]
    split
    · simp only [Memory.wfFrom, Bool.and_eq_true, decide_eq_true_eq]; exact ⟨h.1, ih⟩
    · exact Memory.wfFrom_mono (by omega) ih

theorem Memory.wfFrom_place (v : Byte) (hv : v ≠ 0) :
    ∀ {m : Mem} {lo a : Nat}, Memory.wfFrom lo m = true → lo ≤ a → Memory.wfFrom lo (Memory.place m a v) = true
  | [], lo, a, _, ha => by simp only [Memory.place, Memory.wfFrom, ha, decide_true, Bool.and_true, Bool.true_and, decide_eq_true_eq]; exact hv
  | c :: m, lo, a, h, ha => by
    simp only [Memory.wfFrom, Bool.and_eq_true, decide_eq_true_eq] at h
    simp only [Memory.place]
    split
    · simp only [Memory.wfFrom, Bool.and_eq_true, decide_eq_true_eq]; exact ⟨⟨ha, hv⟩, ⟨by omega, h.1.2⟩, h.2⟩
    · split
      · next he => subst he; simp only [Memory.wfFrom, Bool.and_eq_true, decide_eq_true_eq]; exact ⟨⟨ha, hv⟩, h.2⟩
      · simp only [Memory.wfFrom, Bool.and_eq_true, decide_eq_true_eq]; exact ⟨h.1, Memory.wfFrom_place v hv h.2 (by omega)⟩

theorem Memory.wf_filter {m : Mem} (p : Nat × Byte → Bool) (h : Memory.wf m = true) : Memory.wf (m.filter p) = true := Memory.wfFrom_filter p h

theorem Memory.wf_put {m : Mem} (a : Nat) (v : Byte) (h : Memory.wf m = true) : Memory.wf (Memory.put m a v) = true := by
  unfold Memory.put
  split
  · exact Memory.wf_filter _ h
  · next hv => exact Memory.wfFrom_place v hv h (Nat.zero_le _)

theorem Memory.wf_write {m : Mem} (a n v : Nat) (h : Memory.wf m = true) : Memory.wf (Memory.write m a n v) = true := by
  induction n generalizing m a v with
  | zero => exact h
  | succ n ih => exact ih _ _ (Memory.wf_put _ _ h)

theorem Memory.wf_writeBytes {m : Mem} (a : Nat) (bs : List Byte) (h : Memory.wf m = true) : Memory.wf (Memory.writeBytes m a bs) = true := by
  induction bs generalizing m a with
  | nil => exact h
  | cons b bs ih => exact ih _ (Memory.wf_put _ _ h)

theorem Memory.wf_clear {m : Mem} (lo hi : Nat) (h : Memory.wf m = true) : Memory.wf (Memory.clear m lo hi) = true := Memory.wf_filter _ h

theorem Memory.wf_overlay {m : Mem} (off : Nat) (src : Mem) (h : Memory.wf m = true) : Memory.wf (Memory.overlay m off src) = true := by
  unfold Memory.overlay
  induction src generalizing m with
  | nil => exact h
  | cons c src ih => exact ih (Memory.wf_put _ _ h)

theorem Memory.wf_setRange {m : Mem} (lo n : Nat) (src : Mem) (h : Memory.wf m = true) : Memory.wf (setRange m lo n src) = true :=
  Memory.wf_overlay _ _ (Memory.wf_clear _ _ h)

theorem Memory.wfFrom_slice (k hi : Nat) :
    ∀ {m : Mem} {lo : Nat}, Memory.wfFrom lo m = true → Memory.wfFrom (lo - k) (Memory.slice m k hi) = true
  | [], _, _ => rfl
  | c :: m, lo, h => by
    simp only [Memory.wfFrom, Bool.and_eq_true, decide_eq_true_eq] at h
    have ih := Memory.wfFrom_slice k hi h.2
    unfold Memory.slice at ih ⊢
    simp only [List.filter_cons]
    split
    · next hp =>
      simp only [Bool.and_eq_true, decide_eq_true_eq] at hp
      simp only [List.map_cons, Memory.wfFrom, Bool.and_eq_true, decide_eq_true_eq]
      exact ⟨⟨by omega, h.1.2⟩, Memory.wfFrom_mono (by omega) ih⟩
    · exact Memory.wfFrom_mono (by omega) ih

theorem Memory.wf_slice {m : Mem} (lo hi : Nat) (h : Memory.wf m = true) : Memory.wf (Memory.slice m lo hi) = true :=
  Memory.wfFrom_mono (Nat.zero_le _) (Memory.wfFrom_slice lo hi h)

/-- The memories of the state after reset are in canonical form: DRAM, host memory, the firmware slot. -/
theorem State.reset_memories : Memory.wf State.reset.dram = true ∧ Memory.wf State.reset.host = true ∧ Memory.wf State.reset.flash = true := by decide

/-! Tables. -/

theorem Table.find_set {α : Type} (t : Table α) (k j : Nat) (v : α) : Table.find (Table.set t k v) j = if j = k then some v else Table.find t j := by
  induction t with
  | nil => simp [Table.set, Table.find, eq_comm]
  | cons c t ih =>
    simp only [Table.set]
    split
    · by_cases h : k = j <;> simp [Table.find, h, eq_comm]
    · split
      · next h => subst h; by_cases h : j = c.1 <;> simp [Table.find, h, eq_comm]
      · next h2 =>
        by_cases h : c.1 = j
        · simp [Table.find, h, show ¬ j = k from fun e => h2 (by rw [h, e])]
        · simp [Table.find, h, ih]

theorem Table.get_eq_find {α : Type} (d : α) (t : Table α) (k : Nat) : Table.get d t k = (Table.find t k).getD d := by
  induction t with
  | nil => rfl
  | cons c t ih => simp only [Table.get, Table.find]; split <;> simp_all

theorem Table.get_set {α : Type} (d : α) (t : Table α) (k j : Nat) (v : α) : Table.get d (Table.set t k v) j = if j = k then v else Table.get d t j := by
  simp only [Table.get_eq_find, Table.find_set]; split <;> rfl

theorem Table.find_filter {α : Type} (t : Table α) (p : Nat → Bool) (j : Nat) :
    Table.find (t.filter fun c => p c.1) j = if p j then Table.find t j else none := by
  induction t with
  | nil => simp [Table.find]
  | cons c t ih =>
    simp only [List.filter_cons]
    by_cases h : c.1 = j
    · by_cases hp : p c.1 <;> simp_all [Table.find]
    · by_cases hp : p c.1 <;> simp_all [Table.find]

theorem Table.find_erase {α : Type} (t : Table α) (k j : Nat) : Table.find (Table.erase t k) j = if j = k then none else Table.find t j := by
  unfold Table.erase
  rw [Table.find_filter t (fun x => decide (x ≠ k)) j]
  by_cases h : j = k <;> simp [h]

/-! Lists by place. -/

theorem nth_setNth {α : Type} (d : α) (l : List α) (i j : Nat) (v : α) : nth d (setNth d l i v) j = if j = i then v else nth d l j := by
  induction i generalizing l j with
  | zero => cases l <;> cases j <;> simp [setNth, nth]
  | succ i ih =>
    cases l with
    | nil =>
      cases j with
      | zero => simp [setNth, nth]
      | succ j => simp only [setNth, nth, ih]; split <;> simp_all
    | cons a l =>
      cases j with
      | zero => simp [setNth, nth]
      | succ j => simp only [setNth, nth, ih, Nat.add_right_cancel_iff]

end Sys2Proof.Machine
end

