-- ==== Sys2Proof/Laws/State.lean ====
section
/-!
SUPPORT. State: what each update of the state leaves as it was, and what a unit reads as after it.
-/

namespace Sys2Proof.Machine

/-! setCore. -/

@[simp] theorem setCore_cycle (s : State) (k : Nat) (c : Core) : (setCore s k c).cycle = s.cycle := rfl
@[simp] theorem setCore_agenda (s : State) (k : Nat) (c : Core) : (setCore s k c).agenda = s.agenda := rfl
@[simp] theorem setCore_turn (s : State) (k : Nat) (c : Core) : (setCore s k c).turn = s.turn := rfl
@[simp] theorem setCore_cur (s : State) (k : Nat) (c : Core) : (setCore s k c).cur = s.cur := rfl
@[simp] theorem setCore_args (s : State) (k : Nat) (c : Core) : (setCore s k c).args = s.args := rfl
@[simp] theorem setCore_free (s : State) (k : Nat) (c : Core) : (setCore s k c).free = s.free := rfl
@[simp] theorem setCore_nextId (s : State) (k : Nat) (c : Core) : (setCore s k c).nextId = s.nextId := rfl
@[simp] theorem setCore_protos (s : State) (k : Nat) (c : Core) : (setCore s k c).protos = s.protos := rfl
@[simp] theorem setCore_rods (s : State) (k : Nat) (c : Core) : (setCore s k c).rods = s.rods := rfl
@[simp] theorem setCore_frames (s : State) (k : Nat) (c : Core) : (setCore s k c).frames = s.frames := rfl
@[simp] theorem setCore_dies (s : State) (k : Nat) (c : Core) : (setCore s k c).dies = s.dies := rfl
@[simp] theorem setCore_domains (s : State) (k : Nat) (c : Core) : (setCore s k c).domains = s.domains := rfl
@[simp] theorem setCore_dram (s : State) (k : Nat) (c : Core) : (setCore s k c).dram = s.dram := rfl
@[simp] theorem setCore_homes (s : State) (k : Nat) (c : Core) : (setCore s k c).homes = s.homes := rfl
@[simp] theorem setCore_llc (s : State) (k : Nat) (c : Core) : (setCore s k c).llc = s.llc := rfl
@[simp] theorem setCore_msgs (s : State) (k : Nat) (c : Core) : (setCore s k c).msgs = s.msgs := rfl
@[simp] theorem setCore_accs (s : State) (k : Nat) (c : Core) : (setCore s k c).accs = s.accs := rfl
@[simp] theorem setCore_walks (s : State) (k : Nat) (c : Core) : (setCore s k c).walks = s.walks := rfl
@[simp] theorem setCore_flights (s : State) (k : Nat) (c : Core) : (setCore s k c).flights = s.flights := rfl
@[simp] theorem setCore_modRound (s : State) (k : Nat) (c : Core) : (setCore s k c).modRound = s.modRound := rfl
@[simp] theorem setCore_modActive (s : State) (k : Nat) (c : Core) : (setCore s k c).modActive = s.modActive := rfl
@[simp] theorem setCore_modSample (s : State) (k : Nat) (c : Core) : (setCore s k c).modSample = s.modSample := rfl
@[simp] theorem setCore_host (s : State) (k : Nat) (c : Core) : (setCore s k c).host = s.host := rfl
@[simp] theorem setCore_module (s : State) (k : Nat) (c : Core) : (setCore s k c).module = s.module := rfl
@[simp] theorem setCore_lcs (s : State) (k : Nat) (c : Core) : (setCore s k c).lcs = s.lcs := rfl
@[simp] theorem setCore_lcsNext (s : State) (k : Nat) (c : Core) : (setCore s k c).lcsNext = s.lcsNext := rfl
@[simp] theorem setCore_wiping (s : State) (k : Nat) (c : Core) : (setCore s k c).wiping = s.wiping := rfl
@[simp] theorem setCore_alarm (s : State) (k : Nat) (c : Core) : (setCore s k c).alarm = s.alarm := rfl
@[simp] theorem setCore_dieBusy (s : State) (k : Nat) (c : Core) : (setCore s k c).dieBusy = s.dieBusy := rfl
@[simp] theorem setCore_tlbVa (s : State) (k : Nat) (c : Core) : (setCore s k c).tlbVa = s.tlbVa := rfl
@[simp] theorem setCore_tlbDies (s : State) (k : Nat) (c : Core) : (setCore s k c).tlbDies = s.tlbDies := rfl
@[simp] theorem setCore_tlbMode (s : State) (k : Nat) (c : Core) : (setCore s k c).tlbMode = s.tlbMode := rfl
@[simp] theorem setCore_tlbBusy (s : State) (k : Nat) (c : Core) : (setCore s k c).tlbBusy = s.tlbBusy := rfl
@[simp] theorem setCore_launch (s : State) (k : Nat) (c : Core) : (setCore s k c).launch = s.launch := rfl
@[simp] theorem setCore_lastServed (s : State) (k : Nat) (c : Core) : (setCore s k c).lastServed = s.lastServed := rfl
@[simp] theorem setCore_funcs (s : State) (k : Nat) (c : Core) : (setCore s k c).funcs = s.funcs := rfl
@[simp] theorem setCore_ports (s : State) (k : Nat) (c : Core) : (setCore s k c).ports = s.ports := rfl
@[simp] theorem setCore_acl (s : State) (k : Nat) (c : Core) : (setCore s k c).acl = s.acl := rfl
@[simp] theorem setCore_powerLimit (s : State) (k : Nat) (c : Core) : (setCore s k c).powerLimit = s.powerLimit := rfl
@[simp] theorem setCore_below (s : State) (k : Nat) (c : Core) : (setCore s k c).below = s.below := rfl
@[simp] theorem setCore_clock (s : State) (k : Nat) (c : Core) : (setCore s k c).clock = s.clock := rfl
@[simp] theorem setCore_clockNext (s : State) (k : Nat) (c : Core) : (setCore s k c).clockNext = s.clockNext := rfl
@[simp] theorem setCore_clockWait (s : State) (k : Nat) (c : Core) : (setCore s k c).clockWait = s.clockWait := rfl
@[simp] theorem setCore_flash (s : State) (k : Nat) (c : Core) : (setCore s k c).flash = s.flash := rfl
@[simp] theorem setCore_booted (s : State) (k : Nat) (c : Core) : (setCore s k c).booted = s.booted := rfl
@[simp] theorem setCore_measure (s : State) (k : Nat) (c : Core) : (setCore s k c).measure = s.measure := rfl
@[simp] theorem setCore_reply (s : State) (k : Nat) (c : Core) : (setCore s k c).reply = s.reply := rfl

/-! updCore. -/

@[simp] theorem updCore_cycle (s : State) (k : Nat) (f : Core → Core) : (updCore s k f).cycle = s.cycle := rfl
@[simp] theorem updCore_agenda (s : State) (k : Nat) (f : Core → Core) : (updCore s k f).agenda = s.agenda := rfl
@[simp] theorem updCore_turn (s : State) (k : Nat) (f : Core → Core) : (updCore s k f).turn = s.turn := rfl
@[simp] theorem updCore_cur (s : State) (k : Nat) (f : Core → Core) : (updCore s k f).cur = s.cur := rfl
@[simp] theorem updCore_args (s : State) (k : Nat) (f : Core → Core) : (updCore s k f).args = s.args := rfl
@[simp] theorem updCore_free (s : State) (k : Nat) (f : Core → Core) : (updCore s k f).free = s.free := rfl
@[simp] theorem updCore_nextId (s : State) (k : Nat) (f : Core → Core) : (updCore s k f).nextId = s.nextId := rfl
@[simp] theorem updCore_protos (s : State) (k : Nat) (f : Core → Core) : (updCore s k f).protos = s.protos := rfl
@[simp] theorem updCore_rods (s : State) (k : Nat) (f : Core → Core) : (updCore s k f).rods = s.rods := rfl
@[simp] theorem updCore_frames (s : State) (k : Nat) (f : Core → Core) : (updCore s k f).frames = s.frames := rfl
@[simp] theorem updCore_dies (s : State) (k : Nat) (f : Core → Core) : (updCore s k f).dies = s.dies := rfl
@[simp] theorem updCore_domains (s : State) (k : Nat) (f : Core → Core) : (updCore s k f).domains = s.domains := rfl
@[simp] theorem updCore_dram (s : State) (k : Nat) (f : Core → Core) : (updCore s k f).dram = s.dram := rfl
@[simp] theorem updCore_homes (s : State) (k : Nat) (f : Core → Core) : (updCore s k f).homes = s.homes := rfl
@[simp] theorem updCore_llc (s : State) (k : Nat) (f : Core → Core) : (updCore s k f).llc = s.llc := rfl
@[simp] theorem updCore_msgs (s : State) (k : Nat) (f : Core → Core) : (updCore s k f).msgs = s.msgs := rfl
@[simp] theorem updCore_accs (s : State) (k : Nat) (f : Core → Core) : (updCore s k f).accs = s.accs := rfl
@[simp] theorem updCore_walks (s : State) (k : Nat) (f : Core → Core) : (updCore s k f).walks = s.walks := rfl
@[simp] theorem updCore_flights (s : State) (k : Nat) (f : Core → Core) : (updCore s k f).flights = s.flights := rfl
@[simp] theorem updCore_modRound (s : State) (k : Nat) (f : Core → Core) : (updCore s k f).modRound = s.modRound := rfl
@[simp] theorem updCore_modActive (s : State) (k : Nat) (f : Core → Core) : (updCore s k f).modActive = s.modActive := rfl
@[simp] theorem updCore_modSample (s : State) (k : Nat) (f : Core → Core) : (updCore s k f).modSample = s.modSample := rfl
@[simp] theorem updCore_host (s : State) (k : Nat) (f : Core → Core) : (updCore s k f).host = s.host := rfl
@[simp] theorem updCore_module (s : State) (k : Nat) (f : Core → Core) : (updCore s k f).module = s.module := rfl
@[simp] theorem updCore_lcs (s : State) (k : Nat) (f : Core → Core) : (updCore s k f).lcs = s.lcs := rfl
@[simp] theorem updCore_lcsNext (s : State) (k : Nat) (f : Core → Core) : (updCore s k f).lcsNext = s.lcsNext := rfl
@[simp] theorem updCore_wiping (s : State) (k : Nat) (f : Core → Core) : (updCore s k f).wiping = s.wiping := rfl
@[simp] theorem updCore_alarm (s : State) (k : Nat) (f : Core → Core) : (updCore s k f).alarm = s.alarm := rfl
@[simp] theorem updCore_dieBusy (s : State) (k : Nat) (f : Core → Core) : (updCore s k f).dieBusy = s.dieBusy := rfl
@[simp] theorem updCore_tlbVa (s : State) (k : Nat) (f : Core → Core) : (updCore s k f).tlbVa = s.tlbVa := rfl
@[simp] theorem updCore_tlbDies (s : State) (k : Nat) (f : Core → Core) : (updCore s k f).tlbDies = s.tlbDies := rfl
@[simp] theorem updCore_tlbMode (s : State) (k : Nat) (f : Core → Core) : (updCore s k f).tlbMode = s.tlbMode := rfl
@[simp] theorem updCore_tlbBusy (s : State) (k : Nat) (f : Core → Core) : (updCore s k f).tlbBusy = s.tlbBusy := rfl
@[simp] theorem updCore_launch (s : State) (k : Nat) (f : Core → Core) : (updCore s k f).launch = s.launch := rfl
@[simp] theorem updCore_lastServed (s : State) (k : Nat) (f : Core → Core) : (updCore s k f).lastServed = s.lastServed := rfl
@[simp] theorem updCore_funcs (s : State) (k : Nat) (f : Core → Core) : (updCore s k f).funcs = s.funcs := rfl
@[simp] theorem updCore_ports (s : State) (k : Nat) (f : Core → Core) : (updCore s k f).ports = s.ports := rfl
@[simp] theorem updCore_acl (s : State) (k : Nat) (f : Core → Core) : (updCore s k f).acl = s.acl := rfl
@[simp] theorem updCore_powerLimit (s : State) (k : Nat) (f : Core → Core) : (updCore s k f).powerLimit = s.powerLimit := rfl
@[simp] theorem updCore_below (s : State) (k : Nat) (f : Core → Core) : (updCore s k f).below = s.below := rfl
@[simp] theorem updCore_clock (s : State) (k : Nat) (f : Core → Core) : (updCore s k f).clock = s.clock := rfl
@[simp] theorem updCore_clockNext (s : State) (k : Nat) (f : Core → Core) : (updCore s k f).clockNext = s.clockNext := rfl
@[simp] theorem updCore_clockWait (s : State) (k : Nat) (f : Core → Core) : (updCore s k f).clockWait = s.clockWait := rfl
@[simp] theorem updCore_flash (s : State) (k : Nat) (f : Core → Core) : (updCore s k f).flash = s.flash := rfl
@[simp] theorem updCore_booted (s : State) (k : Nat) (f : Core → Core) : (updCore s k f).booted = s.booted := rfl
@[simp] theorem updCore_measure (s : State) (k : Nat) (f : Core → Core) : (updCore s k f).measure = s.measure := rfl
@[simp] theorem updCore_reply (s : State) (k : Nat) (f : Core → Core) : (updCore s k f).reply = s.reply := rfl

/-! updSlot. -/

@[simp] theorem updSlot_cycle (s : State) (k i : Nat) (f : Slot → Slot) : (updSlot s k i f).cycle = s.cycle := rfl
@[simp] theorem updSlot_agenda (s : State) (k i : Nat) (f : Slot → Slot) : (updSlot s k i f).agenda = s.agenda := rfl
@[simp] theorem updSlot_turn (s : State) (k i : Nat) (f : Slot → Slot) : (updSlot s k i f).turn = s.turn := rfl
@[simp] theorem updSlot_cur (s : State) (k i : Nat) (f : Slot → Slot) : (updSlot s k i f).cur = s.cur := rfl
@[simp] theorem updSlot_args (s : State) (k i : Nat) (f : Slot → Slot) : (updSlot s k i f).args = s.args := rfl
@[simp] theorem updSlot_free (s : State) (k i : Nat) (f : Slot → Slot) : (updSlot s k i f).free = s.free := rfl
@[simp] theorem updSlot_nextId (s : State) (k i : Nat) (f : Slot → Slot) : (updSlot s k i f).nextId = s.nextId := rfl
@[simp] theorem updSlot_protos (s : State) (k i : Nat) (f : Slot → Slot) : (updSlot s k i f).protos = s.protos := rfl
@[simp] theorem updSlot_rods (s : State) (k i : Nat) (f : Slot → Slot) : (updSlot s k i f).rods = s.rods := rfl
@[simp] theorem updSlot_frames (s : State) (k i : Nat) (f : Slot → Slot) : (updSlot s k i f).frames = s.frames := rfl
@[simp] theorem updSlot_dies (s : State) (k i : Nat) (f : Slot → Slot) : (updSlot s k i f).dies = s.dies := rfl
@[simp] theorem updSlot_domains (s : State) (k i : Nat) (f : Slot → Slot) : (updSlot s k i f).domains = s.domains := rfl
@[simp] theorem updSlot_dram (s : State) (k i : Nat) (f : Slot → Slot) : (updSlot s k i f).dram = s.dram := rfl
@[simp] theorem updSlot_homes (s : State) (k i : Nat) (f : Slot → Slot) : (updSlot s k i f).homes = s.homes := rfl
@[simp] theorem updSlot_llc (s : State) (k i : Nat) (f : Slot → Slot) : (updSlot s k i f).llc = s.llc := rfl
@[simp] theorem updSlot_msgs (s : State) (k i : Nat) (f : Slot → Slot) : (updSlot s k i f).msgs = s.msgs := rfl
@[simp] theorem updSlot_accs (s : State) (k i : Nat) (f : Slot → Slot) : (updSlot s k i f).accs = s.accs := rfl
@[simp] theorem updSlot_walks (s : State) (k i : Nat) (f : Slot → Slot) : (updSlot s k i f).walks = s.walks := rfl
@[simp] theorem updSlot_flights (s : State) (k i : Nat) (f : Slot → Slot) : (updSlot s k i f).flights = s.flights := rfl
@[simp] theorem updSlot_modRound (s : State) (k i : Nat) (f : Slot → Slot) : (updSlot s k i f).modRound = s.modRound := rfl
@[simp] theorem updSlot_modActive (s : State) (k i : Nat) (f : Slot → Slot) : (updSlot s k i f).modActive = s.modActive := rfl
@[simp] theorem updSlot_modSample (s : State) (k i : Nat) (f : Slot → Slot) : (updSlot s k i f).modSample = s.modSample := rfl
@[simp] theorem updSlot_host (s : State) (k i : Nat) (f : Slot → Slot) : (updSlot s k i f).host = s.host := rfl
@[simp] theorem updSlot_module (s : State) (k i : Nat) (f : Slot → Slot) : (updSlot s k i f).module = s.module := rfl
@[simp] theorem updSlot_lcs (s : State) (k i : Nat) (f : Slot → Slot) : (updSlot s k i f).lcs = s.lcs := rfl
@[simp] theorem updSlot_lcsNext (s : State) (k i : Nat) (f : Slot → Slot) : (updSlot s k i f).lcsNext = s.lcsNext := rfl
@[simp] theorem updSlot_wiping (s : State) (k i : Nat) (f : Slot → Slot) : (updSlot s k i f).wiping = s.wiping := rfl
@[simp] theorem updSlot_alarm (s : State) (k i : Nat) (f : Slot → Slot) : (updSlot s k i f).alarm = s.alarm := rfl
@[simp] theorem updSlot_dieBusy (s : State) (k i : Nat) (f : Slot → Slot) : (updSlot s k i f).dieBusy = s.dieBusy := rfl
@[simp] theorem updSlot_tlbVa (s : State) (k i : Nat) (f : Slot → Slot) : (updSlot s k i f).tlbVa = s.tlbVa := rfl
@[simp] theorem updSlot_tlbDies (s : State) (k i : Nat) (f : Slot → Slot) : (updSlot s k i f).tlbDies = s.tlbDies := rfl
@[simp] theorem updSlot_tlbMode (s : State) (k i : Nat) (f : Slot → Slot) : (updSlot s k i f).tlbMode = s.tlbMode := rfl
@[simp] theorem updSlot_tlbBusy (s : State) (k i : Nat) (f : Slot → Slot) : (updSlot s k i f).tlbBusy = s.tlbBusy := rfl
@[simp] theorem updSlot_launch (s : State) (k i : Nat) (f : Slot → Slot) : (updSlot s k i f).launch = s.launch := rfl
@[simp] theorem updSlot_lastServed (s : State) (k i : Nat) (f : Slot → Slot) : (updSlot s k i f).lastServed = s.lastServed := rfl
@[simp] theorem updSlot_funcs (s : State) (k i : Nat) (f : Slot → Slot) : (updSlot s k i f).funcs = s.funcs := rfl
@[simp] theorem updSlot_ports (s : State) (k i : Nat) (f : Slot → Slot) : (updSlot s k i f).ports = s.ports := rfl
@[simp] theorem updSlot_acl (s : State) (k i : Nat) (f : Slot → Slot) : (updSlot s k i f).acl = s.acl := rfl
@[simp] theorem updSlot_powerLimit (s : State) (k i : Nat) (f : Slot → Slot) : (updSlot s k i f).powerLimit = s.powerLimit := rfl
@[simp] theorem updSlot_below (s : State) (k i : Nat) (f : Slot → Slot) : (updSlot s k i f).below = s.below := rfl
@[simp] theorem updSlot_clock (s : State) (k i : Nat) (f : Slot → Slot) : (updSlot s k i f).clock = s.clock := rfl
@[simp] theorem updSlot_clockNext (s : State) (k i : Nat) (f : Slot → Slot) : (updSlot s k i f).clockNext = s.clockNext := rfl
@[simp] theorem updSlot_clockWait (s : State) (k i : Nat) (f : Slot → Slot) : (updSlot s k i f).clockWait = s.clockWait := rfl
@[simp] theorem updSlot_flash (s : State) (k i : Nat) (f : Slot → Slot) : (updSlot s k i f).flash = s.flash := rfl
@[simp] theorem updSlot_booted (s : State) (k i : Nat) (f : Slot → Slot) : (updSlot s k i f).booted = s.booted := rfl
@[simp] theorem updSlot_measure (s : State) (k i : Nat) (f : Slot → Slot) : (updSlot s k i f).measure = s.measure := rfl
@[simp] theorem updSlot_reply (s : State) (k i : Nat) (f : Slot → Slot) : (updSlot s k i f).reply = s.reply := rfl

/-! updRod. -/

@[simp] theorem updRod_cycle (s : State) (r : Nat) (f : Rod → Rod) : (updRod s r f).cycle = s.cycle := rfl
@[simp] theorem updRod_agenda (s : State) (r : Nat) (f : Rod → Rod) : (updRod s r f).agenda = s.agenda := rfl
@[simp] theorem updRod_turn (s : State) (r : Nat) (f : Rod → Rod) : (updRod s r f).turn = s.turn := rfl
@[simp] theorem updRod_cur (s : State) (r : Nat) (f : Rod → Rod) : (updRod s r f).cur = s.cur := rfl
@[simp] theorem updRod_args (s : State) (r : Nat) (f : Rod → Rod) : (updRod s r f).args = s.args := rfl
@[simp] theorem updRod_free (s : State) (r : Nat) (f : Rod → Rod) : (updRod s r f).free = s.free := rfl
@[simp] theorem updRod_nextId (s : State) (r : Nat) (f : Rod → Rod) : (updRod s r f).nextId = s.nextId := rfl
@[simp] theorem updRod_cores (s : State) (r : Nat) (f : Rod → Rod) : (updRod s r f).cores = s.cores := rfl
@[simp] theorem updRod_protos (s : State) (r : Nat) (f : Rod → Rod) : (updRod s r f).protos = s.protos := rfl
@[simp] theorem updRod_frames (s : State) (r : Nat) (f : Rod → Rod) : (updRod s r f).frames = s.frames := rfl
@[simp] theorem updRod_dies (s : State) (r : Nat) (f : Rod → Rod) : (updRod s r f).dies = s.dies := rfl
@[simp] theorem updRod_domains (s : State) (r : Nat) (f : Rod → Rod) : (updRod s r f).domains = s.domains := rfl
@[simp] theorem updRod_dram (s : State) (r : Nat) (f : Rod → Rod) : (updRod s r f).dram = s.dram := rfl
@[simp] theorem updRod_homes (s : State) (r : Nat) (f : Rod → Rod) : (updRod s r f).homes = s.homes := rfl
@[simp] theorem updRod_llc (s : State) (r : Nat) (f : Rod → Rod) : (updRod s r f).llc = s.llc := rfl
@[simp] theorem updRod_msgs (s : State) (r : Nat) (f : Rod → Rod) : (updRod s r f).msgs = s.msgs := rfl
@[simp] theorem updRod_accs (s : State) (r : Nat) (f : Rod → Rod) : (updRod s r f).accs = s.accs := rfl
@[simp] theorem updRod_walks (s : State) (r : Nat) (f : Rod → Rod) : (updRod s r f).walks = s.walks := rfl
@[simp] theorem updRod_flights (s : State) (r : Nat) (f : Rod → Rod) : (updRod s r f).flights = s.flights := rfl
@[simp] theorem updRod_modRound (s : State) (r : Nat) (f : Rod → Rod) : (updRod s r f).modRound = s.modRound := rfl
@[simp] theorem updRod_modActive (s : State) (r : Nat) (f : Rod → Rod) : (updRod s r f).modActive = s.modActive := rfl
@[simp] theorem updRod_modSample (s : State) (r : Nat) (f : Rod → Rod) : (updRod s r f).modSample = s.modSample := rfl
@[simp] theorem updRod_host (s : State) (r : Nat) (f : Rod → Rod) : (updRod s r f).host = s.host := rfl
@[simp] theorem updRod_module (s : State) (r : Nat) (f : Rod → Rod) : (updRod s r f).module = s.module := rfl
@[simp] theorem updRod_lcs (s : State) (r : Nat) (f : Rod → Rod) : (updRod s r f).lcs = s.lcs := rfl
@[simp] theorem updRod_lcsNext (s : State) (r : Nat) (f : Rod → Rod) : (updRod s r f).lcsNext = s.lcsNext := rfl
@[simp] theorem updRod_wiping (s : State) (r : Nat) (f : Rod → Rod) : (updRod s r f).wiping = s.wiping := rfl
@[simp] theorem updRod_alarm (s : State) (r : Nat) (f : Rod → Rod) : (updRod s r f).alarm = s.alarm := rfl
@[simp] theorem updRod_dieBusy (s : State) (r : Nat) (f : Rod → Rod) : (updRod s r f).dieBusy = s.dieBusy := rfl
@[simp] theorem updRod_tlbVa (s : State) (r : Nat) (f : Rod → Rod) : (updRod s r f).tlbVa = s.tlbVa := rfl
@[simp] theorem updRod_tlbDies (s : State) (r : Nat) (f : Rod → Rod) : (updRod s r f).tlbDies = s.tlbDies := rfl
@[simp] theorem updRod_tlbMode (s : State) (r : Nat) (f : Rod → Rod) : (updRod s r f).tlbMode = s.tlbMode := rfl
@[simp] theorem updRod_tlbBusy (s : State) (r : Nat) (f : Rod → Rod) : (updRod s r f).tlbBusy = s.tlbBusy := rfl
@[simp] theorem updRod_launch (s : State) (r : Nat) (f : Rod → Rod) : (updRod s r f).launch = s.launch := rfl
@[simp] theorem updRod_lastServed (s : State) (r : Nat) (f : Rod → Rod) : (updRod s r f).lastServed = s.lastServed := rfl
@[simp] theorem updRod_funcs (s : State) (r : Nat) (f : Rod → Rod) : (updRod s r f).funcs = s.funcs := rfl
@[simp] theorem updRod_ports (s : State) (r : Nat) (f : Rod → Rod) : (updRod s r f).ports = s.ports := rfl
@[simp] theorem updRod_acl (s : State) (r : Nat) (f : Rod → Rod) : (updRod s r f).acl = s.acl := rfl
@[simp] theorem updRod_powerLimit (s : State) (r : Nat) (f : Rod → Rod) : (updRod s r f).powerLimit = s.powerLimit := rfl
@[simp] theorem updRod_below (s : State) (r : Nat) (f : Rod → Rod) : (updRod s r f).below = s.below := rfl
@[simp] theorem updRod_clock (s : State) (r : Nat) (f : Rod → Rod) : (updRod s r f).clock = s.clock := rfl
@[simp] theorem updRod_clockNext (s : State) (r : Nat) (f : Rod → Rod) : (updRod s r f).clockNext = s.clockNext := rfl
@[simp] theorem updRod_clockWait (s : State) (r : Nat) (f : Rod → Rod) : (updRod s r f).clockWait = s.clockWait := rfl
@[simp] theorem updRod_flash (s : State) (r : Nat) (f : Rod → Rod) : (updRod s r f).flash = s.flash := rfl
@[simp] theorem updRod_booted (s : State) (r : Nat) (f : Rod → Rod) : (updRod s r f).booted = s.booted := rfl
@[simp] theorem updRod_measure (s : State) (r : Nat) (f : Rod → Rod) : (updRod s r f).measure = s.measure := rfl
@[simp] theorem updRod_reply (s : State) (r : Nat) (f : Rod → Rod) : (updRod s r f).reply = s.reply := rfl

/-! updDie. -/

@[simp] theorem updDie_cycle (s : State) (d : Nat) (f : Die → Die) : (updDie s d f).cycle = s.cycle := rfl
@[simp] theorem updDie_agenda (s : State) (d : Nat) (f : Die → Die) : (updDie s d f).agenda = s.agenda := rfl
@[simp] theorem updDie_turn (s : State) (d : Nat) (f : Die → Die) : (updDie s d f).turn = s.turn := rfl
@[simp] theorem updDie_cur (s : State) (d : Nat) (f : Die → Die) : (updDie s d f).cur = s.cur := rfl
@[simp] theorem updDie_args (s : State) (d : Nat) (f : Die → Die) : (updDie s d f).args = s.args := rfl
@[simp] theorem updDie_free (s : State) (d : Nat) (f : Die → Die) : (updDie s d f).free = s.free := rfl
@[simp] theorem updDie_nextId (s : State) (d : Nat) (f : Die → Die) : (updDie s d f).nextId = s.nextId := rfl
@[simp] theorem updDie_cores (s : State) (d : Nat) (f : Die → Die) : (updDie s d f).cores = s.cores := rfl
@[simp] theorem updDie_protos (s : State) (d : Nat) (f : Die → Die) : (updDie s d f).protos = s.protos := rfl
@[simp] theorem updDie_rods (s : State) (d : Nat) (f : Die → Die) : (updDie s d f).rods = s.rods := rfl
@[simp] theorem updDie_frames (s : State) (d : Nat) (f : Die → Die) : (updDie s d f).frames = s.frames := rfl
@[simp] theorem updDie_domains (s : State) (d : Nat) (f : Die → Die) : (updDie s d f).domains = s.domains := rfl
@[simp] theorem updDie_dram (s : State) (d : Nat) (f : Die → Die) : (updDie s d f).dram = s.dram := rfl
@[simp] theorem updDie_homes (s : State) (d : Nat) (f : Die → Die) : (updDie s d f).homes = s.homes := rfl
@[simp] theorem updDie_llc (s : State) (d : Nat) (f : Die → Die) : (updDie s d f).llc = s.llc := rfl
@[simp] theorem updDie_msgs (s : State) (d : Nat) (f : Die → Die) : (updDie s d f).msgs = s.msgs := rfl
@[simp] theorem updDie_accs (s : State) (d : Nat) (f : Die → Die) : (updDie s d f).accs = s.accs := rfl
@[simp] theorem updDie_walks (s : State) (d : Nat) (f : Die → Die) : (updDie s d f).walks = s.walks := rfl
@[simp] theorem updDie_flights (s : State) (d : Nat) (f : Die → Die) : (updDie s d f).flights = s.flights := rfl
@[simp] theorem updDie_modRound (s : State) (d : Nat) (f : Die → Die) : (updDie s d f).modRound = s.modRound := rfl
@[simp] theorem updDie_modActive (s : State) (d : Nat) (f : Die → Die) : (updDie s d f).modActive = s.modActive := rfl
@[simp] theorem updDie_modSample (s : State) (d : Nat) (f : Die → Die) : (updDie s d f).modSample = s.modSample := rfl
@[simp] theorem updDie_host (s : State) (d : Nat) (f : Die → Die) : (updDie s d f).host = s.host := rfl
@[simp] theorem updDie_module (s : State) (d : Nat) (f : Die → Die) : (updDie s d f).module = s.module := rfl
@[simp] theorem updDie_lcs (s : State) (d : Nat) (f : Die → Die) : (updDie s d f).lcs = s.lcs := rfl
@[simp] theorem updDie_lcsNext (s : State) (d : Nat) (f : Die → Die) : (updDie s d f).lcsNext = s.lcsNext := rfl
@[simp] theorem updDie_wiping (s : State) (d : Nat) (f : Die → Die) : (updDie s d f).wiping = s.wiping := rfl
@[simp] theorem updDie_alarm (s : State) (d : Nat) (f : Die → Die) : (updDie s d f).alarm = s.alarm := rfl
@[simp] theorem updDie_dieBusy (s : State) (d : Nat) (f : Die → Die) : (updDie s d f).dieBusy = s.dieBusy := rfl
@[simp] theorem updDie_tlbVa (s : State) (d : Nat) (f : Die → Die) : (updDie s d f).tlbVa = s.tlbVa := rfl
@[simp] theorem updDie_tlbDies (s : State) (d : Nat) (f : Die → Die) : (updDie s d f).tlbDies = s.tlbDies := rfl
@[simp] theorem updDie_tlbMode (s : State) (d : Nat) (f : Die → Die) : (updDie s d f).tlbMode = s.tlbMode := rfl
@[simp] theorem updDie_tlbBusy (s : State) (d : Nat) (f : Die → Die) : (updDie s d f).tlbBusy = s.tlbBusy := rfl
@[simp] theorem updDie_launch (s : State) (d : Nat) (f : Die → Die) : (updDie s d f).launch = s.launch := rfl
@[simp] theorem updDie_lastServed (s : State) (d : Nat) (f : Die → Die) : (updDie s d f).lastServed = s.lastServed := rfl
@[simp] theorem updDie_funcs (s : State) (d : Nat) (f : Die → Die) : (updDie s d f).funcs = s.funcs := rfl
@[simp] theorem updDie_ports (s : State) (d : Nat) (f : Die → Die) : (updDie s d f).ports = s.ports := rfl
@[simp] theorem updDie_acl (s : State) (d : Nat) (f : Die → Die) : (updDie s d f).acl = s.acl := rfl
@[simp] theorem updDie_powerLimit (s : State) (d : Nat) (f : Die → Die) : (updDie s d f).powerLimit = s.powerLimit := rfl
@[simp] theorem updDie_below (s : State) (d : Nat) (f : Die → Die) : (updDie s d f).below = s.below := rfl
@[simp] theorem updDie_clock (s : State) (d : Nat) (f : Die → Die) : (updDie s d f).clock = s.clock := rfl
@[simp] theorem updDie_clockNext (s : State) (d : Nat) (f : Die → Die) : (updDie s d f).clockNext = s.clockNext := rfl
@[simp] theorem updDie_clockWait (s : State) (d : Nat) (f : Die → Die) : (updDie s d f).clockWait = s.clockWait := rfl
@[simp] theorem updDie_flash (s : State) (d : Nat) (f : Die → Die) : (updDie s d f).flash = s.flash := rfl
@[simp] theorem updDie_booted (s : State) (d : Nat) (f : Die → Die) : (updDie s d f).booted = s.booted := rfl
@[simp] theorem updDie_measure (s : State) (d : Nat) (f : Die → Die) : (updDie s d f).measure = s.measure := rfl
@[simp] theorem updDie_reply (s : State) (d : Nat) (f : Die → Die) : (updDie s d f).reply = s.reply := rfl

/-! updDom. -/

@[simp] theorem updDom_cycle (s : State) (m : Nat) (f : Domain → Domain) : (updDom s m f).cycle = s.cycle := rfl
@[simp] theorem updDom_agenda (s : State) (m : Nat) (f : Domain → Domain) : (updDom s m f).agenda = s.agenda := rfl
@[simp] theorem updDom_turn (s : State) (m : Nat) (f : Domain → Domain) : (updDom s m f).turn = s.turn := rfl
@[simp] theorem updDom_cur (s : State) (m : Nat) (f : Domain → Domain) : (updDom s m f).cur = s.cur := rfl
@[simp] theorem updDom_args (s : State) (m : Nat) (f : Domain → Domain) : (updDom s m f).args = s.args := rfl
@[simp] theorem updDom_free (s : State) (m : Nat) (f : Domain → Domain) : (updDom s m f).free = s.free := rfl
@[simp] theorem updDom_nextId (s : State) (m : Nat) (f : Domain → Domain) : (updDom s m f).nextId = s.nextId := rfl
@[simp] theorem updDom_cores (s : State) (m : Nat) (f : Domain → Domain) : (updDom s m f).cores = s.cores := rfl
@[simp] theorem updDom_protos (s : State) (m : Nat) (f : Domain → Domain) : (updDom s m f).protos = s.protos := rfl
@[simp] theorem updDom_rods (s : State) (m : Nat) (f : Domain → Domain) : (updDom s m f).rods = s.rods := rfl
@[simp] theorem updDom_frames (s : State) (m : Nat) (f : Domain → Domain) : (updDom s m f).frames = s.frames := rfl
@[simp] theorem updDom_dies (s : State) (m : Nat) (f : Domain → Domain) : (updDom s m f).dies = s.dies := rfl
@[simp] theorem updDom_dram (s : State) (m : Nat) (f : Domain → Domain) : (updDom s m f).dram = s.dram := rfl
@[simp] theorem updDom_homes (s : State) (m : Nat) (f : Domain → Domain) : (updDom s m f).homes = s.homes := rfl
@[simp] theorem updDom_llc (s : State) (m : Nat) (f : Domain → Domain) : (updDom s m f).llc = s.llc := rfl
@[simp] theorem updDom_msgs (s : State) (m : Nat) (f : Domain → Domain) : (updDom s m f).msgs = s.msgs := rfl
@[simp] theorem updDom_accs (s : State) (m : Nat) (f : Domain → Domain) : (updDom s m f).accs = s.accs := rfl
@[simp] theorem updDom_walks (s : State) (m : Nat) (f : Domain → Domain) : (updDom s m f).walks = s.walks := rfl
@[simp] theorem updDom_flights (s : State) (m : Nat) (f : Domain → Domain) : (updDom s m f).flights = s.flights := rfl
@[simp] theorem updDom_modRound (s : State) (m : Nat) (f : Domain → Domain) : (updDom s m f).modRound = s.modRound := rfl
@[simp] theorem updDom_modActive (s : State) (m : Nat) (f : Domain → Domain) : (updDom s m f).modActive = s.modActive := rfl
@[simp] theorem updDom_modSample (s : State) (m : Nat) (f : Domain → Domain) : (updDom s m f).modSample = s.modSample := rfl
@[simp] theorem updDom_host (s : State) (m : Nat) (f : Domain → Domain) : (updDom s m f).host = s.host := rfl
@[simp] theorem updDom_module (s : State) (m : Nat) (f : Domain → Domain) : (updDom s m f).module = s.module := rfl
@[simp] theorem updDom_lcs (s : State) (m : Nat) (f : Domain → Domain) : (updDom s m f).lcs = s.lcs := rfl
@[simp] theorem updDom_lcsNext (s : State) (m : Nat) (f : Domain → Domain) : (updDom s m f).lcsNext = s.lcsNext := rfl
@[simp] theorem updDom_wiping (s : State) (m : Nat) (f : Domain → Domain) : (updDom s m f).wiping = s.wiping := rfl
@[simp] theorem updDom_alarm (s : State) (m : Nat) (f : Domain → Domain) : (updDom s m f).alarm = s.alarm := rfl
@[simp] theorem updDom_dieBusy (s : State) (m : Nat) (f : Domain → Domain) : (updDom s m f).dieBusy = s.dieBusy := rfl
@[simp] theorem updDom_tlbVa (s : State) (m : Nat) (f : Domain → Domain) : (updDom s m f).tlbVa = s.tlbVa := rfl
@[simp] theorem updDom_tlbDies (s : State) (m : Nat) (f : Domain → Domain) : (updDom s m f).tlbDies = s.tlbDies := rfl
@[simp] theorem updDom_tlbMode (s : State) (m : Nat) (f : Domain → Domain) : (updDom s m f).tlbMode = s.tlbMode := rfl
@[simp] theorem updDom_tlbBusy (s : State) (m : Nat) (f : Domain → Domain) : (updDom s m f).tlbBusy = s.tlbBusy := rfl
@[simp] theorem updDom_launch (s : State) (m : Nat) (f : Domain → Domain) : (updDom s m f).launch = s.launch := rfl
@[simp] theorem updDom_lastServed (s : State) (m : Nat) (f : Domain → Domain) : (updDom s m f).lastServed = s.lastServed := rfl
@[simp] theorem updDom_funcs (s : State) (m : Nat) (f : Domain → Domain) : (updDom s m f).funcs = s.funcs := rfl
@[simp] theorem updDom_ports (s : State) (m : Nat) (f : Domain → Domain) : (updDom s m f).ports = s.ports := rfl
@[simp] theorem updDom_acl (s : State) (m : Nat) (f : Domain → Domain) : (updDom s m f).acl = s.acl := rfl
@[simp] theorem updDom_powerLimit (s : State) (m : Nat) (f : Domain → Domain) : (updDom s m f).powerLimit = s.powerLimit := rfl
@[simp] theorem updDom_below (s : State) (m : Nat) (f : Domain → Domain) : (updDom s m f).below = s.below := rfl
@[simp] theorem updDom_clock (s : State) (m : Nat) (f : Domain → Domain) : (updDom s m f).clock = s.clock := rfl
@[simp] theorem updDom_clockNext (s : State) (m : Nat) (f : Domain → Domain) : (updDom s m f).clockNext = s.clockNext := rfl
@[simp] theorem updDom_clockWait (s : State) (m : Nat) (f : Domain → Domain) : (updDom s m f).clockWait = s.clockWait := rfl
@[simp] theorem updDom_flash (s : State) (m : Nat) (f : Domain → Domain) : (updDom s m f).flash = s.flash := rfl
@[simp] theorem updDom_booted (s : State) (m : Nat) (f : Domain → Domain) : (updDom s m f).booted = s.booted := rfl
@[simp] theorem updDom_measure (s : State) (m : Nat) (f : Domain → Domain) : (updDom s m f).measure = s.measure := rfl
@[simp] theorem updDom_reply (s : State) (m : Nat) (f : Domain → Domain) : (updDom s m f).reply = s.reply := rfl

/-! push. -/

@[simp] theorem push_cycle (e : Entry) (s : State) : (push e s).cycle = s.cycle := rfl
@[simp] theorem push_turn (e : Entry) (s : State) : (push e s).turn = s.turn := rfl
@[simp] theorem push_cur (e : Entry) (s : State) : (push e s).cur = s.cur := rfl
@[simp] theorem push_args (e : Entry) (s : State) : (push e s).args = s.args := rfl
@[simp] theorem push_free (e : Entry) (s : State) : (push e s).free = s.free := rfl
@[simp] theorem push_nextId (e : Entry) (s : State) : (push e s).nextId = s.nextId := rfl
@[simp] theorem push_cores (e : Entry) (s : State) : (push e s).cores = s.cores := rfl
@[simp] theorem push_protos (e : Entry) (s : State) : (push e s).protos = s.protos := rfl
@[simp] theorem push_rods (e : Entry) (s : State) : (push e s).rods = s.rods := rfl
@[simp] theorem push_frames (e : Entry) (s : State) : (push e s).frames = s.frames := rfl
@[simp] theorem push_dies (e : Entry) (s : State) : (push e s).dies = s.dies := rfl
@[simp] theorem push_domains (e : Entry) (s : State) : (push e s).domains = s.domains := rfl
@[simp] theorem push_dram (e : Entry) (s : State) : (push e s).dram = s.dram := rfl
@[simp] theorem push_homes (e : Entry) (s : State) : (push e s).homes = s.homes := rfl
@[simp] theorem push_llc (e : Entry) (s : State) : (push e s).llc = s.llc := rfl
@[simp] theorem push_msgs (e : Entry) (s : State) : (push e s).msgs = s.msgs := rfl
@[simp] theorem push_accs (e : Entry) (s : State) : (push e s).accs = s.accs := rfl
@[simp] theorem push_walks (e : Entry) (s : State) : (push e s).walks = s.walks := rfl
@[simp] theorem push_flights (e : Entry) (s : State) : (push e s).flights = s.flights := rfl
@[simp] theorem push_modRound (e : Entry) (s : State) : (push e s).modRound = s.modRound := rfl
@[simp] theorem push_modActive (e : Entry) (s : State) : (push e s).modActive = s.modActive := rfl
@[simp] theorem push_modSample (e : Entry) (s : State) : (push e s).modSample = s.modSample := rfl
@[simp] theorem push_host (e : Entry) (s : State) : (push e s).host = s.host := rfl
@[simp] theorem push_module (e : Entry) (s : State) : (push e s).module = s.module := rfl
@[simp] theorem push_lcs (e : Entry) (s : State) : (push e s).lcs = s.lcs := rfl
@[simp] theorem push_lcsNext (e : Entry) (s : State) : (push e s).lcsNext = s.lcsNext := rfl
@[simp] theorem push_wiping (e : Entry) (s : State) : (push e s).wiping = s.wiping := rfl
@[simp] theorem push_alarm (e : Entry) (s : State) : (push e s).alarm = s.alarm := rfl
@[simp] theorem push_dieBusy (e : Entry) (s : State) : (push e s).dieBusy = s.dieBusy := rfl
@[simp] theorem push_tlbVa (e : Entry) (s : State) : (push e s).tlbVa = s.tlbVa := rfl
@[simp] theorem push_tlbDies (e : Entry) (s : State) : (push e s).tlbDies = s.tlbDies := rfl
@[simp] theorem push_tlbMode (e : Entry) (s : State) : (push e s).tlbMode = s.tlbMode := rfl
@[simp] theorem push_tlbBusy (e : Entry) (s : State) : (push e s).tlbBusy = s.tlbBusy := rfl
@[simp] theorem push_launch (e : Entry) (s : State) : (push e s).launch = s.launch := rfl
@[simp] theorem push_lastServed (e : Entry) (s : State) : (push e s).lastServed = s.lastServed := rfl
@[simp] theorem push_funcs (e : Entry) (s : State) : (push e s).funcs = s.funcs := rfl
@[simp] theorem push_ports (e : Entry) (s : State) : (push e s).ports = s.ports := rfl
@[simp] theorem push_acl (e : Entry) (s : State) : (push e s).acl = s.acl := rfl
@[simp] theorem push_powerLimit (e : Entry) (s : State) : (push e s).powerLimit = s.powerLimit := rfl
@[simp] theorem push_below (e : Entry) (s : State) : (push e s).below = s.below := rfl
@[simp] theorem push_clock (e : Entry) (s : State) : (push e s).clock = s.clock := rfl
@[simp] theorem push_clockNext (e : Entry) (s : State) : (push e s).clockNext = s.clockNext := rfl
@[simp] theorem push_clockWait (e : Entry) (s : State) : (push e s).clockWait = s.clockWait := rfl
@[simp] theorem push_flash (e : Entry) (s : State) : (push e s).flash = s.flash := rfl
@[simp] theorem push_booted (e : Entry) (s : State) : (push e s).booted = s.booted := rfl
@[simp] theorem push_measure (e : Entry) (s : State) : (push e s).measure = s.measure := rfl
@[simp] theorem push_reply (e : Entry) (s : State) : (push e s).reply = s.reply := rfl

/-! pushAt. -/

@[simp] theorem pushAt_cycle (n p i : Nat) (it : Item) (s : State) : (pushAt n p i it s).cycle = s.cycle := rfl
@[simp] theorem pushAt_turn (n p i : Nat) (it : Item) (s : State) : (pushAt n p i it s).turn = s.turn := rfl
@[simp] theorem pushAt_cur (n p i : Nat) (it : Item) (s : State) : (pushAt n p i it s).cur = s.cur := rfl
@[simp] theorem pushAt_args (n p i : Nat) (it : Item) (s : State) : (pushAt n p i it s).args = s.args := rfl
@[simp] theorem pushAt_free (n p i : Nat) (it : Item) (s : State) : (pushAt n p i it s).free = s.free := rfl
@[simp] theorem pushAt_nextId (n p i : Nat) (it : Item) (s : State) : (pushAt n p i it s).nextId = s.nextId := rfl
@[simp] theorem pushAt_cores (n p i : Nat) (it : Item) (s : State) : (pushAt n p i it s).cores = s.cores := rfl
@[simp] theorem pushAt_protos (n p i : Nat) (it : Item) (s : State) : (pushAt n p i it s).protos = s.protos := rfl
@[simp] theorem pushAt_rods (n p i : Nat) (it : Item) (s : State) : (pushAt n p i it s).rods = s.rods := rfl
@[simp] theorem pushAt_frames (n p i : Nat) (it : Item) (s : State) : (pushAt n p i it s).frames = s.frames := rfl
@[simp] theorem pushAt_dies (n p i : Nat) (it : Item) (s : State) : (pushAt n p i it s).dies = s.dies := rfl
@[simp] theorem pushAt_domains (n p i : Nat) (it : Item) (s : State) : (pushAt n p i it s).domains = s.domains := rfl
@[simp] theorem pushAt_dram (n p i : Nat) (it : Item) (s : State) : (pushAt n p i it s).dram = s.dram := rfl
@[simp] theorem pushAt_homes (n p i : Nat) (it : Item) (s : State) : (pushAt n p i it s).homes = s.homes := rfl
@[simp] theorem pushAt_llc (n p i : Nat) (it : Item) (s : State) : (pushAt n p i it s).llc = s.llc := rfl
@[simp] theorem pushAt_msgs (n p i : Nat) (it : Item) (s : State) : (pushAt n p i it s).msgs = s.msgs := rfl
@[simp] theorem pushAt_accs (n p i : Nat) (it : Item) (s : State) : (pushAt n p i it s).accs = s.accs := rfl
@[simp] theorem pushAt_walks (n p i : Nat) (it : Item) (s : State) : (pushAt n p i it s).walks = s.walks := rfl
@[simp] theorem pushAt_flights (n p i : Nat) (it : Item) (s : State) : (pushAt n p i it s).flights = s.flights := rfl
@[simp] theorem pushAt_modRound (n p i : Nat) (it : Item) (s : State) : (pushAt n p i it s).modRound = s.modRound := rfl
@[simp] theorem pushAt_modActive (n p i : Nat) (it : Item) (s : State) : (pushAt n p i it s).modActive = s.modActive := rfl
@[simp] theorem pushAt_modSample (n p i : Nat) (it : Item) (s : State) : (pushAt n p i it s).modSample = s.modSample := rfl
@[simp] theorem pushAt_host (n p i : Nat) (it : Item) (s : State) : (pushAt n p i it s).host = s.host := rfl
@[simp] theorem pushAt_module (n p i : Nat) (it : Item) (s : State) : (pushAt n p i it s).module = s.module := rfl
@[simp] theorem pushAt_lcs (n p i : Nat) (it : Item) (s : State) : (pushAt n p i it s).lcs = s.lcs := rfl
@[simp] theorem pushAt_lcsNext (n p i : Nat) (it : Item) (s : State) : (pushAt n p i it s).lcsNext = s.lcsNext := rfl
@[simp] theorem pushAt_wiping (n p i : Nat) (it : Item) (s : State) : (pushAt n p i it s).wiping = s.wiping := rfl
@[simp] theorem pushAt_alarm (n p i : Nat) (it : Item) (s : State) : (pushAt n p i it s).alarm = s.alarm := rfl
@[simp] theorem pushAt_dieBusy (n p i : Nat) (it : Item) (s : State) : (pushAt n p i it s).dieBusy = s.dieBusy := rfl
@[simp] theorem pushAt_tlbVa (n p i : Nat) (it : Item) (s : State) : (pushAt n p i it s).tlbVa = s.tlbVa := rfl
@[simp] theorem pushAt_tlbDies (n p i : Nat) (it : Item) (s : State) : (pushAt n p i it s).tlbDies = s.tlbDies := rfl
@[simp] theorem pushAt_tlbMode (n p i : Nat) (it : Item) (s : State) : (pushAt n p i it s).tlbMode = s.tlbMode := rfl
@[simp] theorem pushAt_tlbBusy (n p i : Nat) (it : Item) (s : State) : (pushAt n p i it s).tlbBusy = s.tlbBusy := rfl
@[simp] theorem pushAt_launch (n p i : Nat) (it : Item) (s : State) : (pushAt n p i it s).launch = s.launch := rfl
@[simp] theorem pushAt_lastServed (n p i : Nat) (it : Item) (s : State) : (pushAt n p i it s).lastServed = s.lastServed := rfl
@[simp] theorem pushAt_funcs (n p i : Nat) (it : Item) (s : State) : (pushAt n p i it s).funcs = s.funcs := rfl
@[simp] theorem pushAt_ports (n p i : Nat) (it : Item) (s : State) : (pushAt n p i it s).ports = s.ports := rfl
@[simp] theorem pushAt_acl (n p i : Nat) (it : Item) (s : State) : (pushAt n p i it s).acl = s.acl := rfl
@[simp] theorem pushAt_powerLimit (n p i : Nat) (it : Item) (s : State) : (pushAt n p i it s).powerLimit = s.powerLimit := rfl
@[simp] theorem pushAt_below (n p i : Nat) (it : Item) (s : State) : (pushAt n p i it s).below = s.below := rfl
@[simp] theorem pushAt_clock (n p i : Nat) (it : Item) (s : State) : (pushAt n p i it s).clock = s.clock := rfl
@[simp] theorem pushAt_clockNext (n p i : Nat) (it : Item) (s : State) : (pushAt n p i it s).clockNext = s.clockNext := rfl
@[simp] theorem pushAt_clockWait (n p i : Nat) (it : Item) (s : State) : (pushAt n p i it s).clockWait = s.clockWait := rfl
@[simp] theorem pushAt_flash (n p i : Nat) (it : Item) (s : State) : (pushAt n p i it s).flash = s.flash := rfl
@[simp] theorem pushAt_booted (n p i : Nat) (it : Item) (s : State) : (pushAt n p i it s).booted = s.booted := rfl
@[simp] theorem pushAt_measure (n p i : Nat) (it : Item) (s : State) : (pushAt n p i it s).measure = s.measure := rfl
@[simp] theorem pushAt_reply (n p i : Nat) (it : Item) (s : State) : (pushAt n p i it s).reply = s.reply := rfl

/-! evAt. -/

@[simp] theorem evAt_cycle (n p : Nat) (i : Instr) (x : Args) (s : State) : (evAt n p i x s).cycle = s.cycle := rfl
@[simp] theorem evAt_turn (n p : Nat) (i : Instr) (x : Args) (s : State) : (evAt n p i x s).turn = s.turn := rfl
@[simp] theorem evAt_cur (n p : Nat) (i : Instr) (x : Args) (s : State) : (evAt n p i x s).cur = s.cur := rfl
@[simp] theorem evAt_args (n p : Nat) (i : Instr) (x : Args) (s : State) : (evAt n p i x s).args = s.args := rfl
@[simp] theorem evAt_free (n p : Nat) (i : Instr) (x : Args) (s : State) : (evAt n p i x s).free = s.free := rfl
@[simp] theorem evAt_nextId (n p : Nat) (i : Instr) (x : Args) (s : State) : (evAt n p i x s).nextId = s.nextId := rfl
@[simp] theorem evAt_cores (n p : Nat) (i : Instr) (x : Args) (s : State) : (evAt n p i x s).cores = s.cores := rfl
@[simp] theorem evAt_protos (n p : Nat) (i : Instr) (x : Args) (s : State) : (evAt n p i x s).protos = s.protos := rfl
@[simp] theorem evAt_rods (n p : Nat) (i : Instr) (x : Args) (s : State) : (evAt n p i x s).rods = s.rods := rfl
@[simp] theorem evAt_frames (n p : Nat) (i : Instr) (x : Args) (s : State) : (evAt n p i x s).frames = s.frames := rfl
@[simp] theorem evAt_dies (n p : Nat) (i : Instr) (x : Args) (s : State) : (evAt n p i x s).dies = s.dies := rfl
@[simp] theorem evAt_domains (n p : Nat) (i : Instr) (x : Args) (s : State) : (evAt n p i x s).domains = s.domains := rfl
@[simp] theorem evAt_dram (n p : Nat) (i : Instr) (x : Args) (s : State) : (evAt n p i x s).dram = s.dram := rfl
@[simp] theorem evAt_homes (n p : Nat) (i : Instr) (x : Args) (s : State) : (evAt n p i x s).homes = s.homes := rfl
@[simp] theorem evAt_llc (n p : Nat) (i : Instr) (x : Args) (s : State) : (evAt n p i x s).llc = s.llc := rfl
@[simp] theorem evAt_msgs (n p : Nat) (i : Instr) (x : Args) (s : State) : (evAt n p i x s).msgs = s.msgs := rfl
@[simp] theorem evAt_accs (n p : Nat) (i : Instr) (x : Args) (s : State) : (evAt n p i x s).accs = s.accs := rfl
@[simp] theorem evAt_walks (n p : Nat) (i : Instr) (x : Args) (s : State) : (evAt n p i x s).walks = s.walks := rfl
@[simp] theorem evAt_flights (n p : Nat) (i : Instr) (x : Args) (s : State) : (evAt n p i x s).flights = s.flights := rfl
@[simp] theorem evAt_modRound (n p : Nat) (i : Instr) (x : Args) (s : State) : (evAt n p i x s).modRound = s.modRound := rfl
@[simp] theorem evAt_modActive (n p : Nat) (i : Instr) (x : Args) (s : State) : (evAt n p i x s).modActive = s.modActive := rfl
@[simp] theorem evAt_modSample (n p : Nat) (i : Instr) (x : Args) (s : State) : (evAt n p i x s).modSample = s.modSample := rfl
@[simp] theorem evAt_host (n p : Nat) (i : Instr) (x : Args) (s : State) : (evAt n p i x s).host = s.host := rfl
@[simp] theorem evAt_module (n p : Nat) (i : Instr) (x : Args) (s : State) : (evAt n p i x s).module = s.module := rfl
@[simp] theorem evAt_lcs (n p : Nat) (i : Instr) (x : Args) (s : State) : (evAt n p i x s).lcs = s.lcs := rfl
@[simp] theorem evAt_lcsNext (n p : Nat) (i : Instr) (x : Args) (s : State) : (evAt n p i x s).lcsNext = s.lcsNext := rfl
@[simp] theorem evAt_wiping (n p : Nat) (i : Instr) (x : Args) (s : State) : (evAt n p i x s).wiping = s.wiping := rfl
@[simp] theorem evAt_alarm (n p : Nat) (i : Instr) (x : Args) (s : State) : (evAt n p i x s).alarm = s.alarm := rfl
@[simp] theorem evAt_dieBusy (n p : Nat) (i : Instr) (x : Args) (s : State) : (evAt n p i x s).dieBusy = s.dieBusy := rfl
@[simp] theorem evAt_tlbVa (n p : Nat) (i : Instr) (x : Args) (s : State) : (evAt n p i x s).tlbVa = s.tlbVa := rfl
@[simp] theorem evAt_tlbDies (n p : Nat) (i : Instr) (x : Args) (s : State) : (evAt n p i x s).tlbDies = s.tlbDies := rfl
@[simp] theorem evAt_tlbMode (n p : Nat) (i : Instr) (x : Args) (s : State) : (evAt n p i x s).tlbMode = s.tlbMode := rfl
@[simp] theorem evAt_tlbBusy (n p : Nat) (i : Instr) (x : Args) (s : State) : (evAt n p i x s).tlbBusy = s.tlbBusy := rfl
@[simp] theorem evAt_launch (n p : Nat) (i : Instr) (x : Args) (s : State) : (evAt n p i x s).launch = s.launch := rfl
@[simp] theorem evAt_lastServed (n p : Nat) (i : Instr) (x : Args) (s : State) : (evAt n p i x s).lastServed = s.lastServed := rfl
@[simp] theorem evAt_funcs (n p : Nat) (i : Instr) (x : Args) (s : State) : (evAt n p i x s).funcs = s.funcs := rfl
@[simp] theorem evAt_ports (n p : Nat) (i : Instr) (x : Args) (s : State) : (evAt n p i x s).ports = s.ports := rfl
@[simp] theorem evAt_acl (n p : Nat) (i : Instr) (x : Args) (s : State) : (evAt n p i x s).acl = s.acl := rfl
@[simp] theorem evAt_powerLimit (n p : Nat) (i : Instr) (x : Args) (s : State) : (evAt n p i x s).powerLimit = s.powerLimit := rfl
@[simp] theorem evAt_below (n p : Nat) (i : Instr) (x : Args) (s : State) : (evAt n p i x s).below = s.below := rfl
@[simp] theorem evAt_clock (n p : Nat) (i : Instr) (x : Args) (s : State) : (evAt n p i x s).clock = s.clock := rfl
@[simp] theorem evAt_clockNext (n p : Nat) (i : Instr) (x : Args) (s : State) : (evAt n p i x s).clockNext = s.clockNext := rfl
@[simp] theorem evAt_clockWait (n p : Nat) (i : Instr) (x : Args) (s : State) : (evAt n p i x s).clockWait = s.clockWait := rfl
@[simp] theorem evAt_flash (n p : Nat) (i : Instr) (x : Args) (s : State) : (evAt n p i x s).flash = s.flash := rfl
@[simp] theorem evAt_booted (n p : Nat) (i : Instr) (x : Args) (s : State) : (evAt n p i x s).booted = s.booted := rfl
@[simp] theorem evAt_measure (n p : Nat) (i : Instr) (x : Args) (s : State) : (evAt n p i x s).measure = s.measure := rfl
@[simp] theorem evAt_reply (n p : Nat) (i : Instr) (x : Args) (s : State) : (evAt n p i x s).reply = s.reply := rfl

/-! engineAt. -/

@[simp] theorem engineAt_cycle (n c : Nat) (i : Instr) (x : Args) (s : State) : (engineAt n c i x s).cycle = s.cycle := rfl
@[simp] theorem engineAt_turn (n c : Nat) (i : Instr) (x : Args) (s : State) : (engineAt n c i x s).turn = s.turn := rfl
@[simp] theorem engineAt_cur (n c : Nat) (i : Instr) (x : Args) (s : State) : (engineAt n c i x s).cur = s.cur := rfl
@[simp] theorem engineAt_args (n c : Nat) (i : Instr) (x : Args) (s : State) : (engineAt n c i x s).args = s.args := rfl
@[simp] theorem engineAt_free (n c : Nat) (i : Instr) (x : Args) (s : State) : (engineAt n c i x s).free = s.free := rfl
@[simp] theorem engineAt_nextId (n c : Nat) (i : Instr) (x : Args) (s : State) : (engineAt n c i x s).nextId = s.nextId := rfl
@[simp] theorem engineAt_cores (n c : Nat) (i : Instr) (x : Args) (s : State) : (engineAt n c i x s).cores = s.cores := rfl
@[simp] theorem engineAt_protos (n c : Nat) (i : Instr) (x : Args) (s : State) : (engineAt n c i x s).protos = s.protos := rfl
@[simp] theorem engineAt_rods (n c : Nat) (i : Instr) (x : Args) (s : State) : (engineAt n c i x s).rods = s.rods := rfl
@[simp] theorem engineAt_frames (n c : Nat) (i : Instr) (x : Args) (s : State) : (engineAt n c i x s).frames = s.frames := rfl
@[simp] theorem engineAt_dies (n c : Nat) (i : Instr) (x : Args) (s : State) : (engineAt n c i x s).dies = s.dies := rfl
@[simp] theorem engineAt_domains (n c : Nat) (i : Instr) (x : Args) (s : State) : (engineAt n c i x s).domains = s.domains := rfl
@[simp] theorem engineAt_dram (n c : Nat) (i : Instr) (x : Args) (s : State) : (engineAt n c i x s).dram = s.dram := rfl
@[simp] theorem engineAt_homes (n c : Nat) (i : Instr) (x : Args) (s : State) : (engineAt n c i x s).homes = s.homes := rfl
@[simp] theorem engineAt_llc (n c : Nat) (i : Instr) (x : Args) (s : State) : (engineAt n c i x s).llc = s.llc := rfl
@[simp] theorem engineAt_msgs (n c : Nat) (i : Instr) (x : Args) (s : State) : (engineAt n c i x s).msgs = s.msgs := rfl
@[simp] theorem engineAt_accs (n c : Nat) (i : Instr) (x : Args) (s : State) : (engineAt n c i x s).accs = s.accs := rfl
@[simp] theorem engineAt_walks (n c : Nat) (i : Instr) (x : Args) (s : State) : (engineAt n c i x s).walks = s.walks := rfl
@[simp] theorem engineAt_flights (n c : Nat) (i : Instr) (x : Args) (s : State) : (engineAt n c i x s).flights = s.flights := rfl
@[simp] theorem engineAt_modRound (n c : Nat) (i : Instr) (x : Args) (s : State) : (engineAt n c i x s).modRound = s.modRound := rfl
@[simp] theorem engineAt_modActive (n c : Nat) (i : Instr) (x : Args) (s : State) : (engineAt n c i x s).modActive = s.modActive := rfl
@[simp] theorem engineAt_modSample (n c : Nat) (i : Instr) (x : Args) (s : State) : (engineAt n c i x s).modSample = s.modSample := rfl
@[simp] theorem engineAt_host (n c : Nat) (i : Instr) (x : Args) (s : State) : (engineAt n c i x s).host = s.host := rfl
@[simp] theorem engineAt_module (n c : Nat) (i : Instr) (x : Args) (s : State) : (engineAt n c i x s).module = s.module := rfl
@[simp] theorem engineAt_lcs (n c : Nat) (i : Instr) (x : Args) (s : State) : (engineAt n c i x s).lcs = s.lcs := rfl
@[simp] theorem engineAt_lcsNext (n c : Nat) (i : Instr) (x : Args) (s : State) : (engineAt n c i x s).lcsNext = s.lcsNext := rfl
@[simp] theorem engineAt_wiping (n c : Nat) (i : Instr) (x : Args) (s : State) : (engineAt n c i x s).wiping = s.wiping := rfl
@[simp] theorem engineAt_alarm (n c : Nat) (i : Instr) (x : Args) (s : State) : (engineAt n c i x s).alarm = s.alarm := rfl
@[simp] theorem engineAt_dieBusy (n c : Nat) (i : Instr) (x : Args) (s : State) : (engineAt n c i x s).dieBusy = s.dieBusy := rfl
@[simp] theorem engineAt_tlbVa (n c : Nat) (i : Instr) (x : Args) (s : State) : (engineAt n c i x s).tlbVa = s.tlbVa := rfl
@[simp] theorem engineAt_tlbDies (n c : Nat) (i : Instr) (x : Args) (s : State) : (engineAt n c i x s).tlbDies = s.tlbDies := rfl
@[simp] theorem engineAt_tlbMode (n c : Nat) (i : Instr) (x : Args) (s : State) : (engineAt n c i x s).tlbMode = s.tlbMode := rfl
@[simp] theorem engineAt_tlbBusy (n c : Nat) (i : Instr) (x : Args) (s : State) : (engineAt n c i x s).tlbBusy = s.tlbBusy := rfl
@[simp] theorem engineAt_launch (n c : Nat) (i : Instr) (x : Args) (s : State) : (engineAt n c i x s).launch = s.launch := rfl
@[simp] theorem engineAt_lastServed (n c : Nat) (i : Instr) (x : Args) (s : State) : (engineAt n c i x s).lastServed = s.lastServed := rfl
@[simp] theorem engineAt_funcs (n c : Nat) (i : Instr) (x : Args) (s : State) : (engineAt n c i x s).funcs = s.funcs := rfl
@[simp] theorem engineAt_ports (n c : Nat) (i : Instr) (x : Args) (s : State) : (engineAt n c i x s).ports = s.ports := rfl
@[simp] theorem engineAt_acl (n c : Nat) (i : Instr) (x : Args) (s : State) : (engineAt n c i x s).acl = s.acl := rfl
@[simp] theorem engineAt_powerLimit (n c : Nat) (i : Instr) (x : Args) (s : State) : (engineAt n c i x s).powerLimit = s.powerLimit := rfl
@[simp] theorem engineAt_below (n c : Nat) (i : Instr) (x : Args) (s : State) : (engineAt n c i x s).below = s.below := rfl
@[simp] theorem engineAt_clock (n c : Nat) (i : Instr) (x : Args) (s : State) : (engineAt n c i x s).clock = s.clock := rfl
@[simp] theorem engineAt_clockNext (n c : Nat) (i : Instr) (x : Args) (s : State) : (engineAt n c i x s).clockNext = s.clockNext := rfl
@[simp] theorem engineAt_clockWait (n c : Nat) (i : Instr) (x : Args) (s : State) : (engineAt n c i x s).clockWait = s.clockWait := rfl
@[simp] theorem engineAt_flash (n c : Nat) (i : Instr) (x : Args) (s : State) : (engineAt n c i x s).flash = s.flash := rfl
@[simp] theorem engineAt_booted (n c : Nat) (i : Instr) (x : Args) (s : State) : (engineAt n c i x s).booted = s.booted := rfl
@[simp] theorem engineAt_measure (n c : Nat) (i : Instr) (x : Args) (s : State) : (engineAt n c i x s).measure = s.measure := rfl
@[simp] theorem engineAt_reply (n c : Nat) (i : Instr) (x : Args) (s : State) : (engineAt n c i x s).reply = s.reply := rfl

/-! updHome. -/

@[simp] theorem updHome_cycle (s : State) (l : Nat) (f : HomeLine → HomeLine) : (updHome s l f).cycle = s.cycle := rfl
@[simp] theorem updHome_agenda (s : State) (l : Nat) (f : HomeLine → HomeLine) : (updHome s l f).agenda = s.agenda := rfl
@[simp] theorem updHome_turn (s : State) (l : Nat) (f : HomeLine → HomeLine) : (updHome s l f).turn = s.turn := rfl
@[simp] theorem updHome_cur (s : State) (l : Nat) (f : HomeLine → HomeLine) : (updHome s l f).cur = s.cur := rfl
@[simp] theorem updHome_args (s : State) (l : Nat) (f : HomeLine → HomeLine) : (updHome s l f).args = s.args := rfl
@[simp] theorem updHome_free (s : State) (l : Nat) (f : HomeLine → HomeLine) : (updHome s l f).free = s.free := rfl
@[simp] theorem updHome_nextId (s : State) (l : Nat) (f : HomeLine → HomeLine) : (updHome s l f).nextId = s.nextId := rfl
@[simp] theorem updHome_cores (s : State) (l : Nat) (f : HomeLine → HomeLine) : (updHome s l f).cores = s.cores := rfl
@[simp] theorem updHome_protos (s : State) (l : Nat) (f : HomeLine → HomeLine) : (updHome s l f).protos = s.protos := rfl
@[simp] theorem updHome_rods (s : State) (l : Nat) (f : HomeLine → HomeLine) : (updHome s l f).rods = s.rods := rfl
@[simp] theorem updHome_frames (s : State) (l : Nat) (f : HomeLine → HomeLine) : (updHome s l f).frames = s.frames := rfl
@[simp] theorem updHome_dies (s : State) (l : Nat) (f : HomeLine → HomeLine) : (updHome s l f).dies = s.dies := rfl
@[simp] theorem updHome_domains (s : State) (l : Nat) (f : HomeLine → HomeLine) : (updHome s l f).domains = s.domains := rfl
@[simp] theorem updHome_dram (s : State) (l : Nat) (f : HomeLine → HomeLine) : (updHome s l f).dram = s.dram := rfl
@[simp] theorem updHome_llc (s : State) (l : Nat) (f : HomeLine → HomeLine) : (updHome s l f).llc = s.llc := rfl
@[simp] theorem updHome_msgs (s : State) (l : Nat) (f : HomeLine → HomeLine) : (updHome s l f).msgs = s.msgs := rfl
@[simp] theorem updHome_accs (s : State) (l : Nat) (f : HomeLine → HomeLine) : (updHome s l f).accs = s.accs := rfl
@[simp] theorem updHome_walks (s : State) (l : Nat) (f : HomeLine → HomeLine) : (updHome s l f).walks = s.walks := rfl
@[simp] theorem updHome_flights (s : State) (l : Nat) (f : HomeLine → HomeLine) : (updHome s l f).flights = s.flights := rfl
@[simp] theorem updHome_modRound (s : State) (l : Nat) (f : HomeLine → HomeLine) : (updHome s l f).modRound = s.modRound := rfl
@[simp] theorem updHome_modActive (s : State) (l : Nat) (f : HomeLine → HomeLine) : (updHome s l f).modActive = s.modActive := rfl
@[simp] theorem updHome_modSample (s : State) (l : Nat) (f : HomeLine → HomeLine) : (updHome s l f).modSample = s.modSample := rfl
@[simp] theorem updHome_host (s : State) (l : Nat) (f : HomeLine → HomeLine) : (updHome s l f).host = s.host := rfl
@[simp] theorem updHome_module (s : State) (l : Nat) (f : HomeLine → HomeLine) : (updHome s l f).module = s.module := rfl
@[simp] theorem updHome_lcs (s : State) (l : Nat) (f : HomeLine → HomeLine) : (updHome s l f).lcs = s.lcs := rfl
@[simp] theorem updHome_lcsNext (s : State) (l : Nat) (f : HomeLine → HomeLine) : (updHome s l f).lcsNext = s.lcsNext := rfl
@[simp] theorem updHome_wiping (s : State) (l : Nat) (f : HomeLine → HomeLine) : (updHome s l f).wiping = s.wiping := rfl
@[simp] theorem updHome_alarm (s : State) (l : Nat) (f : HomeLine → HomeLine) : (updHome s l f).alarm = s.alarm := rfl
@[simp] theorem updHome_dieBusy (s : State) (l : Nat) (f : HomeLine → HomeLine) : (updHome s l f).dieBusy = s.dieBusy := rfl
@[simp] theorem updHome_tlbVa (s : State) (l : Nat) (f : HomeLine → HomeLine) : (updHome s l f).tlbVa = s.tlbVa := rfl
@[simp] theorem updHome_tlbDies (s : State) (l : Nat) (f : HomeLine → HomeLine) : (updHome s l f).tlbDies = s.tlbDies := rfl
@[simp] theorem updHome_tlbMode (s : State) (l : Nat) (f : HomeLine → HomeLine) : (updHome s l f).tlbMode = s.tlbMode := rfl
@[simp] theorem updHome_tlbBusy (s : State) (l : Nat) (f : HomeLine → HomeLine) : (updHome s l f).tlbBusy = s.tlbBusy := rfl
@[simp] theorem updHome_launch (s : State) (l : Nat) (f : HomeLine → HomeLine) : (updHome s l f).launch = s.launch := rfl
@[simp] theorem updHome_lastServed (s : State) (l : Nat) (f : HomeLine → HomeLine) : (updHome s l f).lastServed = s.lastServed := rfl
@[simp] theorem updHome_funcs (s : State) (l : Nat) (f : HomeLine → HomeLine) : (updHome s l f).funcs = s.funcs := rfl
@[simp] theorem updHome_ports (s : State) (l : Nat) (f : HomeLine → HomeLine) : (updHome s l f).ports = s.ports := rfl
@[simp] theorem updHome_acl (s : State) (l : Nat) (f : HomeLine → HomeLine) : (updHome s l f).acl = s.acl := rfl
@[simp] theorem updHome_powerLimit (s : State) (l : Nat) (f : HomeLine → HomeLine) : (updHome s l f).powerLimit = s.powerLimit := rfl
@[simp] theorem updHome_below (s : State) (l : Nat) (f : HomeLine → HomeLine) : (updHome s l f).below = s.below := rfl
@[simp] theorem updHome_clock (s : State) (l : Nat) (f : HomeLine → HomeLine) : (updHome s l f).clock = s.clock := rfl
@[simp] theorem updHome_clockNext (s : State) (l : Nat) (f : HomeLine → HomeLine) : (updHome s l f).clockNext = s.clockNext := rfl
@[simp] theorem updHome_clockWait (s : State) (l : Nat) (f : HomeLine → HomeLine) : (updHome s l f).clockWait = s.clockWait := rfl
@[simp] theorem updHome_flash (s : State) (l : Nat) (f : HomeLine → HomeLine) : (updHome s l f).flash = s.flash := rfl
@[simp] theorem updHome_booted (s : State) (l : Nat) (f : HomeLine → HomeLine) : (updHome s l f).booted = s.booted := rfl
@[simp] theorem updHome_measure (s : State) (l : Nat) (f : HomeLine → HomeLine) : (updHome s l f).measure = s.measure := rfl
@[simp] theorem updHome_reply (s : State) (l : Nat) (f : HomeLine → HomeLine) : (updHome s l f).reply = s.reply := rfl

/-! tick. -/

@[simp] theorem tick_cycle (s : State) : (tick s).cycle = s.cycle := rfl
@[simp] theorem tick_agenda (s : State) : (tick s).agenda = s.agenda := rfl
@[simp] theorem tick_turn (s : State) : (tick s).turn = s.turn := rfl
@[simp] theorem tick_cur (s : State) : (tick s).cur = s.cur := rfl
@[simp] theorem tick_args (s : State) : (tick s).args = s.args := rfl
@[simp] theorem tick_nextId (s : State) : (tick s).nextId = s.nextId := rfl
@[simp] theorem tick_cores (s : State) : (tick s).cores = s.cores := rfl
@[simp] theorem tick_protos (s : State) : (tick s).protos = s.protos := rfl
@[simp] theorem tick_rods (s : State) : (tick s).rods = s.rods := rfl
@[simp] theorem tick_frames (s : State) : (tick s).frames = s.frames := rfl
@[simp] theorem tick_dies (s : State) : (tick s).dies = s.dies := rfl
@[simp] theorem tick_domains (s : State) : (tick s).domains = s.domains := rfl
@[simp] theorem tick_dram (s : State) : (tick s).dram = s.dram := rfl
@[simp] theorem tick_homes (s : State) : (tick s).homes = s.homes := rfl
@[simp] theorem tick_llc (s : State) : (tick s).llc = s.llc := rfl
@[simp] theorem tick_msgs (s : State) : (tick s).msgs = s.msgs := rfl
@[simp] theorem tick_accs (s : State) : (tick s).accs = s.accs := rfl
@[simp] theorem tick_walks (s : State) : (tick s).walks = s.walks := rfl
@[simp] theorem tick_flights (s : State) : (tick s).flights = s.flights := rfl
@[simp] theorem tick_modRound (s : State) : (tick s).modRound = s.modRound := rfl
@[simp] theorem tick_modActive (s : State) : (tick s).modActive = s.modActive := rfl
@[simp] theorem tick_modSample (s : State) : (tick s).modSample = s.modSample := rfl
@[simp] theorem tick_host (s : State) : (tick s).host = s.host := rfl
@[simp] theorem tick_module (s : State) : (tick s).module = s.module := rfl
@[simp] theorem tick_lcs (s : State) : (tick s).lcs = s.lcs := rfl
@[simp] theorem tick_lcsNext (s : State) : (tick s).lcsNext = s.lcsNext := rfl
@[simp] theorem tick_wiping (s : State) : (tick s).wiping = s.wiping := rfl
@[simp] theorem tick_alarm (s : State) : (tick s).alarm = s.alarm := rfl
@[simp] theorem tick_dieBusy (s : State) : (tick s).dieBusy = s.dieBusy := rfl
@[simp] theorem tick_tlbVa (s : State) : (tick s).tlbVa = s.tlbVa := rfl
@[simp] theorem tick_tlbDies (s : State) : (tick s).tlbDies = s.tlbDies := rfl
@[simp] theorem tick_tlbMode (s : State) : (tick s).tlbMode = s.tlbMode := rfl
@[simp] theorem tick_tlbBusy (s : State) : (tick s).tlbBusy = s.tlbBusy := rfl
@[simp] theorem tick_launch (s : State) : (tick s).launch = s.launch := rfl
@[simp] theorem tick_lastServed (s : State) : (tick s).lastServed = s.lastServed := rfl
@[simp] theorem tick_funcs (s : State) : (tick s).funcs = s.funcs := rfl
@[simp] theorem tick_ports (s : State) : (tick s).ports = s.ports := rfl
@[simp] theorem tick_acl (s : State) : (tick s).acl = s.acl := rfl
@[simp] theorem tick_powerLimit (s : State) : (tick s).powerLimit = s.powerLimit := rfl
@[simp] theorem tick_below (s : State) : (tick s).below = s.below := rfl
@[simp] theorem tick_clock (s : State) : (tick s).clock = s.clock := rfl
@[simp] theorem tick_clockNext (s : State) : (tick s).clockNext = s.clockNext := rfl
@[simp] theorem tick_clockWait (s : State) : (tick s).clockWait = s.clockWait := rfl
@[simp] theorem tick_flash (s : State) : (tick s).flash = s.flash := rfl
@[simp] theorem tick_booted (s : State) : (tick s).booted = s.booted := rfl
@[simp] theorem tick_measure (s : State) : (tick s).measure = s.measure := rfl
@[simp] theorem tick_reply (s : State) : (tick s).reply = s.reply := rfl

/-! unschedule. -/

@[simp] theorem unschedule_cycle (p : Item → Bool) (s : State) : (unschedule p s).cycle = s.cycle := rfl
@[simp] theorem unschedule_turn (p : Item → Bool) (s : State) : (unschedule p s).turn = s.turn := rfl
@[simp] theorem unschedule_cur (p : Item → Bool) (s : State) : (unschedule p s).cur = s.cur := rfl
@[simp] theorem unschedule_args (p : Item → Bool) (s : State) : (unschedule p s).args = s.args := rfl
@[simp] theorem unschedule_free (p : Item → Bool) (s : State) : (unschedule p s).free = s.free := rfl
@[simp] theorem unschedule_nextId (p : Item → Bool) (s : State) : (unschedule p s).nextId = s.nextId := rfl
@[simp] theorem unschedule_cores (p : Item → Bool) (s : State) : (unschedule p s).cores = s.cores := rfl
@[simp] theorem unschedule_protos (p : Item → Bool) (s : State) : (unschedule p s).protos = s.protos := rfl
@[simp] theorem unschedule_rods (p : Item → Bool) (s : State) : (unschedule p s).rods = s.rods := rfl
@[simp] theorem unschedule_frames (p : Item → Bool) (s : State) : (unschedule p s).frames = s.frames := rfl
@[simp] theorem unschedule_dies (p : Item → Bool) (s : State) : (unschedule p s).dies = s.dies := rfl
@[simp] theorem unschedule_domains (p : Item → Bool) (s : State) : (unschedule p s).domains = s.domains := rfl
@[simp] theorem unschedule_dram (p : Item → Bool) (s : State) : (unschedule p s).dram = s.dram := rfl
@[simp] theorem unschedule_homes (p : Item → Bool) (s : State) : (unschedule p s).homes = s.homes := rfl
@[simp] theorem unschedule_llc (p : Item → Bool) (s : State) : (unschedule p s).llc = s.llc := rfl
@[simp] theorem unschedule_msgs (p : Item → Bool) (s : State) : (unschedule p s).msgs = s.msgs := rfl
@[simp] theorem unschedule_accs (p : Item → Bool) (s : State) : (unschedule p s).accs = s.accs := rfl
@[simp] theorem unschedule_walks (p : Item → Bool) (s : State) : (unschedule p s).walks = s.walks := rfl
@[simp] theorem unschedule_flights (p : Item → Bool) (s : State) : (unschedule p s).flights = s.flights := rfl
@[simp] theorem unschedule_modRound (p : Item → Bool) (s : State) : (unschedule p s).modRound = s.modRound := rfl
@[simp] theorem unschedule_modActive (p : Item → Bool) (s : State) : (unschedule p s).modActive = s.modActive := rfl
@[simp] theorem unschedule_modSample (p : Item → Bool) (s : State) : (unschedule p s).modSample = s.modSample := rfl
@[simp] theorem unschedule_host (p : Item → Bool) (s : State) : (unschedule p s).host = s.host := rfl
@[simp] theorem unschedule_module (p : Item → Bool) (s : State) : (unschedule p s).module = s.module := rfl
@[simp] theorem unschedule_lcs (p : Item → Bool) (s : State) : (unschedule p s).lcs = s.lcs := rfl
@[simp] theorem unschedule_lcsNext (p : Item → Bool) (s : State) : (unschedule p s).lcsNext = s.lcsNext := rfl
@[simp] theorem unschedule_wiping (p : Item → Bool) (s : State) : (unschedule p s).wiping = s.wiping := rfl
@[simp] theorem unschedule_alarm (p : Item → Bool) (s : State) : (unschedule p s).alarm = s.alarm := rfl
@[simp] theorem unschedule_dieBusy (p : Item → Bool) (s : State) : (unschedule p s).dieBusy = s.dieBusy := rfl
@[simp] theorem unschedule_tlbVa (p : Item → Bool) (s : State) : (unschedule p s).tlbVa = s.tlbVa := rfl
@[simp] theorem unschedule_tlbDies (p : Item → Bool) (s : State) : (unschedule p s).tlbDies = s.tlbDies := rfl
@[simp] theorem unschedule_tlbMode (p : Item → Bool) (s : State) : (unschedule p s).tlbMode = s.tlbMode := rfl
@[simp] theorem unschedule_tlbBusy (p : Item → Bool) (s : State) : (unschedule p s).tlbBusy = s.tlbBusy := rfl
@[simp] theorem unschedule_launch (p : Item → Bool) (s : State) : (unschedule p s).launch = s.launch := rfl
@[simp] theorem unschedule_lastServed (p : Item → Bool) (s : State) : (unschedule p s).lastServed = s.lastServed := rfl
@[simp] theorem unschedule_funcs (p : Item → Bool) (s : State) : (unschedule p s).funcs = s.funcs := rfl
@[simp] theorem unschedule_ports (p : Item → Bool) (s : State) : (unschedule p s).ports = s.ports := rfl
@[simp] theorem unschedule_acl (p : Item → Bool) (s : State) : (unschedule p s).acl = s.acl := rfl
@[simp] theorem unschedule_powerLimit (p : Item → Bool) (s : State) : (unschedule p s).powerLimit = s.powerLimit := rfl
@[simp] theorem unschedule_below (p : Item → Bool) (s : State) : (unschedule p s).below = s.below := rfl
@[simp] theorem unschedule_clock (p : Item → Bool) (s : State) : (unschedule p s).clock = s.clock := rfl
@[simp] theorem unschedule_clockNext (p : Item → Bool) (s : State) : (unschedule p s).clockNext = s.clockNext := rfl
@[simp] theorem unschedule_clockWait (p : Item → Bool) (s : State) : (unschedule p s).clockWait = s.clockWait := rfl
@[simp] theorem unschedule_flash (p : Item → Bool) (s : State) : (unschedule p s).flash = s.flash := rfl
@[simp] theorem unschedule_booted (p : Item → Bool) (s : State) : (unschedule p s).booted = s.booted := rfl
@[simp] theorem unschedule_measure (p : Item → Bool) (s : State) : (unschedule p s).measure = s.measure := rfl
@[simp] theorem unschedule_reply (p : Item → Bool) (s : State) : (unschedule p s).reply = s.reply := rfl

/-! freshId. -/

@[simp] theorem freshId_cycle (s : State) : ((freshId s).2).cycle = s.cycle := rfl
@[simp] theorem freshId_agenda (s : State) : ((freshId s).2).agenda = s.agenda := rfl
@[simp] theorem freshId_turn (s : State) : ((freshId s).2).turn = s.turn := rfl
@[simp] theorem freshId_cur (s : State) : ((freshId s).2).cur = s.cur := rfl
@[simp] theorem freshId_args (s : State) : ((freshId s).2).args = s.args := rfl
@[simp] theorem freshId_free (s : State) : ((freshId s).2).free = s.free := rfl
@[simp] theorem freshId_cores (s : State) : ((freshId s).2).cores = s.cores := rfl
@[simp] theorem freshId_protos (s : State) : ((freshId s).2).protos = s.protos := rfl
@[simp] theorem freshId_rods (s : State) : ((freshId s).2).rods = s.rods := rfl
@[simp] theorem freshId_frames (s : State) : ((freshId s).2).frames = s.frames := rfl
@[simp] theorem freshId_dies (s : State) : ((freshId s).2).dies = s.dies := rfl
@[simp] theorem freshId_domains (s : State) : ((freshId s).2).domains = s.domains := rfl
@[simp] theorem freshId_dram (s : State) : ((freshId s).2).dram = s.dram := rfl
@[simp] theorem freshId_homes (s : State) : ((freshId s).2).homes = s.homes := rfl
@[simp] theorem freshId_llc (s : State) : ((freshId s).2).llc = s.llc := rfl
@[simp] theorem freshId_msgs (s : State) : ((freshId s).2).msgs = s.msgs := rfl
@[simp] theorem freshId_accs (s : State) : ((freshId s).2).accs = s.accs := rfl
@[simp] theorem freshId_walks (s : State) : ((freshId s).2).walks = s.walks := rfl
@[simp] theorem freshId_flights (s : State) : ((freshId s).2).flights = s.flights := rfl
@[simp] theorem freshId_modRound (s : State) : ((freshId s).2).modRound = s.modRound := rfl
@[simp] theorem freshId_modActive (s : State) : ((freshId s).2).modActive = s.modActive := rfl
@[simp] theorem freshId_modSample (s : State) : ((freshId s).2).modSample = s.modSample := rfl
@[simp] theorem freshId_host (s : State) : ((freshId s).2).host = s.host := rfl
@[simp] theorem freshId_module (s : State) : ((freshId s).2).module = s.module := rfl
@[simp] theorem freshId_lcs (s : State) : ((freshId s).2).lcs = s.lcs := rfl
@[simp] theorem freshId_lcsNext (s : State) : ((freshId s).2).lcsNext = s.lcsNext := rfl
@[simp] theorem freshId_wiping (s : State) : ((freshId s).2).wiping = s.wiping := rfl
@[simp] theorem freshId_alarm (s : State) : ((freshId s).2).alarm = s.alarm := rfl
@[simp] theorem freshId_dieBusy (s : State) : ((freshId s).2).dieBusy = s.dieBusy := rfl
@[simp] theorem freshId_tlbVa (s : State) : ((freshId s).2).tlbVa = s.tlbVa := rfl
@[simp] theorem freshId_tlbDies (s : State) : ((freshId s).2).tlbDies = s.tlbDies := rfl
@[simp] theorem freshId_tlbMode (s : State) : ((freshId s).2).tlbMode = s.tlbMode := rfl
@[simp] theorem freshId_tlbBusy (s : State) : ((freshId s).2).tlbBusy = s.tlbBusy := rfl
@[simp] theorem freshId_launch (s : State) : ((freshId s).2).launch = s.launch := rfl
@[simp] theorem freshId_lastServed (s : State) : ((freshId s).2).lastServed = s.lastServed := rfl
@[simp] theorem freshId_funcs (s : State) : ((freshId s).2).funcs = s.funcs := rfl
@[simp] theorem freshId_ports (s : State) : ((freshId s).2).ports = s.ports := rfl
@[simp] theorem freshId_acl (s : State) : ((freshId s).2).acl = s.acl := rfl
@[simp] theorem freshId_powerLimit (s : State) : ((freshId s).2).powerLimit = s.powerLimit := rfl
@[simp] theorem freshId_below (s : State) : ((freshId s).2).below = s.below := rfl
@[simp] theorem freshId_clock (s : State) : ((freshId s).2).clock = s.clock := rfl
@[simp] theorem freshId_clockNext (s : State) : ((freshId s).2).clockNext = s.clockNext := rfl
@[simp] theorem freshId_clockWait (s : State) : ((freshId s).2).clockWait = s.clockWait := rfl
@[simp] theorem freshId_flash (s : State) : ((freshId s).2).flash = s.flash := rfl
@[simp] theorem freshId_booted (s : State) : ((freshId s).2).booted = s.booted := rfl
@[simp] theorem freshId_measure (s : State) : ((freshId s).2).measure = s.measure := rfl
@[simp] theorem freshId_reply (s : State) : ((freshId s).2).reply = s.reply := rfl

/-! kick: the agenda and the armed cycle of its core. -/

@[simp] theorem kick_cycle (k n : Nat) (s : State) : (kick k n s).cycle = s.cycle := by
  unfold kick; dsimp only; (repeat' split) <;> rfl
@[simp] theorem kick_turn (k n : Nat) (s : State) : (kick k n s).turn = s.turn := by
  unfold kick; dsimp only; (repeat' split) <;> rfl
@[simp] theorem kick_cur (k n : Nat) (s : State) : (kick k n s).cur = s.cur := by
  unfold kick; dsimp only; (repeat' split) <;> rfl
@[simp] theorem kick_args (k n : Nat) (s : State) : (kick k n s).args = s.args := by
  unfold kick; dsimp only; (repeat' split) <;> rfl
@[simp] theorem kick_free (k n : Nat) (s : State) : (kick k n s).free = s.free := by
  unfold kick; dsimp only; (repeat' split) <;> rfl
@[simp] theorem kick_nextId (k n : Nat) (s : State) : (kick k n s).nextId = s.nextId := by
  unfold kick; dsimp only; (repeat' split) <;> rfl
@[simp] theorem kick_protos (k n : Nat) (s : State) : (kick k n s).protos = s.protos := by
  unfold kick; dsimp only; (repeat' split) <;> rfl
@[simp] theorem kick_rods (k n : Nat) (s : State) : (kick k n s).rods = s.rods := by
  unfold kick; dsimp only; (repeat' split) <;> rfl
@[simp] theorem kick_frames (k n : Nat) (s : State) : (kick k n s).frames = s.frames := by
  unfold kick; dsimp only; (repeat' split) <;> rfl
@[simp] theorem kick_dies (k n : Nat) (s : State) : (kick k n s).dies = s.dies := by
  unfold kick; dsimp only; (repeat' split) <;> rfl
@[simp] theorem kick_domains (k n : Nat) (s : State) : (kick k n s).domains = s.domains := by
  unfold kick; dsimp only; (repeat' split) <;> rfl
@[simp] theorem kick_dram (k n : Nat) (s : State) : (kick k n s).dram = s.dram := by
  unfold kick; dsimp only; (repeat' split) <;> rfl
@[simp] theorem kick_homes (k n : Nat) (s : State) : (kick k n s).homes = s.homes := by
  unfold kick; dsimp only; (repeat' split) <;> rfl
@[simp] theorem kick_llc (k n : Nat) (s : State) : (kick k n s).llc = s.llc := by
  unfold kick; dsimp only; (repeat' split) <;> rfl
@[simp] theorem kick_msgs (k n : Nat) (s : State) : (kick k n s).msgs = s.msgs := by
  unfold kick; dsimp only; (repeat' split) <;> rfl
@[simp] theorem kick_accs (k n : Nat) (s : State) : (kick k n s).accs = s.accs := by
  unfold kick; dsimp only; (repeat' split) <;> rfl
@[simp] theorem kick_walks (k n : Nat) (s : State) : (kick k n s).walks = s.walks := by
  unfold kick; dsimp only; (repeat' split) <;> rfl
@[simp] theorem kick_flights (k n : Nat) (s : State) : (kick k n s).flights = s.flights := by
  unfold kick; dsimp only; (repeat' split) <;> rfl
@[simp] theorem kick_modRound (k n : Nat) (s : State) : (kick k n s).modRound = s.modRound := by
  unfold kick; dsimp only; (repeat' split) <;> rfl
@[simp] theorem kick_modActive (k n : Nat) (s : State) : (kick k n s).modActive = s.modActive := by
  unfold kick; dsimp only; (repeat' split) <;> rfl
@[simp] theorem kick_modSample (k n : Nat) (s : State) : (kick k n s).modSample = s.modSample := by
  unfold kick; dsimp only; (repeat' split) <;> rfl
@[simp] theorem kick_host (k n : Nat) (s : State) : (kick k n s).host = s.host := by
  unfold kick; dsimp only; (repeat' split) <;> rfl
@[simp] theorem kick_module (k n : Nat) (s : State) : (kick k n s).module = s.module := by
  unfold kick; dsimp only; (repeat' split) <;> rfl
@[simp] theorem kick_lcs (k n : Nat) (s : State) : (kick k n s).lcs = s.lcs := by
  unfold kick; dsimp only; (repeat' split) <;> rfl
@[simp] theorem kick_lcsNext (k n : Nat) (s : State) : (kick k n s).lcsNext = s.lcsNext := by
  unfold kick; dsimp only; (repeat' split) <;> rfl
@[simp] theorem kick_wiping (k n : Nat) (s : State) : (kick k n s).wiping = s.wiping := by
  unfold kick; dsimp only; (repeat' split) <;> rfl
@[simp] theorem kick_alarm (k n : Nat) (s : State) : (kick k n s).alarm = s.alarm := by
  unfold kick; dsimp only; (repeat' split) <;> rfl
@[simp] theorem kick_dieBusy (k n : Nat) (s : State) : (kick k n s).dieBusy = s.dieBusy := by
  unfold kick; dsimp only; (repeat' split) <;> rfl
@[simp] theorem kick_tlbVa (k n : Nat) (s : State) : (kick k n s).tlbVa = s.tlbVa := by
  unfold kick; dsimp only; (repeat' split) <;> rfl
@[simp] theorem kick_tlbDies (k n : Nat) (s : State) : (kick k n s).tlbDies = s.tlbDies := by
  unfold kick; dsimp only; (repeat' split) <;> rfl
@[simp] theorem kick_tlbMode (k n : Nat) (s : State) : (kick k n s).tlbMode = s.tlbMode := by
  unfold kick; dsimp only; (repeat' split) <;> rfl
@[simp] theorem kick_tlbBusy (k n : Nat) (s : State) : (kick k n s).tlbBusy = s.tlbBusy := by
  unfold kick; dsimp only; (repeat' split) <;> rfl
@[simp] theorem kick_launch (k n : Nat) (s : State) : (kick k n s).launch = s.launch := by
  unfold kick; dsimp only; (repeat' split) <;> rfl
@[simp] theorem kick_lastServed (k n : Nat) (s : State) : (kick k n s).lastServed = s.lastServed := by
  unfold kick; dsimp only; (repeat' split) <;> rfl
@[simp] theorem kick_funcs (k n : Nat) (s : State) : (kick k n s).funcs = s.funcs := by
  unfold kick; dsimp only; (repeat' split) <;> rfl
@[simp] theorem kick_ports (k n : Nat) (s : State) : (kick k n s).ports = s.ports := by
  unfold kick; dsimp only; (repeat' split) <;> rfl
@[simp] theorem kick_acl (k n : Nat) (s : State) : (kick k n s).acl = s.acl := by
  unfold kick; dsimp only; (repeat' split) <;> rfl
@[simp] theorem kick_powerLimit (k n : Nat) (s : State) : (kick k n s).powerLimit = s.powerLimit := by
  unfold kick; dsimp only; (repeat' split) <;> rfl
@[simp] theorem kick_below (k n : Nat) (s : State) : (kick k n s).below = s.below := by
  unfold kick; dsimp only; (repeat' split) <;> rfl
@[simp] theorem kick_clock (k n : Nat) (s : State) : (kick k n s).clock = s.clock := by
  unfold kick; dsimp only; (repeat' split) <;> rfl
@[simp] theorem kick_clockNext (k n : Nat) (s : State) : (kick k n s).clockNext = s.clockNext := by
  unfold kick; dsimp only; (repeat' split) <;> rfl
@[simp] theorem kick_clockWait (k n : Nat) (s : State) : (kick k n s).clockWait = s.clockWait := by
  unfold kick; dsimp only; (repeat' split) <;> rfl
@[simp] theorem kick_flash (k n : Nat) (s : State) : (kick k n s).flash = s.flash := by
  unfold kick; dsimp only; (repeat' split) <;> rfl
@[simp] theorem kick_booted (k n : Nat) (s : State) : (kick k n s).booted = s.booted := by
  unfold kick; dsimp only; (repeat' split) <;> rfl
@[simp] theorem kick_measure (k n : Nat) (s : State) : (kick k n s).measure = s.measure := by
  unfold kick; dsimp only; (repeat' split) <;> rfl
@[simp] theorem kick_reply (k n : Nat) (s : State) : (kick k n s).reply = s.reply := by
  unfold kick; dsimp only; (repeat' split) <;> rfl

/-! setWeight: the rod alone. -/

@[simp] theorem setWeight_cycle (k : Nat) (e : Eff) (s : State) : (setWeight k e s).cycle = s.cycle := by
  unfold setWeight; split <;> rfl
@[simp] theorem setWeight_agenda (k : Nat) (e : Eff) (s : State) : (setWeight k e s).agenda = s.agenda := by
  unfold setWeight; split <;> rfl
@[simp] theorem setWeight_turn (k : Nat) (e : Eff) (s : State) : (setWeight k e s).turn = s.turn := by
  unfold setWeight; split <;> rfl
@[simp] theorem setWeight_cur (k : Nat) (e : Eff) (s : State) : (setWeight k e s).cur = s.cur := by
  unfold setWeight; split <;> rfl
@[simp] theorem setWeight_args (k : Nat) (e : Eff) (s : State) : (setWeight k e s).args = s.args := by
  unfold setWeight; split <;> rfl
@[simp] theorem setWeight_free (k : Nat) (e : Eff) (s : State) : (setWeight k e s).free = s.free := by
  unfold setWeight; split <;> rfl
@[simp] theorem setWeight_nextId (k : Nat) (e : Eff) (s : State) : (setWeight k e s).nextId = s.nextId := by
  unfold setWeight; split <;> rfl
@[simp] theorem setWeight_cores (k : Nat) (e : Eff) (s : State) : (setWeight k e s).cores = s.cores := by
  unfold setWeight; split <;> rfl
@[simp] theorem setWeight_protos (k : Nat) (e : Eff) (s : State) : (setWeight k e s).protos = s.protos := by
  unfold setWeight; split <;> rfl
@[simp] theorem setWeight_frames (k : Nat) (e : Eff) (s : State) : (setWeight k e s).frames = s.frames := by
  unfold setWeight; split <;> rfl
@[simp] theorem setWeight_dies (k : Nat) (e : Eff) (s : State) : (setWeight k e s).dies = s.dies := by
  unfold setWeight; split <;> rfl
@[simp] theorem setWeight_domains (k : Nat) (e : Eff) (s : State) : (setWeight k e s).domains = s.domains := by
  unfold setWeight; split <;> rfl
@[simp] theorem setWeight_dram (k : Nat) (e : Eff) (s : State) : (setWeight k e s).dram = s.dram := by
  unfold setWeight; split <;> rfl
@[simp] theorem setWeight_homes (k : Nat) (e : Eff) (s : State) : (setWeight k e s).homes = s.homes := by
  unfold setWeight; split <;> rfl
@[simp] theorem setWeight_llc (k : Nat) (e : Eff) (s : State) : (setWeight k e s).llc = s.llc := by
  unfold setWeight; split <;> rfl
@[simp] theorem setWeight_msgs (k : Nat) (e : Eff) (s : State) : (setWeight k e s).msgs = s.msgs := by
  unfold setWeight; split <;> rfl
@[simp] theorem setWeight_accs (k : Nat) (e : Eff) (s : State) : (setWeight k e s).accs = s.accs := by
  unfold setWeight; split <;> rfl
@[simp] theorem setWeight_walks (k : Nat) (e : Eff) (s : State) : (setWeight k e s).walks = s.walks := by
  unfold setWeight; split <;> rfl
@[simp] theorem setWeight_flights (k : Nat) (e : Eff) (s : State) : (setWeight k e s).flights = s.flights := by
  unfold setWeight; split <;> rfl
@[simp] theorem setWeight_modRound (k : Nat) (e : Eff) (s : State) : (setWeight k e s).modRound = s.modRound := by
  unfold setWeight; split <;> rfl
@[simp] theorem setWeight_modActive (k : Nat) (e : Eff) (s : State) : (setWeight k e s).modActive = s.modActive := by
  unfold setWeight; split <;> rfl
@[simp] theorem setWeight_modSample (k : Nat) (e : Eff) (s : State) : (setWeight k e s).modSample = s.modSample := by
  unfold setWeight; split <;> rfl
@[simp] theorem setWeight_host (k : Nat) (e : Eff) (s : State) : (setWeight k e s).host = s.host := by
  unfold setWeight; split <;> rfl
@[simp] theorem setWeight_module (k : Nat) (e : Eff) (s : State) : (setWeight k e s).module = s.module := by
  unfold setWeight; split <;> rfl
@[simp] theorem setWeight_lcs (k : Nat) (e : Eff) (s : State) : (setWeight k e s).lcs = s.lcs := by
  unfold setWeight; split <;> rfl
@[simp] theorem setWeight_lcsNext (k : Nat) (e : Eff) (s : State) : (setWeight k e s).lcsNext = s.lcsNext := by
  unfold setWeight; split <;> rfl
@[simp] theorem setWeight_wiping (k : Nat) (e : Eff) (s : State) : (setWeight k e s).wiping = s.wiping := by
  unfold setWeight; split <;> rfl
@[simp] theorem setWeight_alarm (k : Nat) (e : Eff) (s : State) : (setWeight k e s).alarm = s.alarm := by
  unfold setWeight; split <;> rfl
@[simp] theorem setWeight_dieBusy (k : Nat) (e : Eff) (s : State) : (setWeight k e s).dieBusy = s.dieBusy := by
  unfold setWeight; split <;> rfl
@[simp] theorem setWeight_tlbVa (k : Nat) (e : Eff) (s : State) : (setWeight k e s).tlbVa = s.tlbVa := by
  unfold setWeight; split <;> rfl
@[simp] theorem setWeight_tlbDies (k : Nat) (e : Eff) (s : State) : (setWeight k e s).tlbDies = s.tlbDies := by
  unfold setWeight; split <;> rfl
@[simp] theorem setWeight_tlbMode (k : Nat) (e : Eff) (s : State) : (setWeight k e s).tlbMode = s.tlbMode := by
  unfold setWeight; split <;> rfl
@[simp] theorem setWeight_tlbBusy (k : Nat) (e : Eff) (s : State) : (setWeight k e s).tlbBusy = s.tlbBusy := by
  unfold setWeight; split <;> rfl
@[simp] theorem setWeight_launch (k : Nat) (e : Eff) (s : State) : (setWeight k e s).launch = s.launch := by
  unfold setWeight; split <;> rfl
@[simp] theorem setWeight_lastServed (k : Nat) (e : Eff) (s : State) : (setWeight k e s).lastServed = s.lastServed := by
  unfold setWeight; split <;> rfl
@[simp] theorem setWeight_funcs (k : Nat) (e : Eff) (s : State) : (setWeight k e s).funcs = s.funcs := by
  unfold setWeight; split <;> rfl
@[simp] theorem setWeight_ports (k : Nat) (e : Eff) (s : State) : (setWeight k e s).ports = s.ports := by
  unfold setWeight; split <;> rfl
@[simp] theorem setWeight_acl (k : Nat) (e : Eff) (s : State) : (setWeight k e s).acl = s.acl := by
  unfold setWeight; split <;> rfl
@[simp] theorem setWeight_powerLimit (k : Nat) (e : Eff) (s : State) : (setWeight k e s).powerLimit = s.powerLimit := by
  unfold setWeight; split <;> rfl
@[simp] theorem setWeight_below (k : Nat) (e : Eff) (s : State) : (setWeight k e s).below = s.below := by
  unfold setWeight; split <;> rfl
@[simp] theorem setWeight_clock (k : Nat) (e : Eff) (s : State) : (setWeight k e s).clock = s.clock := by
  unfold setWeight; split <;> rfl
@[simp] theorem setWeight_clockNext (k : Nat) (e : Eff) (s : State) : (setWeight k e s).clockNext = s.clockNext := by
  unfold setWeight; split <;> rfl
@[simp] theorem setWeight_clockWait (k : Nat) (e : Eff) (s : State) : (setWeight k e s).clockWait = s.clockWait := by
  unfold setWeight; split <;> rfl
@[simp] theorem setWeight_flash (k : Nat) (e : Eff) (s : State) : (setWeight k e s).flash = s.flash := by
  unfold setWeight; split <;> rfl
@[simp] theorem setWeight_booted (k : Nat) (e : Eff) (s : State) : (setWeight k e s).booted = s.booted := by
  unfold setWeight; split <;> rfl
@[simp] theorem setWeight_measure (k : Nat) (e : Eff) (s : State) : (setWeight k e s).measure = s.measure := by
  unfold setWeight; split <;> rfl
@[simp] theorem setWeight_reply (k : Nat) (e : Eff) (s : State) : (setWeight k e s).reply = s.reply := by
  unfold setWeight; split <;> rfl

/-! Units after an update. -/

theorem coreOf_setCore (s : State) (k j : Nat) (c : Core) : coreOf (setCore s k c) j = if j = k then c else coreOf s j := by
  unfold coreOf setCore
  simp only [Table.find_set]
  by_cases h : j = k
  · simp [h]
  · simp only [h, if_false]; rfl

@[simp] theorem coreOf_setCore_same (s : State) (k : Nat) (c : Core) : coreOf (setCore s k c) k = c := by simp [coreOf_setCore]

theorem coreOf_setCore_ne (s : State) {k j : Nat} (c : Core) (h : j ≠ k) : coreOf (setCore s k c) j = coreOf s j := by simp [coreOf_setCore, h]

theorem coreOf_updCore (s : State) (k j : Nat) (f : Core → Core) : coreOf (updCore s k f) j = if j = k then f (coreOf s k) else coreOf s j :=
  coreOf_setCore s k j _

/-- What a core reads as depends on the table of cores and the images of the launches alone. -/
theorem coreOf_congr {s t : State} (hc : t.cores = s.cores) (hp : t.protos = s.protos) (k : Nat) : coreOf t k = coreOf s k := by
  unfold coreOf freshCore; rw [hc, hp]

@[simp] theorem coreOf_push (e : Entry) (s : State) (k : Nat) : coreOf (push e s) k = coreOf s k := rfl
@[simp] theorem coreOf_pushAt (n p i : Nat) (it : Item) (s : State) (k : Nat) : coreOf (pushAt n p i it s) k = coreOf s k := rfl
@[simp] theorem coreOf_evAt (n p : Nat) (i : Instr) (x : Args) (s : State) (k : Nat) : coreOf (evAt n p i x s) k = coreOf s k := rfl
@[simp] theorem coreOf_engineAt (n c : Nat) (i : Instr) (x : Args) (s : State) (k : Nat) : coreOf (engineAt n c i x s) k = coreOf s k := rfl
@[simp] theorem coreOf_tick (s : State) (k : Nat) : coreOf (tick s) k = coreOf s k := rfl
@[simp] theorem coreOf_updRod (s : State) (r : Nat) (f : Rod → Rod) (k : Nat) : coreOf (updRod s r f) k = coreOf s k := rfl
@[simp] theorem coreOf_updDie (s : State) (d : Nat) (f : Die → Die) (k : Nat) : coreOf (updDie s d f) k = coreOf s k := rfl
@[simp] theorem coreOf_updDom (s : State) (m : Nat) (f : Domain → Domain) (k : Nat) : coreOf (updDom s m f) k = coreOf s k := rfl
@[simp] theorem coreOf_unschedule (p : Item → Bool) (s : State) (k : Nat) : coreOf (unschedule p s) k = coreOf s k := rfl
@[simp] theorem coreOf_freshId (s : State) (k : Nat) : coreOf (freshId s).2 k = coreOf s k := rfl

@[simp] theorem coreOf_setWeight (k : Nat) (e : Eff) (s : State) (j : Nat) : coreOf (setWeight k e s) j = coreOf s j := by
  unfold setWeight; split <;> rfl

theorem rodOf_updRod (s : State) (r q : Nat) (f : Rod → Rod) : rodOf (updRod s r f) q = if q = r then f (rodOf s r) else rodOf s q := by
  simp only [rodOf, updRod, Table.get_set]

theorem dieAt_updDie (s : State) (d e : Nat) (f : Die → Die) : dieAt (updDie s d f) e = if e = d then f (dieAt s d) else dieAt s e := by
  simp only [dieAt, updDie, Table.get_set]

theorem homeOf_updHome (s : State) (l m : Nat) (f : HomeLine → HomeLine) : homeOf (updHome s l f) m = if m = l then f (homeOf s l) else homeOf s m := by
  simp only [homeOf, updHome, Table.get_set]

theorem domAt_updDom (s : State) (m n : Nat) (f : Domain → Domain) : domAt (updDom s m f) n = if n = m then f (domAt s m) else domAt s n := by
  simp only [domAt, updDom, Table.get_set]

@[simp] theorem slotAt_setSlot_same (c : Core) (i : Nat) (x : Slot) : slotAt (setSlot c i x) i = x := by
  simp [slotAt, setSlot, nth_setNth]

theorem slotAt_setSlot (c : Core) (i j : Nat) (x : Slot) : slotAt (setSlot c i x) j = if j = i then x else slotAt c j := by
  simp only [slotAt, setSlot, nth_setNth]

/-- Making a core issue changes no core but the cycle its issue is due in. -/
theorem coreOf_kick (k n : Nat) (s : State) (j : Nat) : ∃ a, coreOf (kick k n s) j = { coreOf s j with armed := a } ∧ (j ≠ k → a = (coreOf s j).armed) := by
  unfold kick
  simp only
  split
  · split
    · exact ⟨_, rfl, fun _ => rfl⟩
    · by_cases h : j = k
      · subst h; exact ⟨_, by rw [coreOf_pushAt, coreOf_setCore_same], fun h => absurd rfl h⟩
      · exact ⟨_, by rw [coreOf_pushAt, coreOf_setCore_ne _ _ h], fun _ => rfl⟩
  · by_cases h : j = k
    · subst h; exact ⟨_, by rw [coreOf_pushAt, coreOf_setCore_same], fun h => absurd rfl h⟩
    · exact ⟨_, by rw [coreOf_pushAt, coreOf_setCore_ne _ _ h], fun _ => rfl⟩

end Sys2Proof.Machine
end

