-- ==== Sys2Proof/Laws/Accesses.lean ====
section
/-!
SUPPORT. Accesses: what an update of the accesses on their way leaves as it was, and what an access reads as after it.
-/

namespace Sys2Proof.Machine

/-! putAcc. -/

@[simp] theorem putAcc_cycle (id : Nat) (x : Acc) (s : State) : (putAcc id x s).cycle = s.cycle := rfl
@[simp] theorem putAcc_agenda (id : Nat) (x : Acc) (s : State) : (putAcc id x s).agenda = s.agenda := rfl
@[simp] theorem putAcc_turn (id : Nat) (x : Acc) (s : State) : (putAcc id x s).turn = s.turn := rfl
@[simp] theorem putAcc_cur (id : Nat) (x : Acc) (s : State) : (putAcc id x s).cur = s.cur := rfl
@[simp] theorem putAcc_args (id : Nat) (x : Acc) (s : State) : (putAcc id x s).args = s.args := rfl
@[simp] theorem putAcc_free (id : Nat) (x : Acc) (s : State) : (putAcc id x s).free = s.free := rfl
@[simp] theorem putAcc_nextId (id : Nat) (x : Acc) (s : State) : (putAcc id x s).nextId = s.nextId := rfl
@[simp] theorem putAcc_cores (id : Nat) (x : Acc) (s : State) : (putAcc id x s).cores = s.cores := rfl
@[simp] theorem putAcc_protos (id : Nat) (x : Acc) (s : State) : (putAcc id x s).protos = s.protos := rfl
@[simp] theorem putAcc_rods (id : Nat) (x : Acc) (s : State) : (putAcc id x s).rods = s.rods := rfl
@[simp] theorem putAcc_frames (id : Nat) (x : Acc) (s : State) : (putAcc id x s).frames = s.frames := rfl
@[simp] theorem putAcc_dies (id : Nat) (x : Acc) (s : State) : (putAcc id x s).dies = s.dies := rfl
@[simp] theorem putAcc_domains (id : Nat) (x : Acc) (s : State) : (putAcc id x s).domains = s.domains := rfl
@[simp] theorem putAcc_dram (id : Nat) (x : Acc) (s : State) : (putAcc id x s).dram = s.dram := rfl
@[simp] theorem putAcc_homes (id : Nat) (x : Acc) (s : State) : (putAcc id x s).homes = s.homes := rfl
@[simp] theorem putAcc_llc (id : Nat) (x : Acc) (s : State) : (putAcc id x s).llc = s.llc := rfl
@[simp] theorem putAcc_msgs (id : Nat) (x : Acc) (s : State) : (putAcc id x s).msgs = s.msgs := rfl
@[simp] theorem putAcc_walks (id : Nat) (x : Acc) (s : State) : (putAcc id x s).walks = s.walks := rfl
@[simp] theorem putAcc_flights (id : Nat) (x : Acc) (s : State) : (putAcc id x s).flights = s.flights := rfl
@[simp] theorem putAcc_modRound (id : Nat) (x : Acc) (s : State) : (putAcc id x s).modRound = s.modRound := rfl
@[simp] theorem putAcc_modActive (id : Nat) (x : Acc) (s : State) : (putAcc id x s).modActive = s.modActive := rfl
@[simp] theorem putAcc_modSample (id : Nat) (x : Acc) (s : State) : (putAcc id x s).modSample = s.modSample := rfl
@[simp] theorem putAcc_host (id : Nat) (x : Acc) (s : State) : (putAcc id x s).host = s.host := rfl
@[simp] theorem putAcc_module (id : Nat) (x : Acc) (s : State) : (putAcc id x s).module = s.module := rfl
@[simp] theorem putAcc_lcs (id : Nat) (x : Acc) (s : State) : (putAcc id x s).lcs = s.lcs := rfl
@[simp] theorem putAcc_lcsNext (id : Nat) (x : Acc) (s : State) : (putAcc id x s).lcsNext = s.lcsNext := rfl
@[simp] theorem putAcc_wiping (id : Nat) (x : Acc) (s : State) : (putAcc id x s).wiping = s.wiping := rfl
@[simp] theorem putAcc_alarm (id : Nat) (x : Acc) (s : State) : (putAcc id x s).alarm = s.alarm := rfl
@[simp] theorem putAcc_dieBusy (id : Nat) (x : Acc) (s : State) : (putAcc id x s).dieBusy = s.dieBusy := rfl
@[simp] theorem putAcc_tlbVa (id : Nat) (x : Acc) (s : State) : (putAcc id x s).tlbVa = s.tlbVa := rfl
@[simp] theorem putAcc_tlbDies (id : Nat) (x : Acc) (s : State) : (putAcc id x s).tlbDies = s.tlbDies := rfl
@[simp] theorem putAcc_tlbMode (id : Nat) (x : Acc) (s : State) : (putAcc id x s).tlbMode = s.tlbMode := rfl
@[simp] theorem putAcc_tlbBusy (id : Nat) (x : Acc) (s : State) : (putAcc id x s).tlbBusy = s.tlbBusy := rfl
@[simp] theorem putAcc_launch (id : Nat) (x : Acc) (s : State) : (putAcc id x s).launch = s.launch := rfl
@[simp] theorem putAcc_lastServed (id : Nat) (x : Acc) (s : State) : (putAcc id x s).lastServed = s.lastServed := rfl
@[simp] theorem putAcc_funcs (id : Nat) (x : Acc) (s : State) : (putAcc id x s).funcs = s.funcs := rfl
@[simp] theorem putAcc_ports (id : Nat) (x : Acc) (s : State) : (putAcc id x s).ports = s.ports := rfl
@[simp] theorem putAcc_acl (id : Nat) (x : Acc) (s : State) : (putAcc id x s).acl = s.acl := rfl
@[simp] theorem putAcc_powerLimit (id : Nat) (x : Acc) (s : State) : (putAcc id x s).powerLimit = s.powerLimit := rfl
@[simp] theorem putAcc_below (id : Nat) (x : Acc) (s : State) : (putAcc id x s).below = s.below := rfl
@[simp] theorem putAcc_clock (id : Nat) (x : Acc) (s : State) : (putAcc id x s).clock = s.clock := rfl
@[simp] theorem putAcc_clockNext (id : Nat) (x : Acc) (s : State) : (putAcc id x s).clockNext = s.clockNext := rfl
@[simp] theorem putAcc_clockWait (id : Nat) (x : Acc) (s : State) : (putAcc id x s).clockWait = s.clockWait := rfl
@[simp] theorem putAcc_flash (id : Nat) (x : Acc) (s : State) : (putAcc id x s).flash = s.flash := rfl
@[simp] theorem putAcc_booted (id : Nat) (x : Acc) (s : State) : (putAcc id x s).booted = s.booted := rfl
@[simp] theorem putAcc_measure (id : Nat) (x : Acc) (s : State) : (putAcc id x s).measure = s.measure := rfl
@[simp] theorem putAcc_reply (id : Nat) (x : Acc) (s : State) : (putAcc id x s).reply = s.reply := rfl

/-! dropAcc. -/

@[simp] theorem dropAcc_cycle (id : Nat) (s : State) : (dropAcc id s).cycle = s.cycle := rfl
@[simp] theorem dropAcc_agenda (id : Nat) (s : State) : (dropAcc id s).agenda = s.agenda := rfl
@[simp] theorem dropAcc_turn (id : Nat) (s : State) : (dropAcc id s).turn = s.turn := rfl
@[simp] theorem dropAcc_cur (id : Nat) (s : State) : (dropAcc id s).cur = s.cur := rfl
@[simp] theorem dropAcc_args (id : Nat) (s : State) : (dropAcc id s).args = s.args := rfl
@[simp] theorem dropAcc_free (id : Nat) (s : State) : (dropAcc id s).free = s.free := rfl
@[simp] theorem dropAcc_nextId (id : Nat) (s : State) : (dropAcc id s).nextId = s.nextId := rfl
@[simp] theorem dropAcc_cores (id : Nat) (s : State) : (dropAcc id s).cores = s.cores := rfl
@[simp] theorem dropAcc_protos (id : Nat) (s : State) : (dropAcc id s).protos = s.protos := rfl
@[simp] theorem dropAcc_rods (id : Nat) (s : State) : (dropAcc id s).rods = s.rods := rfl
@[simp] theorem dropAcc_frames (id : Nat) (s : State) : (dropAcc id s).frames = s.frames := rfl
@[simp] theorem dropAcc_dies (id : Nat) (s : State) : (dropAcc id s).dies = s.dies := rfl
@[simp] theorem dropAcc_domains (id : Nat) (s : State) : (dropAcc id s).domains = s.domains := rfl
@[simp] theorem dropAcc_dram (id : Nat) (s : State) : (dropAcc id s).dram = s.dram := rfl
@[simp] theorem dropAcc_homes (id : Nat) (s : State) : (dropAcc id s).homes = s.homes := rfl
@[simp] theorem dropAcc_llc (id : Nat) (s : State) : (dropAcc id s).llc = s.llc := rfl
@[simp] theorem dropAcc_msgs (id : Nat) (s : State) : (dropAcc id s).msgs = s.msgs := rfl
@[simp] theorem dropAcc_walks (id : Nat) (s : State) : (dropAcc id s).walks = s.walks := rfl
@[simp] theorem dropAcc_flights (id : Nat) (s : State) : (dropAcc id s).flights = s.flights := rfl
@[simp] theorem dropAcc_modRound (id : Nat) (s : State) : (dropAcc id s).modRound = s.modRound := rfl
@[simp] theorem dropAcc_modActive (id : Nat) (s : State) : (dropAcc id s).modActive = s.modActive := rfl
@[simp] theorem dropAcc_modSample (id : Nat) (s : State) : (dropAcc id s).modSample = s.modSample := rfl
@[simp] theorem dropAcc_host (id : Nat) (s : State) : (dropAcc id s).host = s.host := rfl
@[simp] theorem dropAcc_module (id : Nat) (s : State) : (dropAcc id s).module = s.module := rfl
@[simp] theorem dropAcc_lcs (id : Nat) (s : State) : (dropAcc id s).lcs = s.lcs := rfl
@[simp] theorem dropAcc_lcsNext (id : Nat) (s : State) : (dropAcc id s).lcsNext = s.lcsNext := rfl
@[simp] theorem dropAcc_wiping (id : Nat) (s : State) : (dropAcc id s).wiping = s.wiping := rfl
@[simp] theorem dropAcc_alarm (id : Nat) (s : State) : (dropAcc id s).alarm = s.alarm := rfl
@[simp] theorem dropAcc_dieBusy (id : Nat) (s : State) : (dropAcc id s).dieBusy = s.dieBusy := rfl
@[simp] theorem dropAcc_tlbVa (id : Nat) (s : State) : (dropAcc id s).tlbVa = s.tlbVa := rfl
@[simp] theorem dropAcc_tlbDies (id : Nat) (s : State) : (dropAcc id s).tlbDies = s.tlbDies := rfl
@[simp] theorem dropAcc_tlbMode (id : Nat) (s : State) : (dropAcc id s).tlbMode = s.tlbMode := rfl
@[simp] theorem dropAcc_tlbBusy (id : Nat) (s : State) : (dropAcc id s).tlbBusy = s.tlbBusy := rfl
@[simp] theorem dropAcc_launch (id : Nat) (s : State) : (dropAcc id s).launch = s.launch := rfl
@[simp] theorem dropAcc_lastServed (id : Nat) (s : State) : (dropAcc id s).lastServed = s.lastServed := rfl
@[simp] theorem dropAcc_funcs (id : Nat) (s : State) : (dropAcc id s).funcs = s.funcs := rfl
@[simp] theorem dropAcc_ports (id : Nat) (s : State) : (dropAcc id s).ports = s.ports := rfl
@[simp] theorem dropAcc_acl (id : Nat) (s : State) : (dropAcc id s).acl = s.acl := rfl
@[simp] theorem dropAcc_powerLimit (id : Nat) (s : State) : (dropAcc id s).powerLimit = s.powerLimit := rfl
@[simp] theorem dropAcc_below (id : Nat) (s : State) : (dropAcc id s).below = s.below := rfl
@[simp] theorem dropAcc_clock (id : Nat) (s : State) : (dropAcc id s).clock = s.clock := rfl
@[simp] theorem dropAcc_clockNext (id : Nat) (s : State) : (dropAcc id s).clockNext = s.clockNext := rfl
@[simp] theorem dropAcc_clockWait (id : Nat) (s : State) : (dropAcc id s).clockWait = s.clockWait := rfl
@[simp] theorem dropAcc_flash (id : Nat) (s : State) : (dropAcc id s).flash = s.flash := rfl
@[simp] theorem dropAcc_booted (id : Nat) (s : State) : (dropAcc id s).booted = s.booted := rfl
@[simp] theorem dropAcc_measure (id : Nat) (s : State) : (dropAcc id s).measure = s.measure := rfl
@[simp] theorem dropAcc_reply (id : Nat) (s : State) : (dropAcc id s).reply = s.reply := rfl

@[simp] theorem accAt_putAcc_same (id : Nat) (x : Acc) (s : State) : accAt (putAcc id x s) id = x := by
  simp only [accAt, putAcc, Table.get_set, if_true]

theorem accAt_putAcc (id j : Nat) (x : Acc) (s : State) : accAt (putAcc id x s) j = if j = id then x else accAt s j := by
  simp only [accAt, putAcc, Table.get_set]

/-! Ages of blocks (log 61): they change alone. -/

@[simp] theorem l1Raise_lm (m n : Nat) (c : Core) : (l1Raise m n c).lm = c.lm := rfl
@[simp] theorem l1Raise_wsp (m n : Nat) (c : Core) : (l1Raise m n c).wsp = c.wsp := rfl
@[simp] theorem l1Raise_lmspill (m n : Nat) (c : Core) : (l1Raise m n c).lmspill = c.lmspill := rfl
@[simp] theorem l1Raise_lmscr (m n : Nat) (c : Core) : (l1Raise m n c).lmscr = c.lmscr := rfl
@[simp] theorem l1Raise_lml1 (m n : Nat) (c : Core) : (l1Raise m n c).lml1 = c.lml1 := rfl
@[simp] theorem l1Raise_tvec (m n : Nat) (c : Core) : (l1Raise m n c).tvec = c.tvec := rfl
@[simp] theorem l1Raise_carve (m n : Nat) (c : Core) : (l1Raise m n c).carve = c.carve := rfl
@[simp] theorem l1Raise_slots (m n : Nat) (c : Core) : (l1Raise m n c).slots = c.slots := rfl
@[simp] theorem l1Raise_buf (m n : Nat) (c : Core) : (l1Raise m n c).buf = c.buf := rfl
@[simp] theorem l1Raise_l1 (m n : Nat) (c : Core) : (l1Raise m n c).l1 = c.l1 := rfl
@[simp] theorem l1Raise_l1Gen (m n : Nat) (c : Core) : (l1Raise m n c).l1Gen = c.l1Gen := rfl
@[simp] theorem l1Raise_busy (m n : Nat) (c : Core) : (l1Raise m n c).busy = c.busy := rfl
@[simp] theorem l1Raise_gangBase (m n : Nat) (c : Core) : (l1Raise m n c).gangBase = c.gangBase := rfl
@[simp] theorem l1Raise_gangSize (m n : Nat) (c : Core) : (l1Raise m n c).gangSize = c.gangSize := rfl
@[simp] theorem l1Raise_serving (m n : Nat) (c : Core) : (l1Raise m n c).serving = c.serving := rfl
@[simp] theorem l1Raise_pfx (m n : Nat) (c : Core) : (l1Raise m n c).pfx = c.pfx := rfl
@[simp] theorem l1Raise_queues (m n : Nat) (c : Core) : (l1Raise m n c).queues = c.queues := rfl
@[simp] theorem l1Raise_jobs (m n : Nat) (c : Core) : (l1Raise m n c).jobs = c.jobs := rfl
@[simp] theorem l1Raise_wseq (m n : Nat) (c : Core) : (l1Raise m n c).wseq = c.wseq := rfl
@[simp] theorem l1Raise_wack (m n : Nat) (c : Core) : (l1Raise m n c).wack = c.wack := rfl
@[simp] theorem l1Raise_bound (m n : Nat) (c : Core) : (l1Raise m n c).bound = c.bound := rfl

@[simp] theorem l1Bar_lm (sec : Nat) (c : Core) : (l1Bar sec c).lm = c.lm := rfl
@[simp] theorem l1Bar_wsp (sec : Nat) (c : Core) : (l1Bar sec c).wsp = c.wsp := rfl
@[simp] theorem l1Bar_lmspill (sec : Nat) (c : Core) : (l1Bar sec c).lmspill = c.lmspill := rfl
@[simp] theorem l1Bar_lmscr (sec : Nat) (c : Core) : (l1Bar sec c).lmscr = c.lmscr := rfl
@[simp] theorem l1Bar_lml1 (sec : Nat) (c : Core) : (l1Bar sec c).lml1 = c.lml1 := rfl
@[simp] theorem l1Bar_tvec (sec : Nat) (c : Core) : (l1Bar sec c).tvec = c.tvec := rfl
@[simp] theorem l1Bar_carve (sec : Nat) (c : Core) : (l1Bar sec c).carve = c.carve := rfl
@[simp] theorem l1Bar_slots (sec : Nat) (c : Core) : (l1Bar sec c).slots = c.slots := rfl
@[simp] theorem l1Bar_buf (sec : Nat) (c : Core) : (l1Bar sec c).buf = c.buf := rfl
@[simp] theorem l1Bar_l1 (sec : Nat) (c : Core) : (l1Bar sec c).l1 = c.l1 := rfl
@[simp] theorem l1Bar_l1Gen (sec : Nat) (c : Core) : (l1Bar sec c).l1Gen = c.l1Gen := rfl
@[simp] theorem l1Bar_busy (sec : Nat) (c : Core) : (l1Bar sec c).busy = c.busy := rfl
@[simp] theorem l1Bar_gangBase (sec : Nat) (c : Core) : (l1Bar sec c).gangBase = c.gangBase := rfl
@[simp] theorem l1Bar_gangSize (sec : Nat) (c : Core) : (l1Bar sec c).gangSize = c.gangSize := rfl
@[simp] theorem l1Bar_serving (sec : Nat) (c : Core) : (l1Bar sec c).serving = c.serving := rfl
@[simp] theorem l1Bar_pfx (sec : Nat) (c : Core) : (l1Bar sec c).pfx = c.pfx := rfl
@[simp] theorem l1Bar_queues (sec : Nat) (c : Core) : (l1Bar sec c).queues = c.queues := rfl
@[simp] theorem l1Bar_jobs (sec : Nat) (c : Core) : (l1Bar sec c).jobs = c.jobs := rfl
@[simp] theorem l1Bar_wseq (sec : Nat) (c : Core) : (l1Bar sec c).wseq = c.wseq := rfl
@[simp] theorem l1Bar_wack (sec : Nat) (c : Core) : (l1Bar sec c).wack = c.wack := rfl
@[simp] theorem l1Bar_bound (sec : Nat) (c : Core) : (l1Bar sec c).bound = c.bound := rfl

/-- Ages aside, a core that has heard of others, or has ordered its later loads, is as before. -/
theorem l1Heard_eq (c : Core) : l1Heard c = { c with l1Age := (l1Heard c).l1Age } := rfl
theorem l1Order_eq (c : Core) : l1Order c = { c with l1Age := (l1Order c).l1Age } := rfl

end Sys2Proof.Machine
end

