-- ==== Sys2Proof/Laws/Run.lean ====
section
/-!
SUPPORT. Run: what the operations that run an instruction on its own core can do: complete with its effect, or take its trap.
-/

namespace Sys2Proof.Machine

/-- A core differs from another in its write buffer and its counts of stalls alone. -/
def CostOnly (c c' : Core) : Prop :=
  c' = { c with buf := c'.buf, bufClock := c'.bufClock, stall0 := c'.stall0, stall1 := c'.stall1, stall2 := c'.stall2 }

theorem CostOnly.rfl {c : Core} : CostOnly c c := Eq.refl _

theorem CostOnly.trans {a b c : Core} (h : CostOnly a b) (h' : CostOnly b c) : CostOnly a c := by
  unfold CostOnly at h h' ⊢
  rw [h] at h'
  exact h'

theorem costOnly_charge (c : Core) (b n : Nat) : CostOnly c (charge c b n) := by
  unfold charge; split <;> exact Eq.refl _

theorem costOnly_enterRows (l : List Nat) : ∀ c : Core, CostOnly c (enterRows c l).1 := by
  induction l with
  | nil => exact fun c => .rfl
  | cons r l ih =>
    intro c
    unfold enterRows
    split
    · exact ih c
    · split
      · next old x more _ =>
        have h0 : CostOnly c { c with buf := x :: more ++ [r] } := Eq.refl _
        exact (h0.trans (costOnly_charge _ _ _)).trans (ih _)
      · next buf _ =>
        have h0 : CostOnly c { c with buf := buf ++ [r] } := Eq.refl _
        exact h0.trans (ih _)

/-- The cost of an instruction concerns the write buffer and the counts of stalls alone. -/
theorem costOnly_account (c : Core) (cycle : Nat) (rd wr direct bank : List Nat) (base : Nat) :
    CostOnly c (account c cycle rd wr direct bank base).1 := by
  have h0 : CostOnly c (retireIdle c cycle) := Eq.refl _
  have hb : ∀ (x : Core) (b : List Nat), CostOnly x { x with buf := b } := fun _ _ => Eq.refl _
  have hc : ∀ (x : Core) (b : List Nat) (n : Nat), CostOnly x { x with buf := b, bufClock := n } := fun _ _ _ => Eq.refl _
  unfold account
  dsimp only
  exact ((((((h0.trans (hb _ _)).trans (costOnly_charge _ _ _)).trans (costOnly_charge _ _ _)).trans (costOnly_charge _ _ _)).trans (hb _ _)).trans
    (costOnly_enterRows _ _)).trans (hc _ _ _)

/-- The PC that an effect leads to. -/
def effPc (c : Core) (len : Nat) (e : Eff) : Nat := match e.jump with | some t => t % 2 ^ 32 | none => pcAfter c len

theorem pcAfter_eq (c : Core) (len : Nat) : pcAfter c len = ((slotAt c (curSlot c)).pc + (if c.pfx.isSome then 4 else 0) + len) % 2 ^ 32 := by
  unfold pcAfter insPc
  dsimp only
  split <;> omega

/-- An instruction's end: its effect, its PC; the rest is cost. -/
theorem finish_eq (cycle len : Nat) (e : Eff) (hpost : e.post = id) :
    Advanced e.core (finish cycle len e).1 (match e.jump with | some t => t % 2 ^ 32 | none => pcAfter e.core len) := by
  have h := costOnly_account e.core cycle e.rd e.wr e.direct e.bank e.cost
  unfold CostOnly at h
  unfold finish Advanced
  dsimp only
  rw [hpost, h, pcAfter_eq]
  rfl

/-- A completed instruction in terms of its effect on a core. -/
theorem completesAs_of_complete {i : Instr} {s : State} {len : Nat} (e : Eff) (hw : e.weight = none) (hpost : e.post = id)
    (h : exec i s = .next (kick s.cur (max (s.cycle + (finish s.cycle len e).2) (finish s.cycle len e).1.busy)
      (setWeight s.cur e (setCore s s.cur (finish s.cycle len e).1)))) :
    CompletesAs i s e.core (match e.jump with | some t => t % 2 ^ 32 | none => pcAfter e.core len) := by
  have hs : setWeight s.cur e (setCore s s.cur (finish s.cycle len e).1) = setCore s s.cur (finish s.cycle len e).1 := by
    unfold setWeight; rw [hw]
  rw [hs] at h
  refine ⟨_, h, ?_, ?_, ?_⟩
  · unfold kick
    dsimp only
    (repeat' split) <;> rfl
  · intro k hk
    obtain ⟨a, ha, hn⟩ := coreOf_kick s.cur (max (s.cycle + (finish s.cycle len e).2) (finish s.cycle len e).1.busy) (setCore s s.cur (finish s.cycle len e).1) k
    rw [ha, hn hk, coreOf_setCore_ne _ _ hk]
  · obtain ⟨a, ha, -⟩ := coreOf_kick s.cur (max (s.cycle + (finish s.cycle len e).2) (finish s.cycle len e).1.busy) (setCore s s.cur (finish s.cycle len e).1) s.cur
    rw [ha, coreOf_setCore_same]
    have := finish_eq s.cycle len e hpost
    unfold Advanced at this ⊢
    rw [this]

/-- A local instruction outside a gang completes with its effect. -/
theorem completesAs_of_runAt {i : Instr} {s : State} {use : GangUse} {len : Nat} {f : Nat → Local} (hi : exec i s = runAt use len f s) (hs : Solo s)
    {e : Eff} (hf : f s.cur (self s) (insPc (self s)) = .ok e) (hw : e.weight = none) (hpost : e.post = id) :
    CompletesAs i s e.core (match e.jump with | some t => t % 2 ^ 32 | none => pcAfter e.core len) := by
  apply completesAs_of_complete e hw hpost
  rw [hi]
  unfold runAt
  unfold Solo at hs
  unfold self at hf
  simp only [hs, ne_eq, not_true_eq_false, false_and, if_false, hf]

/-- A local instruction outside a gang takes its trap. -/
theorem traps_of_runAt {i : Instr} {s : State} {use : GangUse} {len : Nat} {f : Nat → Local} (hi : exec i s = runAt use len f s) (hs : Solo s)
    {t : Trap} (hf : f s.cur (self s) (insPc (self s)) = .error t) : Traps i s t := by
  unfold Traps
  rw [hi]
  unfold runAt notInGang
  unfold Solo at hs
  unfold self at hf
  simp only [hs, ne_eq, not_true_eq_false, false_and, if_false, hf]

/-- A global instruction outside a gang takes the trap its checks find. -/
theorem traps_of_runGlobal {i : Instr} {s : State} {check : Core → Nat → Option Trap} {act : State → State} (hi : exec i s = runGlobal check act s)
    (hs : Solo s) {t : Trap} (hc : check (self s) (insPc (self s)) = some t) : Traps i s t := by
  unfold Traps
  rw [hi]
  unfold runGlobal notInGang
  unfold Solo at hs
  unfold self at hc
  simp only [hs, ne_eq, not_true_eq_false, false_and, if_false, hc]

/-- A global instruction outside a gang acts once its checks pass. -/
theorem acts_of_runGlobal {i : Instr} {s : State} {check : Core → Nat → Option Trap} {act : State → State} (hi : exec i s = runGlobal check act s)
    (hs : Solo s) (hc : check (self s) (insPc (self s)) = none) : exec i s = .next (act s) := by
  rw [hi]
  unfold runGlobal
  unfold Solo at hs
  unfold self at hc
  simp only [hs, ne_eq, not_true_eq_false, if_false, hc]

end Sys2Proof.Machine
end

