-- ==== Sys2Proof/Laws/Registers.lean ====
section
/-!
SUPPORT. Registers: a register is written in local memory alone, and in its own bytes alone.
-/

namespace Sys2Proof.Machine

theorem SameOutside.rfl {l : List (Nat × Nat)} {m : Mem} : SameOutside l m m := fun _ _ => Eq.refl _

theorem SameOutside.trans {l : List (Nat × Nat)} {a b c : Mem} (h : SameOutside l a b) (h' : SameOutside l b c) : SameOutside l a c :=
  fun x hx => (h' x hx).trans (h x hx)

/-- A memory that differs in fewer spans differs in more. -/
theorem SameOutside.mono {l l' : List (Nat × Nat)} {a b : Mem} (hl : ∀ r ∈ l, r ∈ l') (h : SameOutside l a b) : SameOutside l' a b :=
  fun _ hx => h _ fun r hr => hx r (hl r hr)

theorem sameOutside_write (m : Mem) (a n v : Nat) : SameOutside [(a, n)] m (Memory.write m a n v) :=
  fun _ hx => Memory.get_write_out _ _ _ _ _ (hx _ (.head _))

theorem lmWrite_eq (c : Core) (a n v : Nat) : lmWrite c a n v = { c with lm := (lmWrite c a n v).lm } := Eq.refl _

theorem wrW_eq (c : Core) (n v : Nat) : wrW c n v = { c with lm := (wrW c n v).lm } := by unfold wrW; split <;> exact Eq.refl _
theorem wrX_eq (c : Core) (n v : Nat) : wrX c n v = { c with lm := (wrX c n v).lm } := by unfold wrX; split <;> exact Eq.refl _
theorem wrR_eq (c : Core) (t n v : Nat) : wrR c t n v = { c with lm := (wrR c t n v).lm } := by
  unfold wrR; split
  · exact wrW_eq c n v
  · exact wrX_eq c n v
theorem wrV_eq (c : Core) (n v : Nat) : wrV c n v = { c with lm := (wrV c n v).lm } := Eq.refl _
theorem wrM_eq (c : Core) (n v : Nat) : wrM c n v = { c with lm := (wrM c n v).lm } := by unfold wrM; split <;> exact Eq.refl _
theorem wrE_eq (c : Core) (n v : Nat) : wrE c n v = { c with lm := (wrE c n v).lm } := Eq.refl _
theorem wrP_eq (c : Core) (n v : Nat) : wrP c n v = { c with lm := (wrP c n v).lm } := Eq.refl _
theorem raise_eq (c : Core) (f : Nat) : raise c f = { c with lm := (raise c f).lm } := by unfold raise; split <;> exact Eq.refl _

theorem same_wrW (c : Core) (n v : Nat) : SameOutside [spanW c n] c.lm (wrW c n v).lm := by
  unfold wrW spanW
  split
  · exact .rfl
  · exact sameOutside_write _ _ _ _

theorem same_wrX (c : Core) (n v : Nat) : SameOutside [spanX c n] c.lm (wrX c n v).lm := by
  unfold wrX spanX
  split <;> exact sameOutside_write _ _ _ _

theorem same_wrR (c : Core) (t n v : Nat) : SameOutside [spanR c t n] c.lm (wrR c t n v).lm := by
  unfold wrR spanR
  split
  · exact same_wrW c n v
  · exact same_wrX c n v

theorem same_wrV (c : Core) (n v : Nat) : SameOutside [spanV c n] c.lm (wrV c n v).lm := sameOutside_write _ _ _ _

theorem same_wrM (c : Core) (n v : Nat) : SameOutside [spanM c n] c.lm (wrM c n v).lm := by
  unfold wrM spanM
  split
  · exact .rfl
  · exact sameOutside_write _ _ _ _

theorem same_wrE (c : Core) (n v : Nat) : SameOutside [spanE c n] c.lm (wrE c n v).lm := sameOutside_write _ _ _ _
theorem same_wrP (c : Core) (n v : Nat) : SameOutside [spanP c n] c.lm (wrP c n v).lm := sameOutside_write _ _ _ _

theorem same_raise (c : Core) (f : Nat) : SameOutside [spanFstat c] c.lm (raise c f).lm := by
  unfold raise
  split
  · exact sameOutside_write _ _ _ _
  · exact .rfl

/-- A core with another local memory has the same workspace, slots and PC. -/
theorem pcAfter_lm (c : Core) (m : Mem) (len : Nat) : pcAfter { c with lm := m } len = pcAfter c len := Eq.refl _

/-- A completed local instruction whose effect changes local memory alone and does not jump. -/
theorem completes_of_runAt {i : Instr} {s : State} {use : GangUse} {len : Nat} {f : Nat → Local} (hi : exec i s = runAt use len f s) (hs : Solo s)
    {x : Core} (hx : x = { self s with lm := x.lm }) (hf : ∃ rd wr cost, f s.cur (self s) (insPc (self s)) = eff x rd wr cost)
    {l : List (Nat × Nat)} (hl : SameOutside l (self s).lm x.lm) : Completes i s x.lm l (pcAfter (self s) len) := by
  refine ⟨hl, ?_⟩
  obtain ⟨_, _, _, hf⟩ := hf
  have h := completesAs_of_runAt hi hs hf (Eq.refl _) (Eq.refl _)
  dsimp only at h
  rwa [hx, pcAfter_lm] at h

end Sys2Proof.Machine
end

