-- ==== Sys2Proof/Tests/Slice0.lean ====
section
/-!
SUPPORT. Slice0: the model's own tests. Words are those of the manual's examples or are put together from the fixed bits and the fields that
spec/opcode_table.json gives the row; for each statement, states and operands that meet its hypotheses.
-/

namespace Sys2Proof.Tests

open Sys2Proof.Machine Sys2Proof.Claims

def reads (n : Nat) (q : List (Nat × Instr)) : Bool := q.all fun p => decodeTableWord n p.1 == some p.2
def refuses (q : List Instr) : Bool := q.all fun i => !wellFormed i

theorem test_decodes_major_01_a : reads 32
    [(0x0E077303, .add 7 14 14 6), (0x040FD883, .sub 2 15 11 1), (0x06154403, .mul 3 10 8 8), (0x0419EB83, .mulh 2 3 13 7),
     (0x04252183, .mulhn 2 10 4 3), (0x042FA203, .div 2 15 4 4), (0x0C34DF83, .divn 6 9 11 15), (0x043F5403, .rem 2 14 10 8),
     (0x0246D783, .remn 1 13 10 15), (0x024B5C83, .and 1 6 11 9), (0x0C507E03, .or 6 0 15 12), (0x005F8B03, .xor 0 15 1 6),
     (0x02614283, .andn 1 2 8 5), (0x0C69BA03, .orn 6 3 7 4)] = true := by decide

theorem test_decodes_major_01_b : reads 32
    [(0x04720E03, .shl 2 4 1 12), (0x087AD903, .shr 4 5 11 2), (0x0484F203, .sra 2 9 14 4), (0x0E8FAB83, .rotl 7 15 5 7),
     (0x0E961283, .min 7 12 2 5), (0x0298E683, .max 1 1 12 13), (0x06A73783, .minn 3 14 6 15), (0x06A88103, .maxn 3 1 0 2),
     (0x08B66903, .slt 4 12 13 2), (0x00BBD383, .sltn 0 7 10 7), (0x1EC1A983, .sel 1 7 3 5 3), (0x08C85403, .clz 4 10 8), (0x0AD00A03, .ctz 5 1 4),
     (0x04D85803, .popc 2 11 0)] = true := by decide

theorem test_decodes_major_01_c : reads 32
    [(0x04E00C03, .bswap 2 1 8)] = true := by decide

theorem test_decodes_halfword_op3_0_a : reads 16
    [(0x09B0, .add16 9 11), (0x1090, .sub16 0 9), (0x2DE0, .and16 13 14), (0x3020, .or16 0 2), (0x4250, .xor16 2 5), (0x5A60, .shl16 10 6),
     (0x6550, .shr16 5 5), (0x75E0, .sra16 5 14), (0x8660, .mov16 6 6), (0x9CE0, .min16 12 14), (0xAAA0, .max16 10 10), (0xBD90, .minn16 13 9),
     (0xCBE0, .maxn16 11 14), (0xDAF0, .mul16 10 15)] = true := by decide

theorem test_decodes_halfword_op3_0_b : reads 16
    [(0xE400, .slt16 4 0), (0xF7E0, .sltn16 7 14)] = true := by decide

theorem test_decodes_major_02 : reads 32
    [(0x4CE5E005, .addImmediate 39371 12 0)] = true := by decide

theorem test_decodes_halfword_op3_2 : reads 16
    [(0x3284, .addImmediate16 50 8)] = true := by decide

theorem test_decodes_major_03 : reads 32
    [(0xFCA50387, .lih 129354 7)] = true := by decide

theorem test_decodes_major_04_a : reads 32
    [(0xA0554589, .addK 5 170 8 11), (0x40BF9609, .subK 2 127 2 12), (0x2127CC09, .mulK 1 79 9 8), (0xE1EB0689, .mulhK 7 214 0 13),
     (0x22213089, .mulhnK 1 66 6 1), (0xC283D189, .divK 6 7 10 3), (0x2312ED09, .divnK 1 37 13 10), (0x439F8C09, .remK 2 63 1 8),
     (0x643B6389, .remnK 3 118 12 7), (0x64AF1289, .andK 3 94 2 5), (0x45225089, .orK 2 68 10 1), (0xE5986D09, .xorK 7 48 13 10),
     (0x4635F489, .andnK 2 107 14 9), (0xC6971489, .ornK 6 46 2 9)] = true := by decide

theorem test_decodes_major_04_b : reads 32
    [(0x8758DA09, .shlK 4 177 11 4), (0x87B17E89, .shrK 4 98 15 13), (0x68708A89, .sraK 3 225 1 5), (0x88B39809, .rotlK 4 103 3 0),
     (0xE9624C09, .minK 7 196 9 8), (0xA9DADF09, .maxK 5 181 11 14), (0x2A6A2C09, .minnK 1 212 5 8), (0xEABC9E89, .maxnK 7 121 3 13),
     (0x0B20EB09, .sltK 0 65 13 6), (0xAB8E4489, .sltnK 5 28 8 9), (0xDF9C0709, .ldk 6 56 14)] = true := by decide

theorem test_decodes_halfword_op3_1 : reads 16
    [(0x4E82, .ldk16 78 8)] = true := by decide

theorem test_decodes_major_05 : reads 32
    [(0x006E540B, .bext 6 28 10 8), (0x80782D0B, .bins 7 16 5 10)] = true := by decide

theorem test_decodes_major_08 : reads 32
    [(0x357C8711, .ld 3423 0 1 0 14)] = true := by decide

theorem test_decodes_major_09 : reads 32
    [(0xF8FAB893, .st 15934 1 1 7 1)] = true := by decide

theorem test_decodes_halfword_op3_5 : reads 16
    [(0x4FFA, .ld3216 2 15 15), (0xB1FA, .st3216 5 1 15)] = true := by decide

theorem test_decodes_major_0A : reads 32
    [(0x06007815, .push 3 15), (0x02080715, .pop 1 14)] = true := by decide

theorem test_decodes_major_0C : reads 32
    [(0xED380899, .beq 15182 1 1), (0xFDB4EE19, .bne 16237 13 12), (0x4BD91299, .blt 4854 2 5), (0xADD1A819, .bge 11124 5 0),
     (0x2DCA4A99, .bltn 2930 9 5), (0xFB46CB99, .bgen 16081 9 7), (0xCBCB0099, .bz 13042 1), (0x549F8199, .bnz 5415 3)] = true := by decide

theorem test_decodes_halfword_op3_3 : reads 16
    [(0x90C6, .bz16 72 12), (0xFBA6, .bnz16 125 10)] = true := by decide

theorem test_decodes_major_0D : reads 32
    [(0x565ED41B, .b 11320744)] = true := by decide

theorem test_decodes_halfword_op3_4 : reads 16
    [(0x3138, .b16 787)] = true := by decide

theorem test_decodes_major_0E : reads 32
    [(0xB2CC959D, .call 23435563)] = true := by decide

theorem test_decodes_major_0F : reads 32
    [(0x7F28069F, .loop 8138 13), (0x0000871F, .jr 14), (0x0001069F, .jalr 13), (0x0001801F, .ret)] = true := by decide

theorem test_decodes_major_10 : reads 32
    [(0x205E02A1, .ctlGet 1 188 5), (0x20F4F021, .ctlSet 1 233 14), (0x010062A1, .extSet 12 5), (0x01802A21, .extGet 5 4), (0x1FF08021, .brk 225),
     (0x1F000021, .nop)] = true := by decide

theorem test_decodes_major_1E : reads 32
    [(0x000050BD, .vectorPrefix 1 2 0 1)] = true := by decide

theorem test_decodes_major_16 : reads 32
    [(0x1205FA2D, .vadd 0 9 11 15 4), (0x2A0DFC2D, .vsub 1 5 11 15 8), (0x1617D2AD, .vmul 11 15 10 5), (0x1C1B0B2D, .vfma 14 6 1 6),
     (0x08212C2D, .vfms 4 2 5 8), (0x0A2D3EAD, .vfnma 5 10 7 13), (0x123039AD, .vmin 9 0 7 3), (0x003D8A2D, .vmax 0 11 1 4),
     (0xEA40542D, .vabs 7 5 10 8), (0x2448772D, .vneg 1 2 14 14)] = true := by decide

theorem test_decodes_major_17 : reads 32
    [(0x1404D3AF, .vand 10 9 10 7), (0x140833AF, .vor 10 0 6 7), (0x1E112A2F, .vxor 15 2 5 4), (0x0619AA2F, .vandn 3 3 5 4),
     (0xD02771AF, .vshl 6 8 14 14 3), (0x2A2CD82F, .vshr 1 5 9 11 0), (0x1031362F, .vsra 0 8 2 6 12)] = true := by decide

theorem test_decodes_major_18 : reads 32
    [(0x4A02C1B1, .vcmp 2 5 5 8 3), (0x920A68B1, .vsel 4 9 4 13 1)] = true := by decide

theorem test_decodes_major_19 : reads 32
    [(0xF402DFB3, .vcvt 3 1 10 5 11 15)] = true := by decide

theorem test_decodes_major_1A : reads 32
    [(0x16000A35, .vmov 11 1 4), (0x12084EB5, .vsplat 9 9 13), (0x38156B35, .vbcast 1 12 10 13 6), (0x161D6835, .vperm 11 10 13 0),
     (0x0821F0B5, .vrot 0 4 3 14 1), (0x6C29D9B5, .vzip 3 6 3 11 3), (0x083601B5, .vunzip 0 4 12 0 3), (0x8A387435, .vred 4 5 14 8),
     (0x02433E35, .vdot 1 6 7 12)] = true := by decide

theorem test_decodes_major_1B : reads 32
    [(0xA804C137, .vld 5 4 9 8 2), (0x800DA3B7, .vst 4 0 11 4 7), (0x14104037, .vldp 10 8 0), (0x0E187237, .vstp 7 14 4),
     (0x1E2124B7, .vgath 15 2 4 9), (0x1C2D7437, .vscat 14 10 14 8)] = true := by decide

theorem test_decodes_major_1C : reads 32
    [(0x04001339, .vfnExp2 2 2 6), (0x160818B9, .vfnExp 11 3 1), (0x1E107339, .vfnLog2 15 14 6), (0x04185E39, .vfnLog 2 11 12),
     (0x10206839, .vfnRcp 8 13 0), (0x022843B9, .vfnRsqrt 1 8 7), (0x16305C39, .vfnSqrt 11 11 8), (0x103824B9, .vfnSin 8 4 9),
     (0x18407BB9, .vfnCos 12 15 7), (0x1C481639, .vfnTanh 14 2 12), (0x1E5005B9, .vfnSigmoid 15 0 11), (0x145811B9, .vfnErf 10 2 3),
     (0x46835F39, .vexpr 2 3 6 11 14)] = true := by decide

theorem test_decodes_major_1D : reads 32
    [(0x9801903B, .sopAdd 4 12 3 2 0), (0x7608803B, .sopSub 3 11 1 0 0), (0x1C10813B, .sopMul 14 1 0 2), (0x2219813B, .sopFma 1 1 3 0 2),
     (0x182009BB, .sopMin 12 0 1 3), (0x0829983B, .sopMax 4 3 3 0), (0x3A3791BB, .sopCvt 1 13 15 2 3), (0x0080B9BB, .mand 1 7 3),
     (0x008B08BB, .mor 6 1 1), (0x0092903B, .mxor 5 2 0), (0x0098023B, .mnot 0 4), (0x12A0163B, .mpop 9 2 12), (0x1AA8363B, .mfirst 13 6 12),
     (0x00B03ABB, .mset 7 5)] = true := by decide

theorem test_decodes_major_20 : reads 32
    [(0x76003341, .ckMk 7 3 6 6), (0x060DAD41, .ckAx 3 11 5 10), (0xE81398C1, .ckAdd 14 4 7 3 1), (0x6C183141, .ckSub 6 6 0 6 2),
     (0x02223941, .ckCmp 1 4 7 2), (0x06292741, .ckDom 3 2 4 14), (0x0A31AF41, .ckInbox 5 3 5 14), (0xD8383241, .ckNext 13 4 0 6 4),
     (0xE242A141, .ckPrev 14 1 5 4 2), (0x764B0241, .ckClip 7 3 6 0 4), (0x0A503CC1, .ckChk 5 7 9)] = true := by decide

theorem test_decodes_major_21 : reads 32
    [(0xFC008DC3, .ckSplit 15 6 1 1 11), (0x1608C443, .vckAdd 1 3 1 8 8)] = true := by decide

theorem test_decodes_major_11 : reads 32
    [(0x000012A3, .spawn 2 5), (0x40861D23, .spawnBox 2 1 4 3 10), (0x01000023, .park 0 0), (0x02802AA3, .pauseW 5 5),
     (0x03978423, .gangForm 47 8), (0x01800023, .halt), (0x02000023, .pause), (0x03000023, .yield), (0x04000023, .gangEnd)] = true := by decide

theorem test_decodes_major_12 : reads 32
    [(0x005E0025, .emit 188), (0x00A51825, .emitV 74 3), (0x01740125, .test 232 2), (0x01CE06A5, .tval 156 13), (0x02388025, .cant 113),
     (0x22000025, .cantAll)] = true := by decide

theorem test_decodes_halfword_op3_6 : reads 16
    [(0xB14C, .emit16 177), (0x000C, .nop16), (0x002C, .halt16), (0x001C, .pause16), (0x003C, .yield16)] = true := by decide

theorem test_decodes_major_13 : reads 32
    [(0x00351827, .rgAbort 106 3), (0x00C81827, .rgAborts 144 3), (0x011D8027, .rgSusp 59), (0x01800027, .rgEnd)] = true := by decide

theorem test_decodes_major_14 : reads 32
    [(0x0040D029, .barInit 1 1 10), (0x00808229, .barArr 0 1 4), (0x0145E029, .barWait 1 11 12), (0x01C580A9, .barArrw 1 11 1)] = true := by decide

theorem test_decodes_major_15 : reads 32
    [(0x0000292B, .ctrWait 5 2), (0x0080762B, .qPut 0 14 12), (0x0100042B, .qPoll 0 8), (0x2100812B, .qPollNb 1 0 2)] = true := by decide

theorem test_decodes_major_22 : reads 32
    [(0x9E8A03C5, .gld 10146 1 0 0 7)] = true := by decide

theorem test_decodes_major_23 : reads 32
    [(0x57EE23C7, .gst 5627 1 0 4 7)] = true := by decide

theorem test_decodes_major_25 : reads 32
    [(0x2E94354B, .gldHome 23 5 6 10), (0x00B0304B, .gstHome 0 4 6 0), (0x0400004B, .fence 0 2), (0x0204384B, .pref 1 7), (0x0008284B, .cln 5),
     (0x000C304B, .inv 6), (0x020C004B, .invAll)] = true := by decide

theorem test_decodes_major_24 : reads 32
    [(0x0403AE49, .sld 0 7 5 12), (0x060F6D49, .sst 1 14 13 10), (0xD244C349, .amoAdd 13 0 1 9 8 6), (0xF6497649, .amoAnd 15 1 1 2 14 12),
     (0x965011C9, .amoOr 9 1 1 0 2 3), (0x505E50C9, .amoXor 5 0 0 12 10 1), (0xC6648B49, .amoMin 12 1 1 9 1 6), (0x466E2049, .amoMax 4 1 1 12 4 0),
     (0x867301C9, .amoMinn 8 1 1 6 0 3), (0xC47CBF49, .amoMaxn 12 1 0 9 7 14), (0x3481BF49, .amoSwap 3 1 0 3 7 14),
     (0xC488EBC9, .amoCas 12 1 0 1 13 7), (0xA0C009C9, .wait 10 0 0 1 3)] = true := by decide

theorem test_decodes_major_26 : reads 32
    [(0x0C01994D, .cpSend 1 1 0 3 3 2), (0x0804CFCD, .cpPut 1 0 0 1 9 15), (0x0E08C3CD, .cpRl 1 1 1 1 8 7), (0x020EB3CD, .cpHalo 0 0 1 5 6 7)] = true := by decide

theorem test_decodes_major_27 : reads 32
    [(0x0000804F, .mxCfg 1), (0x0005794F, .mxMm 0 2 15 2), (0x1809E5CF, .mcPost 6 0 3 12 11)] = true := by decide

theorem test_decodes_major_28 : reads 32
    [(0x00018051, .jobFence 3)] = true := by decide

theorem test_decodes_major_29 : reads 32
    [(0x000078D3, .mclTake 15 1), (0x04042FD3, .mclRead 2 5 15), (0xCA09B853, .mclPush 101 3 7), (0x000C0053, .mclDone)] = true := by decide

theorem test_decodes_major_2A : reads 32
    [(0x00006255, .wsSwOut 12 4), (0x200028D5, .wsSwIn 5 1), (0x00801055, .eret 2), (0x0080F855, .eretKill 15), (0x01030055, .sysc 6),
     (0x019DB855, .trap 59 7), (0x02002955, .tlbInv 0 5 2), (0x02801BD5, .fqTake 3 7), (0x22801E55, .fqTakeNb 3 12), (0x03241055, .fqDone 72 2),
     (0x04001D55, .wipeSec 3 10), (0x03800055, .idle)] = true := by decide

/-! Words that the manual prints beside their sources. -/

theorem test_decodes_printed_words_1 : reads 32
    [(0x00062183, .add 0 12 4 3), (0x00021983, .add 0 4 3 3), (0xFFFD9385, .addImmediate 131067 2 7), (0x0008AA89, .addK 0 17 5 5),
     (0x00114991, .ld 4 0 2 9 3), (0x00100937, .vldp 0 1 2), (0x00411245, .gld 16 0 2 2 4), (0x0690124B, .gldHome 3 4 2 4),
     (0xFFE8AA19, .bne 16378 5 4), (0x0001D5BD, .vectorPrefix 7 2 1 3), (0x001990AD, .vfma 0 3 2 1), (0xFFFC011F, .loop 16383 2),
     (0x00002815, .push 0 5), (0x00080295, .pop 0 5), (0x0001801F, .ret)] = true := by decide

theorem test_decodes_printed_words_2 : reads 32
    [(0x3F800089, .ldk 1 0 1), (0xC0020B43, .ckSplit 12 0 4 1 6), (0x000828B5, .vsplat 0 5 1), (0x003808AD, .vmax 0 0 1 1),
     (0x40380BB5, .vred 2 0 1 7), (0x010021A1, .extSet 4 3), (0x40810039, .vexpr 2 0 2 0 0), (0x00000039, .vfnExp2 0 0 0),
     (0x002019B9, .vfnRcp 0 3 3), (0x0011802D, .vmul 0 3 0 0), (0x200402A1, .ctlGet 1 8 5), (0x22000025, .cantAll), (0x00814827, .rgAborts 2 9),
     (0x01008725, .test 1 14), (0x00D1918B, .bext 13 3 2 3)] = true := by decide

theorem test_decodes_printed_words_3 : reads 32
    [(0x80E8450B, .bins 14 16 8 10), (0x000877CD, .cpRl 0 0 0 0 14 15), (0x00002B2B, .ctrWait 5 6), (0x1F808021, .brk 1), (0x0002804F, .mxCfg 5),
     (0x000455CF, .mxMm 0 0 10 11), (0x00800729, .barArr 0 0 14), (0x01007029, .barWait 0 0 14), (0x0800004B, .fence 1 0),
     (0x000388C5, .gld 0 1 3 1 1), (0x000388C7, .gst 0 1 3 1 1), (0x200A0889, .addK 1 20 1 1), (0x50C4B3C9, .wait 5 0 9 6 7),
     (0x028021D5, .fqTake 4 3), (0x0001A391, .ld 0 0 3 4 7)] = true := by decide

theorem test_decodes_printed_words_4 : reads 32
    [(0x025ABB83, .xor 1 5 7 7), (0x0001AB47, .gst 0 0 3 5 6), (0x03001855, .fqDone 0 3), (0x03009855, .fqDone 1 3), (0x01028055, .sysc 5),
     (0x00800855, .eret 1), (0x00002155, .wsSwOut 4 2), (0x300010C1, .ckMk 3 0 2 1), (0x00088A41, .ckAx 0 1 1 4), (0x501109C1, .ckAdd 5 0 2 1 3),
     (0x002108C1, .ckCmp 0 2 1 1), (0x00320B41, .ckInbox 0 4 1 6), (0x723A1141, .ckNext 7 1 4 2 2), (0x06503141, .ckChk 3 6 2),
     (0x440990C3, .vckAdd 4 2 3 2 1)] = true := by decide

theorem test_decodes_printed_halfwords : reads 16
    [(0x0430, .add16 4 3), (0x7F74, .addImmediate16 127 7), (0xF062, .ldk16 240 6), (0x893A, .ld3216 4 9 3), (0x0C4C, .emit16 12),
     (0x000C, .nop16), (0x001C, .pause16), (0x002C, .halt16), (0x003C, .yield16)] = true := by decide

theorem test_refuses_ill_formed_major_01_1 : refuses
    [.add 8 0 0 0, .add 0 16 0 0, .add 0 0 16 0, .add 0 0 0 16, .sub 8 0 0 0, .sub 0 16 0 0, .sub 0 0 16 0, .sub 0 0 0 16, .mul 8 0 0 0,
     .mul 0 16 0 0, .mul 0 0 16 0, .mul 0 0 0 16, .mulh 8 0 0 0, .mulh 0 16 0 0, .mulh 0 0 16 0, .mulh 0 0 0 16, .mulhn 8 0 0 0, .mulhn 0 16 0 0,
     .mulhn 0 0 16 0, .mulhn 0 0 0 16, .div 8 0 0 0, .div 0 16 0 0, .div 0 0 16 0, .div 0 0 0 16] = true := by decide

theorem test_refuses_ill_formed_major_01_2 : refuses
    [.divn 8 0 0 0, .divn 0 16 0 0, .divn 0 0 16 0, .divn 0 0 0 16, .rem 8 0 0 0, .rem 0 16 0 0, .rem 0 0 16 0, .rem 0 0 0 16, .remn 8 0 0 0,
     .remn 0 16 0 0, .remn 0 0 16 0, .remn 0 0 0 16, .and 8 0 0 0, .and 0 16 0 0, .and 0 0 16 0, .and 0 0 0 16, .or 8 0 0 0, .or 0 16 0 0,
     .or 0 0 16 0, .or 0 0 0 16, .xor 8 0 0 0, .xor 0 16 0 0, .xor 0 0 16 0, .xor 0 0 0 16] = true := by decide

theorem test_refuses_ill_formed_major_01_3 : refuses
    [.andn 8 0 0 0, .andn 0 16 0 0, .andn 0 0 16 0, .andn 0 0 0 16, .orn 8 0 0 0, .orn 0 16 0 0, .orn 0 0 16 0, .orn 0 0 0 16, .shl 8 0 0 0,
     .shl 0 16 0 0, .shl 0 0 16 0, .shl 0 0 0 16, .shr 8 0 0 0, .shr 0 16 0 0, .shr 0 0 16 0, .shr 0 0 0 16, .sra 8 0 0 0, .sra 0 16 0 0,
     .sra 0 0 16 0, .sra 0 0 0 16, .rotl 8 0 0 0, .rotl 0 16 0 0, .rotl 0 0 16 0, .rotl 0 0 0 16] = true := by decide

theorem test_refuses_ill_formed_major_01_4 : refuses
    [.min 8 0 0 0, .min 0 16 0 0, .min 0 0 16 0, .min 0 0 0 16, .max 8 0 0 0, .max 0 16 0 0, .max 0 0 16 0, .max 0 0 0 16, .minn 8 0 0 0,
     .minn 0 16 0 0, .minn 0 0 16 0, .minn 0 0 0 16, .maxn 8 0 0 0, .maxn 0 16 0 0, .maxn 0 0 16 0, .maxn 0 0 0 16, .slt 8 0 0 0, .slt 0 16 0 0,
     .slt 0 0 16 0, .slt 0 0 0 16, .sltn 8 0 0 0, .sltn 0 16 0 0, .sltn 0 0 16 0, .sltn 0 0 0 16] = true := by decide

theorem test_refuses_ill_formed_major_01_5 : refuses
    [.sel 16 0 0 0 0, .sel 0 8 0 0 0, .sel 0 0 16 0 0, .sel 0 0 0 16 0, .sel 0 0 0 0 16, .clz 8 0 0, .clz 0 16 0, .clz 0 0 16, .ctz 8 0 0,
     .ctz 0 16 0, .ctz 0 0 16, .popc 8 0 0, .popc 0 16 0, .popc 0 0 16, .bswap 8 0 0, .bswap 0 16 0, .bswap 0 0 16] = true := by decide

theorem test_refuses_ill_formed_halfword_op3_0_1 : refuses
    [.add16 16 1, .add16 1 16, .add16 0 0, .sub16 16 0, .sub16 0 16, .and16 16 0, .and16 0 16, .or16 16 0, .or16 0 16, .xor16 16 0, .xor16 0 16,
     .shl16 16 0, .shl16 0 16, .shr16 16 0, .shr16 0 16, .sra16 16 0, .sra16 0 16, .mov16 16 0, .mov16 0 16, .min16 16 0, .min16 0 16, .max16 16 0,
     .max16 0 16, .minn16 16 0] = true := by decide

theorem test_refuses_ill_formed_halfword_op3_0_2 : refuses
    [.minn16 0 16, .maxn16 16 0, .maxn16 0 16, .mul16 16 0, .mul16 0 16, .slt16 16 0, .slt16 0 16, .sltn16 16 0, .sltn16 0 16] = true := by decide

theorem test_refuses_ill_formed_major_02 : refuses
    [.addImmediate 131072 0 0, .addImmediate 0 16 0, .addImmediate 0 0 16] = true := by decide

theorem test_refuses_ill_formed_halfword_op3_2 : refuses
    [.addImmediate16 256 0, .addImmediate16 0 16] = true := by decide

theorem test_refuses_ill_formed_major_03 : refuses
    [.lih 131072 0, .lih 0 16] = true := by decide

theorem test_refuses_ill_formed_major_04_1 : refuses
    [.addK 8 0 0 0, .addK 0 256 0 0, .addK 0 0 16 0, .addK 0 0 0 16, .subK 8 0 0 0, .subK 0 256 0 0, .subK 0 0 16 0, .subK 0 0 0 16, .mulK 8 0 0 0,
     .mulK 0 256 0 0, .mulK 0 0 16 0, .mulK 0 0 0 16, .mulhK 8 0 0 0, .mulhK 0 256 0 0, .mulhK 0 0 16 0, .mulhK 0 0 0 16, .mulhnK 8 0 0 0,
     .mulhnK 0 256 0 0, .mulhnK 0 0 16 0, .mulhnK 0 0 0 16, .divK 8 0 0 0, .divK 0 256 0 0, .divK 0 0 16 0, .divK 0 0 0 16] = true := by decide

theorem test_refuses_ill_formed_major_04_2 : refuses
    [.divnK 8 0 0 0, .divnK 0 256 0 0, .divnK 0 0 16 0, .divnK 0 0 0 16, .remK 8 0 0 0, .remK 0 256 0 0, .remK 0 0 16 0, .remK 0 0 0 16,
     .remnK 8 0 0 0, .remnK 0 256 0 0, .remnK 0 0 16 0, .remnK 0 0 0 16, .andK 8 0 0 0, .andK 0 256 0 0, .andK 0 0 16 0, .andK 0 0 0 16,
     .orK 8 0 0 0, .orK 0 256 0 0, .orK 0 0 16 0, .orK 0 0 0 16, .xorK 8 0 0 0, .xorK 0 256 0 0, .xorK 0 0 16 0, .xorK 0 0 0 16] = true := by decide

theorem test_refuses_ill_formed_major_04_3 : refuses
    [.andnK 8 0 0 0, .andnK 0 256 0 0, .andnK 0 0 16 0, .andnK 0 0 0 16, .ornK 8 0 0 0, .ornK 0 256 0 0, .ornK 0 0 16 0, .ornK 0 0 0 16,
     .shlK 8 0 0 0, .shlK 0 256 0 0, .shlK 0 0 16 0, .shlK 0 0 0 16, .shrK 8 0 0 0, .shrK 0 256 0 0, .shrK 0 0 16 0, .shrK 0 0 0 16, .sraK 8 0 0 0,
     .sraK 0 256 0 0, .sraK 0 0 16 0, .sraK 0 0 0 16, .rotlK 8 0 0 0, .rotlK 0 256 0 0, .rotlK 0 0 16 0, .rotlK 0 0 0 16] = true := by decide

theorem test_refuses_ill_formed_major_04_4 : refuses
    [.minK 8 0 0 0, .minK 0 256 0 0, .minK 0 0 16 0, .minK 0 0 0 16, .maxK 8 0 0 0, .maxK 0 256 0 0, .maxK 0 0 16 0, .maxK 0 0 0 16,
     .minnK 8 0 0 0, .minnK 0 256 0 0, .minnK 0 0 16 0, .minnK 0 0 0 16, .maxnK 8 0 0 0, .maxnK 0 256 0 0, .maxnK 0 0 16 0, .maxnK 0 0 0 16,
     .sltK 8 0 0 0, .sltK 0 256 0 0, .sltK 0 0 16 0, .sltK 0 0 0 16, .sltnK 8 0 0 0, .sltnK 0 256 0 0, .sltnK 0 0 16 0, .sltnK 0 0 0 16] = true := by decide

theorem test_refuses_ill_formed_major_04_5 : refuses
    [.ldk 8 0 0, .ldk 0 256 0, .ldk 0 0 16] = true := by decide

theorem test_refuses_ill_formed_halfword_op3_1 : refuses
    [.ldk16 256 0, .ldk16 0 16] = true := by decide

theorem test_refuses_ill_formed_major_05 : refuses
    [.bext 32 0 0 0, .bext 0 32 0 0, .bext 0 0 16 0, .bext 0 0 0 16, .bins 32 0 0 0, .bins 0 32 0 0, .bins 0 0 16 0, .bins 0 0 0 16] = true := by decide

theorem test_refuses_ill_formed_major_08 : refuses
    [.ld 16384 0 0 0 0, .ld 0 2 0 0 0, .ld 0 0 4 0 0, .ld 0 0 0 16 0, .ld 0 0 0 0 16] = true := by decide

theorem test_refuses_ill_formed_major_09 : refuses
    [.st 16384 0 0 0 0, .st 0 2 0 0 0, .st 0 0 4 0 0, .st 0 0 0 16 0, .st 0 0 0 0 16] = true := by decide

theorem test_refuses_ill_formed_halfword_op3_5 : refuses
    [.ld3216 8 0 0, .ld3216 0 16 0, .ld3216 0 0 16, .st3216 8 0 0, .st3216 0 16 0, .st3216 0 0 16] = true := by decide

theorem test_refuses_ill_formed_major_0A : refuses
    [.push 8 0, .push 0 16, .pop 8 0, .pop 0 16] = true := by decide

theorem test_refuses_ill_formed_major_0C : refuses
    [.beq 16384 0 0, .beq 0 16 0, .beq 0 0 16, .bne 16384 0 0, .bne 0 16 0, .bne 0 0 16, .blt 16384 0 0, .blt 0 16 0, .blt 0 0 16, .bge 16384 0 0,
     .bge 0 16 0, .bge 0 0 16, .bltn 16384 0 0, .bltn 0 16 0, .bltn 0 0 16, .bgen 16384 0 0, .bgen 0 16 0, .bgen 0 0 16, .bz 16384 0, .bz 0 16,
     .bnz 16384 0, .bnz 0 16] = true := by decide

theorem test_refuses_ill_formed_halfword_op3_3 : refuses
    [.bz16 128 0, .bz16 0 16, .bnz16 128 0, .bnz16 0 16] = true := by decide

theorem test_refuses_ill_formed_major_0D : refuses
    [.b 33554432] = true := by decide

theorem test_refuses_ill_formed_halfword_op3_4 : refuses
    [.b16 4096] = true := by decide

theorem test_refuses_ill_formed_major_0E : refuses
    [.call 33554432] = true := by decide

theorem test_refuses_ill_formed_major_0F : refuses
    [.loop 16384 0, .loop 0 16, .jr 16, .jalr 16] = true := by decide

theorem test_refuses_ill_formed_major_10 : refuses
    [.ctlGet 2 0 0, .ctlGet 0 256 0, .ctlGet 0 0 16, .ctlSet 2 0 0, .ctlSet 0 256 0, .ctlSet 0 0 16, .extSet 16 0, .extSet 0 16, .extGet 16 0,
     .extGet 0 16, .brk 256] = true := by decide

theorem test_refuses_ill_formed_major_1E : refuses
    [.vectorPrefix 16 0 0 0, .vectorPrefix 0 8 0 0, .vectorPrefix 0 0 2 0, .vectorPrefix 0 0 0 8] = true := by decide

theorem test_refuses_ill_formed_major_16_1 : refuses
    [.vadd 8 0 0 0 0, .vadd 0 16 0 0 0, .vadd 0 0 16 0 0, .vadd 0 0 0 16 0, .vadd 0 0 0 0 16, .vsub 8 0 0 0 0, .vsub 0 16 0 0 0, .vsub 0 0 16 0 0,
     .vsub 0 0 0 16 0, .vsub 0 0 0 0 16, .vmul 16 0 0 0, .vmul 0 16 0 0, .vmul 0 0 16 0, .vmul 0 0 0 16, .vfma 16 0 0 0, .vfma 0 16 0 0,
     .vfma 0 0 16 0, .vfma 0 0 0 16, .vfms 16 0 0 0, .vfms 0 16 0 0, .vfms 0 0 16 0, .vfms 0 0 0 16, .vfnma 16 0 0 0, .vfnma 0 16 0 0] = true := by decide

theorem test_refuses_ill_formed_major_16_2 : refuses
    [.vfnma 0 0 16 0, .vfnma 0 0 0 16, .vmin 16 0 0 0, .vmin 0 16 0 0, .vmin 0 0 16 0, .vmin 0 0 0 16, .vmax 16 0 0 0, .vmax 0 16 0 0,
     .vmax 0 0 16 0, .vmax 0 0 0 16, .vabs 8 0 0 0, .vabs 0 16 0 0, .vabs 0 0 16 0, .vabs 0 0 0 16, .vneg 8 0 0 0, .vneg 0 16 0 0, .vneg 0 0 16 0,
     .vneg 0 0 0 16] = true := by decide

theorem test_refuses_ill_formed_major_17_1 : refuses
    [.vand 16 0 0 0, .vand 0 16 0 0, .vand 0 0 16 0, .vand 0 0 0 16, .vor 16 0 0 0, .vor 0 16 0 0, .vor 0 0 16 0, .vor 0 0 0 16, .vxor 16 0 0 0,
     .vxor 0 16 0 0, .vxor 0 0 16 0, .vxor 0 0 0 16, .vandn 16 0 0 0, .vandn 0 16 0 0, .vandn 0 0 16 0, .vandn 0 0 0 16, .vshl 8 0 0 0 0,
     .vshl 0 16 0 0 0, .vshl 0 0 16 0 0, .vshl 0 0 0 16 0, .vshl 0 0 0 0 16, .vshr 8 0 0 0 0, .vshr 0 16 0 0 0, .vshr 0 0 16 0 0] = true := by decide

theorem test_refuses_ill_formed_major_17_2 : refuses
    [.vshr 0 0 0 16 0, .vshr 0 0 0 0 16, .vsra 8 0 0 0 0, .vsra 0 16 0 0 0, .vsra 0 0 16 0 0, .vsra 0 0 0 16 0, .vsra 0 0 0 0 16] = true := by decide

theorem test_refuses_ill_formed_major_18 : refuses
    [.vcmp 8 0 0 0 0, .vcmp 0 16 0 0 0, .vcmp 0 0 16 0 0, .vcmp 0 0 0 16 0, .vcmp 0 0 0 0 8, .vsel 8 0 0 0 0, .vsel 0 16 0 0 0, .vsel 0 0 16 0 0,
     .vsel 0 0 0 16 0, .vsel 0 0 0 0 16] = true := by decide

theorem test_refuses_ill_formed_major_19 : refuses
    [.vcvt 4 0 0 0 0 0, .vcvt 0 2 0 0 0 0, .vcvt 0 0 16 0 0 0, .vcvt 0 0 0 16 0 0, .vcvt 0 0 0 0 16 0, .vcvt 0 0 0 0 0 16] = true := by decide

theorem test_refuses_ill_formed_major_1A_1 : refuses
    [.vmov 16 0 0, .vmov 0 16 0, .vmov 0 0 16, .vsplat 16 0 0, .vsplat 0 16 0, .vsplat 0 0 16, .vbcast 2 0 0 0 0, .vbcast 0 16 0 0 0,
     .vbcast 0 0 16 0 0, .vbcast 0 0 0 16 0, .vbcast 0 0 0 0 16, .vperm 16 0 0 0, .vperm 0 16 0 0, .vperm 0 0 16 0, .vperm 0 0 0 16,
     .vrot 2 0 0 0 0, .vrot 0 16 0 0 0, .vrot 0 0 16 0 0, .vrot 0 0 0 16 0, .vrot 0 0 0 0 16, .vzip 8 0 0 0 0, .vzip 0 16 0 0 0, .vzip 0 0 16 0 0,
     .vzip 0 0 0 16 0] = true := by decide

theorem test_refuses_ill_formed_major_1A_2 : refuses
    [.vzip 0 0 0 0 16, .vunzip 8 0 0 0 0, .vunzip 0 16 0 0 0, .vunzip 0 0 16 0 0, .vunzip 0 0 0 16 0, .vunzip 0 0 0 0 16, .vred 8 0 0 0,
     .vred 0 16 0 0, .vred 0 0 16 0, .vred 0 0 0 16, .vdot 16 0 0 0, .vdot 0 16 0 0, .vdot 0 0 16 0, .vdot 0 0 0 16] = true := by decide

theorem test_refuses_ill_formed_major_1B : refuses
    [.vld 8 0 0 0 0, .vld 0 16 0 0 0, .vld 0 0 16 0 0, .vld 0 0 0 16 0, .vld 0 0 0 0 16, .vst 8 0 0 0 0, .vst 0 16 0 0 0, .vst 0 0 16 0 0,
     .vst 0 0 0 16 0, .vst 0 0 0 0 16, .vldp 16 0 0, .vldp 0 16 0, .vldp 0 0 16, .vstp 16 0 0, .vstp 0 16 0, .vstp 0 0 16, .vgath 16 0 0 0,
     .vgath 0 16 0 0, .vgath 0 0 16 0, .vgath 0 0 0 16, .vscat 16 0 0 0, .vscat 0 16 0 0, .vscat 0 0 16 0, .vscat 0 0 0 16] = true := by decide

theorem test_refuses_ill_formed_major_1C_1 : refuses
    [.vfnExp2 16 0 0, .vfnExp2 0 16 0, .vfnExp2 0 0 16, .vfnExp 16 0 0, .vfnExp 0 16 0, .vfnExp 0 0 16, .vfnLog2 16 0 0, .vfnLog2 0 16 0,
     .vfnLog2 0 0 16, .vfnLog 16 0 0, .vfnLog 0 16 0, .vfnLog 0 0 16, .vfnRcp 16 0 0, .vfnRcp 0 16 0, .vfnRcp 0 0 16, .vfnRsqrt 16 0 0,
     .vfnRsqrt 0 16 0, .vfnRsqrt 0 0 16, .vfnSqrt 16 0 0, .vfnSqrt 0 16 0, .vfnSqrt 0 0 16, .vfnSin 16 0 0, .vfnSin 0 16 0, .vfnSin 0 0 16] = true := by decide

theorem test_refuses_ill_formed_major_1C_2 : refuses
    [.vfnCos 16 0 0, .vfnCos 0 16 0, .vfnCos 0 0 16, .vfnTanh 16 0 0, .vfnTanh 0 16 0, .vfnTanh 0 0 16, .vfnSigmoid 16 0 0, .vfnSigmoid 0 16 0,
     .vfnSigmoid 0 0 16, .vfnErf 16 0 0, .vfnErf 0 16 0, .vfnErf 0 0 16, .vexpr 8 0 0 0 0, .vexpr 0 16 0 0 0, .vexpr 0 0 16 0 0, .vexpr 0 0 0 16 0,
     .vexpr 0 0 0 0 16] = true := by decide

theorem test_refuses_ill_formed_major_1D_1 : refuses
    [.sopAdd 8 0 0 0 0, .sopAdd 0 16 0 0 0, .sopAdd 0 0 4 0 0, .sopAdd 0 0 0 4 0, .sopAdd 0 0 0 0 4, .sopSub 8 0 0 0 0, .sopSub 0 16 0 0 0,
     .sopSub 0 0 4 0 0, .sopSub 0 0 0 4 0, .sopSub 0 0 0 0 4, .sopMul 16 0 0 0, .sopMul 0 4 0 0, .sopMul 0 0 4 0, .sopMul 0 0 0 4,
     .sopFma 8 0 0 0 0, .sopFma 0 16 0 0 0, .sopFma 0 0 4 0 0, .sopFma 0 0 0 4 0, .sopFma 0 0 0 0 4, .sopMin 16 0 0 0, .sopMin 0 4 0 0,
     .sopMin 0 0 4 0, .sopMin 0 0 0 4, .sopMax 16 0 0 0] = true := by decide

theorem test_refuses_ill_formed_major_1D_2 : refuses
    [.sopMax 0 4 0 0, .sopMax 0 0 4 0, .sopMax 0 0 0 4, .sopCvt 2 0 0 0 0, .sopCvt 0 16 0 0 0, .sopCvt 0 0 16 0 0, .sopCvt 0 0 0 4 0,
     .sopCvt 0 0 0 0 4, .mand 8 0 0, .mand 0 8 0, .mand 0 0 8, .mor 8 0 0, .mor 0 8 0, .mor 0 0 8, .mxor 8 0 0, .mxor 0 8 0, .mxor 0 0 8,
     .mnot 8 0, .mnot 0 8, .mpop 16 0 0, .mpop 0 8 0, .mpop 0 0 16, .mfirst 16 0 0, .mfirst 0 8 0] = true := by decide

theorem test_refuses_ill_formed_major_1D_3 : refuses
    [.mfirst 0 0 16, .mset 16 0, .mset 0 8] = true := by decide

theorem test_refuses_ill_formed_major_20_1 : refuses
    [.ckMk 16 0 0 0, .ckMk 0 8 0 0, .ckMk 0 0 16 0, .ckMk 0 0 0 8, .ckAx 8 0 0 0, .ckAx 0 16 0 0, .ckAx 0 0 8 0, .ckAx 0 0 0 16, .ckAdd 16 0 0 0 0,
     .ckAdd 0 8 0 0 0, .ckAdd 0 0 8 0 0, .ckAdd 0 0 0 8 0, .ckAdd 0 0 0 0 8, .ckSub 16 0 0 0 0, .ckSub 0 8 0 0 0, .ckSub 0 0 8 0 0,
     .ckSub 0 0 0 8 0, .ckSub 0 0 0 0 8, .ckCmp 8 0 0 0, .ckCmp 0 8 0 0, .ckCmp 0 0 8 0, .ckCmp 0 0 0 16, .ckDom 8 0 0 0, .ckDom 0 8 0 0] = true := by decide

theorem test_refuses_ill_formed_major_20_2 : refuses
    [.ckDom 0 0 8 0, .ckDom 0 0 0 16, .ckInbox 8 0 0 0, .ckInbox 0 8 0 0, .ckInbox 0 0 8 0, .ckInbox 0 0 0 16, .ckNext 16 0 0 0 0,
     .ckNext 0 8 0 0 0, .ckNext 0 0 8 0 0, .ckNext 0 0 0 8 0, .ckNext 0 0 0 0 8, .ckPrev 16 0 0 0 0, .ckPrev 0 8 0 0 0, .ckPrev 0 0 8 0 0,
     .ckPrev 0 0 0 8 0, .ckPrev 0 0 0 0 8, .ckClip 16 0 0 0 0, .ckClip 0 8 0 0 0, .ckClip 0 0 8 0 0, .ckClip 0 0 0 8 0, .ckClip 0 0 0 0 8,
     .ckChk 8 0 0, .ckChk 0 8 0, .ckChk 0 0 16] = true := by decide

theorem test_refuses_ill_formed_major_21 : refuses
    [.ckSplit 16 0 0 0 0, .ckSplit 0 8 0 0 0, .ckSplit 0 0 8 0 0, .ckSplit 0 0 0 8 0, .ckSplit 0 0 0 0 16, .vckAdd 8 0 0 0 0, .vckAdd 0 8 0 0 0,
     .vckAdd 0 0 16 0 0, .vckAdd 0 0 0 16 0, .vckAdd 0 0 0 0 16] = true := by decide

theorem test_refuses_ill_formed_major_11 : refuses
    [.spawn 16 0, .spawn 0 16, .spawnBox 8 0 0 0 0, .spawnBox 0 2 0 0 0, .spawnBox 0 0 8 0 0, .spawnBox 0 0 0 16 0, .spawnBox 0 0 0 0 16,
     .park 16 0, .park 0 16, .pauseW 16 0, .pauseW 0 8, .gangForm 256 0, .gangForm 0 16] = true := by decide

theorem test_refuses_ill_formed_major_12 : refuses
    [.emit 256, .emitV 256 0, .emitV 0 16, .test 256 0, .test 0 16, .tval 256 0, .tval 0 16, .cant 256] = true := by decide

theorem test_refuses_ill_formed_halfword_op3_6 : refuses
    [.emit16 256] = true := by decide

theorem test_refuses_ill_formed_major_13 : refuses
    [.rgAbort 256 0, .rgAbort 0 16, .rgAborts 256 0, .rgAborts 0 16, .rgSusp 256] = true := by decide

theorem test_refuses_ill_formed_major_14 : refuses
    [.barInit 2 0 0, .barInit 0 16 0, .barInit 0 0 16, .barArr 2 0 0, .barArr 0 16 0, .barArr 0 0 16, .barWait 2 0 0, .barWait 0 16 0,
     .barWait 0 0 16, .barArrw 2 0 0, .barArrw 0 16 0, .barArrw 0 0 16] = true := by decide

theorem test_refuses_ill_formed_major_15 : refuses
    [.ctrWait 16 0, .ctrWait 0 8, .qPut 4 0 0, .qPut 0 16 0, .qPut 0 0 16, .qPoll 4 0, .qPoll 0 16, .qPollNb 4 0 0, .qPollNb 0 16 0,
     .qPollNb 0 0 16] = true := by decide

theorem test_refuses_ill_formed_major_22 : refuses
    [.gld 16384 0 0 0 0, .gld 0 2 0 0 0, .gld 0 0 4 0 0, .gld 0 0 0 8 0, .gld 0 0 0 0 16] = true := by decide

theorem test_refuses_ill_formed_major_23 : refuses
    [.gst 16384 0 0 0 0, .gst 0 2 0 0 0, .gst 0 0 4 0 0, .gst 0 0 0 8 0, .gst 0 0 0 0 16] = true := by decide

theorem test_refuses_ill_formed_major_25 : refuses
    [.gldHome 64 0 0 0, .gldHome 0 7 0 0, .gldHome 0 0 8 0, .gldHome 0 0 0 16, .gstHome 64 0 0 0, .gstHome 0 7 0 0, .gstHome 0 0 8 0,
     .gstHome 0 0 0 16, .fence 8 0, .fence 0 4, .pref 2 0, .pref 0 8, .cln 8, .inv 8] = true := by decide

theorem test_refuses_ill_formed_major_24_1 : refuses
    [.sld 2 0 0 0, .sld 0 16 0 0, .sld 0 0 16 0, .sld 0 0 0 16, .sst 2 0 0 0, .sst 0 16 0 0, .sst 0 0 16 0, .sst 0 0 0 16, .amoAdd 16 0 0 0 0 0,
     .amoAdd 0 2 0 0 0 0, .amoAdd 0 0 2 0 0 0, .amoAdd 0 0 0 16 0 0, .amoAdd 0 0 0 0 16 0, .amoAdd 0 0 0 0 0 16, .amoAnd 16 0 0 0 0 0,
     .amoAnd 0 2 0 0 0 0, .amoAnd 0 0 2 0 0 0, .amoAnd 0 0 0 16 0 0, .amoAnd 0 0 0 0 16 0, .amoAnd 0 0 0 0 0 16, .amoOr 16 0 0 0 0 0,
     .amoOr 0 2 0 0 0 0, .amoOr 0 0 2 0 0 0, .amoOr 0 0 0 16 0 0] = true := by decide

theorem test_refuses_ill_formed_major_24_2 : refuses
    [.amoOr 0 0 0 0 16 0, .amoOr 0 0 0 0 0 16, .amoXor 16 0 0 0 0 0, .amoXor 0 2 0 0 0 0, .amoXor 0 0 2 0 0 0, .amoXor 0 0 0 16 0 0,
     .amoXor 0 0 0 0 16 0, .amoXor 0 0 0 0 0 16, .amoMin 16 0 0 0 0 0, .amoMin 0 2 0 0 0 0, .amoMin 0 0 2 0 0 0, .amoMin 0 0 0 16 0 0,
     .amoMin 0 0 0 0 16 0, .amoMin 0 0 0 0 0 16, .amoMax 16 0 0 0 0 0, .amoMax 0 2 0 0 0 0, .amoMax 0 0 2 0 0 0, .amoMax 0 0 0 16 0 0,
     .amoMax 0 0 0 0 16 0, .amoMax 0 0 0 0 0 16, .amoMinn 16 0 0 0 0 0, .amoMinn 0 2 0 0 0 0, .amoMinn 0 0 2 0 0 0, .amoMinn 0 0 0 16 0 0] = true := by decide

theorem test_refuses_ill_formed_major_24_3 : refuses
    [.amoMinn 0 0 0 0 16 0, .amoMinn 0 0 0 0 0 16, .amoMaxn 16 0 0 0 0 0, .amoMaxn 0 2 0 0 0 0, .amoMaxn 0 0 2 0 0 0, .amoMaxn 0 0 0 16 0 0,
     .amoMaxn 0 0 0 0 16 0, .amoMaxn 0 0 0 0 0 16, .amoSwap 16 0 0 0 0 0, .amoSwap 0 2 0 0 0 0, .amoSwap 0 0 2 0 0 0, .amoSwap 0 0 0 16 0 0,
     .amoSwap 0 0 0 0 16 0, .amoSwap 0 0 0 0 0 16, .amoCas 16 0 0 0 0 0, .amoCas 0 2 0 0 0 0, .amoCas 0 0 2 0 0 0, .amoCas 0 0 0 16 0 0,
     .amoCas 0 0 0 0 16 0, .amoCas 0 0 0 0 0 16, .wait 16 0 0 0 0, .wait 0 2 0 0 0, .wait 0 0 16 0 0, .wait 0 0 0 8 0] = true := by decide

theorem test_refuses_ill_formed_major_24_4 : refuses
    [.wait 0 0 0 0 16] = true := by decide

theorem test_refuses_ill_formed_major_26 : refuses
    [.cpSend 2 0 0 0 0 0, .cpSend 0 2 0 0 0 0, .cpSend 0 0 2 0 0 0, .cpSend 0 0 0 8 0 0, .cpSend 0 0 0 0 16 0, .cpSend 0 0 0 0 0 16,
     .cpPut 2 0 0 0 0 0, .cpPut 0 2 0 0 0 0, .cpPut 0 0 2 0 0 0, .cpPut 0 0 0 8 0 0, .cpPut 0 0 0 0 16 0, .cpPut 0 0 0 0 0 16, .cpRl 2 0 0 0 0 0,
     .cpRl 0 2 0 0 0 0, .cpRl 0 0 2 0 0 0, .cpRl 0 0 0 8 0 0, .cpRl 0 0 0 0 16 0, .cpRl 0 0 0 0 0 16, .cpHalo 2 0 0 0 0 0, .cpHalo 0 2 0 0 0 0,
     .cpHalo 0 0 2 0 0 0, .cpHalo 0 0 0 8 0 0, .cpHalo 0 0 0 0 16 0, .cpHalo 0 0 0 0 0 16] = true := by decide

theorem test_refuses_ill_formed_major_27 : refuses
    [.mxCfg 8, .mxMm 2 0 0 0, .mxMm 0 8 0 0, .mxMm 0 0 16 0, .mxMm 0 0 0 16, .mcPost 8 0 0 0 0, .mcPost 0 2 0 0 0, .mcPost 0 0 8 0 0,
     .mcPost 0 0 0 16 0, .mcPost 0 0 0 0 16] = true := by decide

theorem test_refuses_ill_formed_major_28 : refuses
    [.jobFence 8] = true := by decide

theorem test_refuses_ill_formed_major_29 : refuses
    [.mclTake 16 0, .mclTake 0 16, .mclRead 4 0 0, .mclRead 0 8 0, .mclRead 0 0 16, .mclPush 128 0 0, .mclPush 0 8 0, .mclPush 0 0 16] = true := by decide

theorem test_refuses_ill_formed_major_2A : refuses
    [.wsSwOut 16 0, .wsSwOut 0 8, .wsSwIn 16 0, .wsSwIn 0 8, .eret 16, .eretKill 16, .sysc 256, .trap 256 0, .trap 0 16, .tlbInv 4 0 0,
     .tlbInv 0 8 0, .tlbInv 0 0 8, .fqTake 16 0, .fqTake 0 16, .fqTakeNb 16 0, .fqTakeNb 0 16, .fqDone 256 0, .fqDone 0 16, .wipeSec 16 0,
     .wipeSec 0 16] = true := by decide

/-! States that meet the hypotheses of each statement, clause by clause. Core 0 holds words of local memory; w1 lies at 0x404, the status word of
slot 0 at 0x450. -/

def withWords (words : List (Nat × Nat)) : Core := { lm := words.foldl (fun m q => Memory.write m q.1 4 q.2) [] }
def on (c : Core) : State := { State.reset with cores := [(0, c)] }
def regs (words : List (Nat × Nat)) : State := on (withWords (words.map fun q => (0x400 + 4 * q.1, q.2)))

theorem covered_by_none {p : TlbEntry → Prop} {o : Option TlbEntry} (h : o = none) : ∀ e, o = some e → p e := fun _ g => by simp [h] at g

/-- Core 0 in a domain of die 0. -/
def inDom (d : Domain) (c : Core) : State := { on c with domains := [(0, { d with mask := 1 })] }

theorem covered_by_one {p : TlbEntry → Prop} {o : Option TlbEntry} (x : TlbEntry) (h : o = some x) (g : p x) : ∀ e, o = some e → p e :=
  fun _ k => by rw [h] at k; cases k; exact g

theorem test_witness_register_operations : Solo State.reset ∧ PairsOk 0 [15, 15, 15] ∧ PairsOk 1 [7, 7, 7] ∧ PairsOk 1 [7, 0] := by decide

theorem test_witness_constants_and_immediates : Solo State.reset ∧ PairsOk 1 [7, 7] ∧ 254 % 2 = 0 ∧ 0x1FFFF < 2 ^ 17 ∧ 0xFF < 2 ^ 8 ∧
    0 + (31 + 1) ≤ 32 ∧ 31 + (0 + 1) ≤ 32 := by decide

theorem test_witness_scalar_field_traps : Solo (regs [(1, 3), (15, 5)]) ∧ 2 ≤ 2 ∧ (8 ≤ 8 ∨ 8 ≤ 0 ∨ 8 ≤ 0) ∧ 7 < 8 ∧ 255 % 2 = 1 ∧ 32 < 31 + (1 + 1) ∧
    rdW (self (regs [(1, 3), (15, 5)])) 1 % 2 = 1 ∧ rdW (self (regs [(1, 3), (15, 5)])) 15 % 2 = 1 := by decide

/-- Loads and stores at the last word of local memory, by a negative offset, and at the first word of the workspaces. -/
def atEnds : State := regs [(1, 0x6000), (2, 0x440)]

theorem test_witness_local_loads : Solo atEnds ∧ LoadKind 0 2 15 ∧ LoadKind 1 1 15 ∧ LoadKind 0 3 7 ∧
    Reachable (self atEnds) (memAddr (self atEnds) 0x3FFF 4 1) 4 ∧ Reachable (self atEnds) (memAddr (self atEnds) 0x3FFF 8 1) 8 ∧
    Reachable (self atEnds) ((rdW (self atEnds) 2 + 4 * 7) % 2 ^ 32) 4 := by decide

theorem test_witness_local_stores : Solo atEnds ∧ StoreKind 0 3 7 ∧ StoreKind 0 2 15 ∧ Storable (self atEnds) (memAddr (self atEnds) 0x3FFF 8 1) 8 ∧
    Storable (self atEnds) (memAddr (self atEnds) 0x3FF0 4 2) 4 ∧ Storable (self atEnds) ((rdW (self atEnds) 2 + 4 * 3) % 2 ^ 32) 4 := by decide

/-- Addresses that trap: misaligned, past local memory, in the constant window, in the shared region, at the status word. -/
theorem test_witness_local_access_traps :
    let s := on { withWords [(0x404, 0x6000), (0x408, 0x5FF1), (0x40C, 0x5FFC), (0x410, 0x450), (0x414, 0x3FC)] with lmscr := 0x5C00, lml1 := 0x5C00 }
    let ea := memAddr (self s) 0 4
    Solo s ∧ (self s).bar = false ∧ ea 2 % 2 ^ 2 ≠ 0 ∧ ea 1 % 2 ^ 2 = 0 ∧ 0x6000 ≤ ea 1 ∧ ea 5 % 2 ^ 2 = 0 ∧ ea 5 < 0x400 ∧
    ea 3 % 2 ^ 2 = 0 ∧ ea 3 < 0x6000 ∧ (self s).lmscr.toNat ≤ ea 3 ∧ 0x400 ≤ ea 3 ∧
    ea 4 % 2 ^ 2 = 0 ∧ 0x400 ≤ ea 4 ∧ ea 4 < 0x6000 ∧ ea 4 < (self s).lmscr.toNat ∧ ¬ Unprotected (self s) (ea 4) (2 ^ 2) := by decide

theorem test_witness_transfers : Solo (regs [(1, 0xFFFE), (15, 2)]) ∧ 0x3FFF < 2 ^ 14 ∧ 0xFFF < 2 ^ 12 ∧ 0x1FFFFFF < 2 ^ 25 ∧ (15 : Nat) ≠ 0 ∧
    rdW (self (regs [(1, 0xFFFE), (15, 2)])) 1 % 2 = 0 ∧ rdW (self (regs [(1, 0xFFFE), (15, 2)])) 15 % 2 = 0 := by decide

/-- SP at 0x308 above SPFLOOR 0x300's words: the stack of slot 0, floor 0x800, ceiling 0xC00, OVP 0x10000. -/
def stack (sp ovp : Nat) : State := on { withWords [(0x700, sp), (0x704, 0x800), (0x708, ovp), (0x728, 0xC00)] with carve := 1 }

theorem test_witness_stack_access :
    Solo (stack 0x808 0) ∧ 7 < 8 ∧ sp (self (stack 0x808 0)) % moved 1 = 0 ∧ (spFloor (self (stack 0x808 0)) : Int) ≤ sp (self (stack 0x808 0)) - moved 1 ∧
    Storable (self (stack 0x808 0)) (pat 32 (sp (self (stack 0x808 0)) - moved 1)) (moved 1) ∧
    sp (self (stack 0xBF8 0)) % moved 1 = 0 ∧ (spFloor (self (stack 0xBF8 0)) : Int) ≤ sp (self (stack 0xBF8 0)) ∧
    sp (self (stack 0xBF8 0)) + moved 1 ≤ spCeil (self (stack 0xBF8 0)) ∧ Reachable (self (stack 0xBF8 0)) (pat 32 (sp (self (stack 0xBF8 0)))) (moved 1) := by
  decide

theorem test_witness_stack_redirection :
    let s := stack 0x7F8 0x10000
    sp (self (stack 0x802 0)) % moved 0 ≠ 0 ∧ (sp (self (stack 0xBFC 0)) % moved 0 = 0 ∧ (spCeil (self (stack 0xC00 0)) : Int) < sp (self (stack 0xC00 0)) + moved 0) ∧
    sp (self (stack 0x800 0)) - moved 0 < spFloor (self (stack 0x800 0)) ∧ ovp (self (stack 0x800 0)) = 0 ∧ sp (self (stack 0x7F8 0)) < spFloor (self (stack 0x7F8 0)) ∧
    Solo s ∧ (self s).bar = false ∧ sp (self s) % moved 1 = 0 ∧ sp (self s) < spFloor (self s) ∧ sp (self s) - moved 1 < spFloor (self s) ∧
    sp (self s) + moved 1 ≤ spCeil (self s) ∧ ovp (self s) ≠ 0 ∧
    findTlb (rodOf s (rodOfCore s.cur)).tlb (pat 64 ((ovp (self s) : Int) + (sp (self s) - moved 1) - spFloor (self s))) = none ∧
    pat 64 ((ovp (self s) : Int) + (sp (self s) - moved 1) - spFloor (self s)) < 2 ^ 57 ∧
    findTlb (rodOf s (rodOfCore s.cur)).tlb (pat 64 ((ovp (self s) : Int) + sp (self s) - spFloor (self s))) = none ∧
    pat 64 ((ovp (self s) : Int) + sp (self s) - spFloor (self s)) < 2 ^ 57 := by decide

theorem test_witness_special_registers_read : Solo State.reset ∧ (self State.reset).bar = false ∧ (1, 0x1B) ∈ srNames ∧ 7 < 8 ∧ (1, 0x3C) ∉ srNames ∧
    (0, 0x2C) ∉ srNames := by decide

/-- Values that a privileged task sets: the base of slot 1, its own, a handler in slot 2, boundaries that Table 1.6 allows. -/
def setter : State := on { withWords [(0x450, 0x40), (0x404, 0x800), (0x408, 0x8C00), (0x40C, 0x6000), (0x410, 0x400), (0x414, 0x800), (0x418, 0x5000)] with
  lmspill := 0x4000, lmscr := 0x4000, lml1 := 0x5000 }

theorem test_witness_special_registers_write : Solo setter ∧ (self setter).bar = false ∧ isPriv (self setter) = true ∧
    isSlotBase (self setter) (kib (rdW (self setter) 1)) = true ∧ kib (rdW (self setter) 1) ≠ (self setter).wsp.toNat ∧
    isSlotBase (self setter) (kib (rdW (self setter) 4)) = true ∧ kib (rdW (self setter) 4) = (self setter).wsp.toNat ∧
    TvecOk (self setter) (rdW (self setter) 2) ∧ rdW (self setter) 2 / 2 ^ 15 % 2 = 1 ∧
    Division (kib (rdW (self setter) 5)) (self setter).lmscr.toNat (self setter).lml1.toNat ∧ AboveTasks (self setter) (kib (rdW (self setter) 5)) ∧
    Division (self setter).lmspill.toNat (kib (rdW (self setter) 6)) (self setter).lml1.toNat ∧ ¬ InBoundSet setter setter.cur ∧
    Division (self setter).lmspill.toNat (self setter).lmscr.toNat (kib (rdW (self setter) 3)) ∧ kib (rdW (self setter) 3) ≠ (self setter).lml1.toNat := by
  decide

/-- A core with no live member of its co-launched set, of which one on core 1 is. -/
def inSet : State := { setter with cores := [(0, self setter), (1, { slots := [{ live := true, setSize := 2 }] })] }

theorem test_witness_special_register_values : Solo inSet ∧ (self inSet).bar = false ∧ isPriv (self inSet) = true ∧
    isSlotBase (self setter) (kib (rdW (self setter) 3)) = false ∧ ¬ TvecOk (self setter) 0xFC00 ∧
    ¬ Division (kib (rdW (self setter) 3)) (self setter).lmscr.toNat (self setter).lml1.toNat ∧
    ¬ AboveTasks { self setter with slots := [{ live := true }], carve := 1 } (kib (rdW (self setter) 5)) ∧
    InBoundSet inSet inSet.cur ∧ kib (rdW (self inSet) 5) ≠ (self inSet).lmspill.toNat ∧ kib (rdW (self inSet) 6) ≠ (self inSet).lmscr.toNat ∧
    ¬ Division (self setter).lmspill.toNat (kib (rdW (self setter) 1)) (self setter).lml1.toNat ∧
    ¬ Division (self setter).lmspill.toNat (self setter).lmscr.toNat (kib (rdW (self setter) 1)) := by decide

theorem test_witness_special_register_traps : Solo State.reset ∧ (self State.reset).bar = false ∧ isPriv (self State.reset) = false ∧ (0x00 : Nat) ∉
    [0x10, 0x11, 0x12, 0x13, 0x14, 0x15, 0x16, 0x31, 0x38, 0x39, 0x3A, 0x3B, 0x3C] ∧ (7 : Nat) < 8 := by decide

/-- A vector prefix at address 0, with a vector instruction and with one that is none behind it. -/
theorem test_witness_extension_and_prefix :
    let s := inDom { code := Memory.write (Memory.write [] 4 4 0x001990AD) 0 4 0x0001D5BD, codeLen := 8 } {}
    7 < 8 ∧ (8 ≤ 8 ∨ 8 ≤ 0) ∧ Solo s ∧ (self s).pfx = none ∧ 4 ≠ 0 ∧
    imageWord (imageOf s s.cur) (((slotAt (self s) (curSlot (self s))).pc + 4) % 2 ^ 32) = (4, 0x001990AD) := by decide

/-- A core with the prefix of Table 3.27: mask m3, zero, rtz, v7. -/
def prefixed (words : List (Nat × Nat)) : State := on { withWords words with pfx := some 0x0001D5BD }

theorem test_witness_element_rule : 0 < 8 ∧ 31 < 256 / 8 := by decide

theorem test_witness_vector_arithmetic : Solo (prefixed []) ∧ PrefixTaken (self (prefixed [])) true true true true ∧
    PrefixTaken (self State.reset) true true false false ∧ (0 ≤ 2 ∨ (5 ≤ 0 ∧ 0 ≤ 10)) ∧ (10 ≤ 2 ∨ (5 ≤ 10 ∧ 10 ≤ 10)) ∧
    (1 = 0 ∨ (1 = 1 ∧ true = true ∧ 5 ≤ 5)) ∧ (7 ≤ 2 ∧ 1 = 0 ∨ (5 ≤ 7 ∧ 7 ≤ 7 ∧ 1 ≤ 1)) := by decide

theorem test_witness_vector_moves : Solo State.reset ∧ PrefixTaken (self State.reset) true true false false ∧ PrefixTaken (self State.reset) false false false false ∧
    1 * 16 + 15 < 256 / typeWidth 7 ∧ 0 * 16 + 7 < 256 / typeWidth 0 ∧ 11 ≤ 11 ∧ 1 ≤ 1 := by decide

theorem test_witness_compare_convert_reduce : PrefixTaken (self State.reset) true true true false ∧ (6 ≤ 5 ∨ (6 = 6 ∧ 2 ≤ 2)) ∧
    cvtBad 0 1 0 = false ∧ 1 < max ((256 / typeWidth 1) / (256 / typeWidth 0)) ((256 / typeWidth 0) / (256 / typeWidth 1)) ∧
    cvtBad 0 5 1 = false ∧ 256 / typeWidth 0 = 256 / typeWidth 5 ∧ PrefixTaken (self State.reset) true false true false ∧
    PrefixTaken (self (on { pfx := some 0x1C1BD })) true true false true ∧ (7 ≤ 4 ∨ 7 = 7) := by decide

/-- The expression of the manual's example, 2 ^ ((a - b) * s), in e2; one that is malformed, an operator alone, in e3. -/
theorem test_witness_vector_functions :
    let s := on { withWords [(0x470, 0xFFE74610), (0x474, 0xFFFFFFFF), (0x478, 0xFFFFFFF5)] with pfx := some 0x0001D5BD }
    Solo s ∧ PrefixTaken (self s) true true true true ∧ exprOk (tokens (rdE (self s) 2)) 0 = true ∧ opCount (tokens (rdE (self s) 2)) ≤ 7 ∧
    2 + 1 + (constCount (tokens (rdE (self s) 2)) + 1) / 2 ≤ 8 ∧ exprOk (tokens (rdE (self s) 3)) 0 = false := by decide

/-- Tokens of an expression: three operands, a constant, one operator of each count of operands. -/
theorem test_witness_expressions : (4 ≤ 4 ∧ 2 ≤ 2 ∧ 3 ≤ 3) ∧ exprOk [8] 3 = true ∧ exprOk [8] 2 = false ∧ exprOk [0] 4 = false ∧
    exprRows.map Prod.fst = [8, 11, 12, 13, 14, 5, 6, 7, 9, 10] := by decide

theorem test_witness_vector_memory :
    let s := on { withWords [(0x404, 0x6000), (0x408, 0x1000), (0x440, 0x1000)] with pfx := none }
    Solo s ∧ PrefixTaken (self s) true true false false ∧ PrefixTaken (self s) true false false false ∧ 3 < 4 ∧
    Reachable (self s) (pat 32 ((rdW (self s) 1 : Int) + 32 * sgn 7 (7 * 16 + 15))) 32 ∧
    Storable (self s) (pat 32 ((rdW (self s) 1 : Int) + 32 * sgn 7 (7 * 16 + 15))) 32 ∧
    Reachable (self s) (streamAddr (self s) 0) 32 ∧
    (∀ i ∈ (List.range (256 / 32)).filter (fun i => activeMask (self s) / 2 ^ i % 2 == 1), Storable (self s) ((rdW (self s) 2 + el s 0 0 i * 4) % 2 ^ 32) 4) := by
  decide

theorem test_witness_stream_forms :
    let s := on (withWords [(0x440, 0x00200800), (0x444, 0xFFE01000), (0x448, 0x00207FE0 - 0x2000)])
    let q := pointers (self s) ([0, 1] ++ [2])
    Solo s ∧ PrefixTaken (self s) false false true false ∧ cvtBad 0 5 0 = false ∧ typeWidth 5 = typeWidth 0 ∧
    cvtBad 0 1 0 = false ∧ 2 * typeWidth 1 = typeWidth 0 ∧ (∀ n ∈ [0, 1] ++ [2], n < 4) ∧ (∀ j, j < 2 → Reachable (self s) (q.1.getD j (0, 0)).1 32) ∧
    Storable (self s) (q.1.getD 2 (0, 0)).1 32 := by decide

theorem test_witness_vector_traps : pfxVc (self (prefixed [])) ≠ 0 ∧ pfxMask (self (prefixed [])) ≠ 0 ∧
    pfxVc (self (on { pfx := some 0x15BD })) = 0 ∧ pfxRound (self (on { pfx := some 0x15BD })) ≠ 0 ∧ (self State.reset).pfx = none ∧
    256 / typeWidth 0 ≤ 0 * 16 + 8 := by decide

theorem test_witness_floating_point : (unpack (fmtOf 0) 0x7F800001).isNan = true ∧ (unpack (fmtOf 0) 0x7F800001).isSig = true ∧
    (unpack (fmtOf 1) 0x7F80).isNan = false ∧ 0x7F80 < 2 ^ typeWidth 1 ∧ 0 < 1 ∧ 1 ≠ 0 ∧
    (fmtOf 0).top < (roundMag (fmtOf 0) .rne false 1 128).mag := by decide

/-- Values of the formats: 1, infinities, NaNs of both kinds, zeros, -1; integers at and past the ends of their types. -/
theorem test_witness_values :
    unpack (fmtOf 0) 0x3F800000 = .fin false 0x800000 (-23) ∧ unpack (fmtOf 2) 0xFC00 = .inf true ∧ unpack (fmtOf 4) 0x7C = .inf false ∧
    unpack (fmtOf 3) 0x7F = .nan false ∧ unpack (fmtOf 1) 0xFF81 = .nan true ∧ unpack (fmtOf 1) 0x8000 = .fin true 0 (-133) ∧
    unpack (fmtOf 2) 0xBC00 = .fin true 0x400 (-10) ∧ unpack (fmtOf 3) 0x38 = .fin false 8 (-3) ∧ (unpack (fmtOf 0) 0x3F800000).isNan = false ∧
    (unpack (fmtOf 1) 0xFF81).isSig = true ∧ 255 < 256 ∧ 2 ^ 31 - 1 ≤ (quantize .rne false (2 ^ 31 - 1) 0 0).1 ∧ 2 ^ 31 - 1 < (quantize .rne false 1 31 0).1 ∧
    127 < (quantize .rne false 255 (-1) 0).1 ∧ (mulNum (.fin false 0 0) (.inf false)).1.isNan = true ∧ 11 < 12 := by decide

/-- The order of values, and values in range and out of it. -/
theorem test_witness_order_and_range : Below (.fin false 1 0) (.fin false 1 1) ∧ Below (.inf true) (.fin true 0 0) ∧ ¬ Below (.fin true 0 0) (.fin false 0 0) ∧
    OutOf fmtF32 .rne false 1 128 ∧ ¬ OutOf fmtF32 .rne false 1 127 := by
  refine ⟨by simp only [Below]; decide, rfl, by simp only [Below]; decide, fun m e h => ?_, fun h => ?_⟩
  · have t : unpack fmtF32 fmtF32.top = .fin false 0xFFFFFF 104 := by decide
    rw [t] at h; cases h; decide
  · exact absurd (h 0xFFFFFF 104 (by decide)) (by decide)

/-- Terms of a group: with a NaN, with infinities, zeros; a sum of 1, of 0, and one that loses a term 40 powers of two below its largest. -/
theorem test_witness_groups :
    let one : List Machine.Num := [.fin false 1 0]
    let lost : List Machine.Num := [.fin false 1 0, .fin true 1 0, .fin false 1 (-40)]
    (∃ t ∈ [Machine.Num.nan false], t.isNan = true) ∧ Machine.Num.inf false ∈ [Machine.Num.inf false, .fin false 1 0] ∧ Machine.Num.inf true ∉ [Machine.Num.inf false, .fin false 1 0] ∧
    (∀ t ∈ [Machine.Num.inf false, .fin false 1 0], t.isNan = false) ∧ IsTopBit one 0 ∧ cutSum one (-31) ≠ 0 ∧ IsTopBit lost 0 ∧ cutSum lost (-31) = 0 ∧
    CutsSome lost (-31) ∧ ¬ CutsSome one (-31) ∧ (unpack fmtF32 0x7F800001).isSig = true := by
  simp only [IsTopBit, CutsSome]; decide

/-- Boxes in pairs x2, x3 and x4, x5; a key in x1; a list of four runs at 0x1000. -/
def keys : State := regs [(2, 0x3), (3, 0), (4, 0x0), (5, 0), (6, 0xF), (7, 0), (12, 0x41000)]

theorem test_witness_keys : Solo keys ∧ 6 ≤ 6 ∧ 6 < 7 ∧ 7 < 8 ∧ 7 < 6 + 2 ∧ (∀ i, i < 2 → ax 2 (box keys 2 2).1 i ≤ ax 2 (key keys 2 1) i) ∧
    6 + 2 ≤ 8 ∧ 8 ≤ 8 := by decide

theorem test_witness_key_runs : Solo keys ∧ (self keys).bar = false ∧ rdW (self keys) 12 % 2 ^ 15 % 16 = 0 ∧
    rdW (self keys) 12 % 2 ^ 15 + 16 * (rdW (self keys) 12 / 2 ^ 16) ≤ 0x6000 ∧ rdW (self keys) 0 / 2 ^ 16 = 0 ∧
    (∀ i, i < rdW (self keys) 12 / 2 ^ 16 → Storable (self keys) (rdW (self keys) 12 % 2 ^ 15 + 16 * i) 16) := by decide

theorem test_witness_key_traps :
    let s := regs [(1, 0x10008), (2, 0x15FF0), (3, 0x25FF0)]
    Solo s ∧ (self s).bar = false ∧ rdW (self s) 1 % 2 ^ 15 % 16 ≠ 0 ∧ rdW (self s) 3 % 2 ^ 15 % 16 = 0 ∧ rdW (self s) 3 / 2 ^ 16 ≠ 0 ∧
    0x6000 < rdW (self s) 3 % 2 ^ 15 + 16 * (rdW (self s) 3 / 2 ^ 16) ∧ ¬ 0x6000 < rdW (self s) 2 % 2 ^ 15 + 16 * (rdW (self s) 2 / 2 ^ 16) := by decide

/-- A task that may emit signals 0 to 119, or all of them when it is privileged. -/
def emitter (priv : Nat) : State := on { withWords [(0x450, priv * 0x40), (0x710, 0xFFFFFFFF), (0x714, 0xFFFFFFFF), (0x718, 0xFFFFFFFF), (0x71C, 0xFFFFFFFF)] with
  slots := [{ may := BitVec.allOnes 128 }] }

theorem test_witness_signals : Solo (emitter 0) ∧ mayEmit (emitter 0) 119 ∧ ¬ mayEmit (emitter 0) 120 ∧ Solo (emitter 1) ∧ mayEmit (emitter 1) 127 ∧
    emsetEff (self (emitter 0)) (here (emitter 0)) / 2 ^ 127 % 2 = 0 ∧ 15 < 16 ∧
    emsetEff (self (on (withWords [(0x710, 1)]))) 0 / 2 ^ 0 % 2 = 1 ∧ (slotAt (self (on (withWords [(0x710, 1)]))) 0).may.toNat / 2 ^ 0 % 2 = 0 := by decide

theorem test_witness_signals_read :
    let s := inDom { result := some { pres := 2, maye := 4 } } {}
    sigStatus (dom s) 1 = some true ∧ sigStatus (dom s) 127 = some false ∧ sigStatus (dom s) 2 = none ∧ sigValue (dom s) 15 = some 0 ∧ sigValue (dom s) 2 = none := by
  decide

/-- A region stack of seven entries and one of eight; handlers at even and odd addresses. -/
theorem test_witness_regions :
    let s := on (withWords [(0x450, 7 * 2 ^ 10), (0x404, 0xFFFE), (0x408, 0xFFFF)])
    let u := on (withWords [(0x450, 8 * 2 ^ 10), (0x404, 0xFFFE)])
    Solo s ∧ 127 < 128 ∧ rdW (self s) 1 % 2 = 0 ∧ stDepth (self s) (here s) < 8 ∧ stDepth (self s) (here s) ≠ 0 ∧ rdW (self s) 2 % 2 = 1 ∧
    8 ≤ stDepth (self u) (here u) ∧ rdW (self u) 1 % 2 = 0 ∧ stDepth (self State.reset) (here State.reset) = 0 := by decide

/-- Cores 0 and 1 wait to form a gang; the last of them issues its gang.form; core 0 leads one of two. -/
def forming : State := { State.reset with cores :=
  [(0, { withWords [(0x450, 1)] with slots := [{ live := true, blockedIn := some (.gangForm 1 15) }] }),
   (1, { withWords [(0x450, 1)] with slots := [{ live := true, blockedIn := some (.gangForm 0 15) }] })], args := { a := 0, b := 1 } }
def lastForms : State := { forming with cur := 1, cores :=
  [(0, { withWords [(0x450, 1)] with slots := [{ live := true, blockedIn := some (.gangForm 1 15) }] }), (1, { slots := [{ live := true }] })] }
def leading : State := { State.reset with cores := [(0, { gangSize := 2 }), (1, { withWords [(0x450, 4)] with gangSize := 2 })] }

theorem test_witness_gangs : Solo State.reset ∧ 3 ≤ 3 ∧ State.reset.cur % 8 % 2 ^ 3 = 0 ∧ ¬ Solo leading ∧ (self leading).gangBase = leading.cur ∧
    stState (coreOf leading 1) 0 = 4 ∧ slotBase (coreOf forming 1) 0 + 0x400 < 2 ^ 32 := by decide

theorem forming_slot0 {c : Core} {code d : Nat} (h : (slotAt c 0).live = true ∧ (slotAt c 0).trap = none ∧ stState c 0 = 1 ∧
    (slotAt c 0).blockedIn = some (.gangForm code d)) : Forming c code 0 d := ⟨by decide, h, fun j _ hj => absurd hj (Nat.not_lt_zero j)⟩

theorem test_witness_gang_formed : ∀ j, j < 2 ^ 1 → Joinable (coreOf forming j) ∧ Forming (coreOf forming j) (if j = 0 then 1 else 0) 0 15 ∧ 15 < 16 ∧
    Fits (coreOf forming j) 0
  | 0, _ => ⟨by decide, forming_slot0 (by decide), by decide, by decide⟩
  | 1, _ => ⟨by decide, forming_slot0 (by decide), by decide, by decide⟩

theorem test_witness_gang_last : let s := lastForms
    Joinable (self s) ∧ here s < 8 ∧ (slotAt (self s) (here s)).live = true ∧ (slotAt (self s) (here s)).trap = none ∧ (slotAt (self s) (here s)).wake = false ∧
    (∀ j (f : Nat), j < here s → (slotAt (self s) j).blockedIn ≠ some (.gangForm 0 f)) ∧
    (∀ j, j < 2 ^ 1 → 0 + j ≠ s.cur → Joinable (coreOf s (0 + j)) ∧ Forming (coreOf s (0 + j)) (if j = 0 then 1 else 0) 0 15 ∧
      (slotAt (coreOf s (0 + j)) 0).wake = false) ∧
    (∀ j m f, (slotAt (coreOf s 0) j).blockedIn = some (.gangForm m f) → m = 0 ∨ m = 1) := by
  refine ⟨by decide, by decide, by decide, by decide, by decide, fun j _ h => absurd h (Nat.not_lt_zero j), fun j hj hn => ?_, fun j m f h => ?_⟩
  · match j with
    | 0 => exact ⟨by decide, forming_slot0 (by decide), by decide⟩
    | 1 => exact absurd rfl hn
  · match j with
    | 0 => cases h; exact .inr rfl
    | _ + 1 => cases h

/-- Barrier 0 of rod 0 has seven arrivals of eight in phase 5; barrier 15 of the frame none. -/
def barriers (op : Nat) : State := { regs [(1, 8), (2, 4), (3, 5), (4, 128)] with
  rods := [(0, { bars := [{ parts := 8, arrivals := 7, phase := 5 }, { parts := 8, arrivals := 6 }] })], args := { c := op * 32, d := 8 } }

theorem test_witness_barriers :
    let s := barriers 1
    let k (r : Nat) := ((barOf s 0 0 s.cur).phase.toNat + 2 ^ 32 - rdW (self s) r) % 2 ^ 32
    Solo s ∧ 1 ≤ rdW (self s) 1 ∧ rdW (self s) 1 ≤ 8 ∧ rdW (self s) 4 ≤ 128 ∧ (1 ≤ k 2 ∧ k 2 < 2 ^ 31) ∧ ¬ (1 ≤ k 3 ∧ k 3 < 2 ^ 31) ∧ 3 < 4 ∧
    (barriers 2).args.c = 0 + 0 * 16 + 2 * 32 ∧ (barOf s 0 0 0).parts ≤ (barOf s 0 0 0).arrivals + 1 ∧ (barOf s 0 1 0).arrivals + 1 < (barOf s 0 1 0).parts ∧
    (slotAt (coreOf (on { slots := [{ wake := true }] }) 0) 0).wake = true := by decide

theorem test_witness_queue_registers :
    let s := on { withWords [(0x404, 127), (0x408, 128)] with queues := [{ words := [3, 4], owner := some 0 }, { owner := some 1, reserved := 8 }] }
    Solo s ∧ (rdW (self s) 1 < 655360 ∧ rdW (self s) 1 / 128 = s.cur / 128) ∧ queueRoom (queueAt (coreOf s (rdW (self s) 1)) 3) s.cycle = true ∧
    ¬ (rdW (self s) 2 < 655360 ∧ rdW (self s) 2 / 128 = s.cur / 128) ∧ queueRoom (queueAt (coreOf s 0) 1) s.cycle = false ∧
    (queueAt (self s) 0).owner = some (here s) ∧ (queueAt (self s) 0).words = [3, 4] ∧ (queueAt (self s) 2).owner = none ∧ (queueAt (self s) 2).words = [] ∧
    (queueAt (self s) 1).owner = some 1 ∧ 1 ≠ here s := by decide

theorem test_witness_queue_retry :
    let s := on { slots := [{ blockedIn := some (.qPut 3 1 2), opA := 9, opB := 5 }] }
    (slotAt (coreOf s s.args.a) s.args.b).blockedIn = some (.qPut 3 1 2) ∧
    queueRoom (queueAt (coreOf s (slotAt (coreOf s s.args.a) s.args.b).opB) 3) s.cycle = true := by decide

/-- Summands of a sum of zero. -/
theorem sum_zero (f : Nat → Nat) : ∀ (l : List Nat) (a : Nat), l.foldl (fun v j => v + f j) a = 0 → a = 0 ∧ ∀ j ∈ l, f j = 0
  | [], a, h => ⟨h, fun _ h => by cases h⟩
  | x :: l, a, h => by
    obtain ⟨p, q⟩ := sum_zero f l (a + f x) h
    exact ⟨by omega, fun j hj => by
      rcases List.mem_cons.1 hj with e | e
      · subst e; omega
      · exact q j e⟩

/-- The box of the key 0 alone, on two axes, has one key. -/
theorem key_zero (x : Nat) (h : InRuns 2 (0, 0) 0 x) : x = 0 := by
  obtain ⟨-, hx, ha⟩ := h
  have hx : x < 2 ^ 64 := hx
  have bit (i : Nat) (hi : i < 64) : x / 2 ^ i % 2 = 0 := by
    have h0 := (ha (i % 2) (by omega)).2
    have h1 : ax 2 x (i % 2) = 0 := by
      have z : ax 2 (0, 0).2 (i % 2) = 0 := by rcases Nat.mod_two_eq_zero_or_one i with e | e <;> rw [e] <;> decide
      omega
    have h2 := (sum_zero _ _ _ h1).2 (i / 2) (by simp [upTo, axisBits]; omega)
    have e : i / 2 * 2 + i % 2 = i := by omega
    simp only [fld, e] at h2
    have p : 0 < 2 ^ (i / 2) := Nat.two_pow_pos _
    rcases Nat.mul_eq_zero.1 h2 with q | q
    · simpa using q
    · omega
  apply Nat.eq_of_testBit_eq
  intro i
  by_cases hi : i < 64
  · simp [Nat.testBit_eq_decide_div_mod_eq, bit i hi]
  · rw [Nat.testBit_lt_two_pow (Nat.lt_of_lt_of_le hx (Nat.pow_le_pow_right (by decide) (by omega)))]; simp

/-- Record images: for core 0; for frame 0, with a condition; with DIMS 7 and a TILE; privileged; of a level that does not exist. The box in x6, x7
is that of the key 0. -/
def spawner : State := inDom {} (withWords [(0x404, 0x1000), (0x408, 0x1100), (0x40C, 0x1010), (0x410, 0x1200), (0x414, 0x1300), (0x418, 0x1400),
  (0x41C, 0x6000), (0x1108, 2), (0x1104, 2 ^ 7), (0x1130, 0x80001), (0x1138, 1), (0x1204, 7 * 2 ^ 4), (0x1210, 1), (0x1304, 8), (0x1408, 5)])
/-- Every watch entry of die 0 is taken. -/
def noWatch (s : State) : State := { s with dies := [(0, { watches := List.replicate 4096 { off := 0x400000 } })] }

set_option maxRecDepth 50000 in
theorem test_witness_records_written : let at_ (r : Nat) := rdW (self spawner) r
    Solo spawner ∧ (self spawner).bar = false ∧ domOf spawner spawner.cur = some 0 ∧ ImageTaken spawner (at_ 1) ∧ AreaRoom spawner (at_ 1) 1 ∧
    stDepth (self spawner) (here spawner) = 0 ∧ (slotAt (self spawner) (here spawner)).outst = 0 := by decide

set_option maxRecDepth 50000 in
theorem test_witness_box_image : let at_ (r : Nat) := rdW (self spawner) r
    ImageTaken spawner (at_ 2) ∧ AreaRoom spawner (at_ 2) 1 ∧ imageCores spawner (at_ 2) = 128 ∧ AboveAreas spawner (at_ 2) ∧ imageCores spawner (at_ 1) ≠ 128 := by
  decide

set_option maxRecDepth 50000 in
theorem test_witness_bad_images : let at_ (r : Nat) := rdW (self spawner) r
    at_ 3 % 32 ≠ 0 ∧ at_ 7 % 32 = 0 ∧ 0x6000 ≤ at_ 7 ∧ ImagePlaced spawner (at_ 4) ∧ imageDims spawner (at_ 4) = 7 ∧ imageField spawner (at_ 4) 0x10 8 ≠ 0 ∧
    ImagePlaced spawner (at_ 5) ∧ ImageFields spawner (at_ 5) ∧ imagePriv spawner (at_ 5) = 1 ∧ isPriv (self spawner) = false ∧
    ImagePlaced spawner (at_ 6) ∧ ¬ ImageFields spawner (at_ 6) ∧ (coreOf (on { lmscr := 0x1000 }) 0).lmscr.toNat ≤ 0x1000 + 32 * 0 := by decide

theorem test_witness_box_keys : KeysOf (0 + 2) (box spawner (0 + 2) 6) [0] :=
  ⟨List.pairwise_singleton _ _, fun x => ⟨fun h => by rw [List.mem_singleton.1 h]; show InRuns 2 (0, 0) 0 0; unfold InRuns; decide,
    fun h => List.mem_singleton.2 (key_zero x h)⟩⟩

set_option maxRecDepth 50000 in
theorem test_witness_no_record_room : AboveAreas (noWatch spawner) (rdW (self spawner) 2) ∧ ¬ AreaRoom (noWatch spawner) (rdW (self spawner) 2) 1 := by decide

theorem test_witness_park_traps :
    let s := on { withWords [(0x450, 2 ^ 10)] with slots := [{ outst := 1 }] }
    stDepth (self s) (here s) ≠ 0 ∧ (slotAt (self s) (here s)).outst ≠ 0 ∧ (slotAt (self spawner) (here spawner)).outst = 0 := by decide

/-- A counter of the die at 8 that holds 5; thresholds 5 and 6. -/
def counting : State := { inDom {} (withWords [(0x404, 1), (0x410, 5), (0x418, 6), (0x408, 64 * 2 ^ 17), (0x40C, 2 ^ 26)]) with
  dies := [(0, { pool := Memory.write [] 8 8 5 })] }

theorem test_witness_counters : Solo counting ∧ 7 < 8 ∧ counterOk (dom counting) (rdW (self counting) 1) = true ∧
    counterMet (counterWord counting (rdW (self counting) 1)) (rdX (self counting) 2) = true ∧
    counterMet (counterWord counting (rdW (self counting) 1)) (rdX (self counting) 3) = false ∧ watchRoom counting (ctrDie 1) 1 = true ∧
    counterOk (dom counting) (rdW (self counting) 2) = false ∧ counterOk (dom counting) (rdW (self counting) 3) = false ∧ 8 ≤ 8 := by decide

set_option maxRecDepth 50000 in
theorem test_witness_no_watch_room : watchRoom (noWatch counting) (ctrDie 1) 1 = false := by decide

theorem test_witness_counter_read :
    let s := { counting with cores := [(0, { withWords [] with slots := [{ blockedIn := some (.ctrWait 1 7), opA := 1, opB := 5 }, { blockedIn := some (.ctrWait 1 7), opA := 1, opB := 6 }] })] }
    (slotAt (coreOf s 0) 0).blockedIn = some (.ctrWait 1 7) ∧ Fits (coreOf s 0) 0 ∧ counterMet (counterWord s 1) (slotAt (coreOf s 0) 0).opB = true ∧
    Fits (coreOf s 0) 1 ∧ counterMet (counterWord s 1) (slotAt (coreOf s 0) 1).opB = false ∧ watchRoom s (ctrDie 1) 1 = true := by decide

/-- Die 0 has a record ready and held, for core 0, and one selected for slot 0 of core 0. -/
def distributing : State := { inDom {} { slots := [{ reserved := true }], lmspill := 0xC00 } with
  dies := [(0, { recs := [(0, { st := 3, held := true }), (1, { st := 4 })], ready := [0] })], args := { b := 1 } }
/-- The only slot of core 0 has a task. -/
def noSlot : State := { distributing with cores := [(0, { slots := [{ live := true }], lmspill := 0x800 })] }

theorem test_witness_distributor : let s := distributing
    dieHeld s 0 = false ∧ (dieAt s 0).placing = none ∧ 0 ∈ readyAt s 0 0 ∧ (Table.get {} (dieAt s 0).recs 0).held = true ∧ Affine (recImg s 0 0) 0 ∧
    openSlots (coreOf s 0) = [1] ∧ Table.find (dieAt s 0).recs 1 = some { st := 4 } ∧ StillOpen (coreOf s 0) 0 ∧ ¬ StillOpen (coreOf s 0) 1 ∧
    dieHeld { s with domains := [(0, { mask := 1, held := true })] } 0 = true := by decide

theorem test_witness_ready_levels : ∀ lv, (readyAt distributing 0 lv).Nodup ∧ ∀ j ∈ readyAt distributing 0 lv, (Table.get {} (dieAt distributing 0).recs j).setSize = 0
  | 0 => by decide
  | _ + 1 => ⟨List.nodup_nil, fun _ h => by cases h⟩

theorem only_core0 {s : State} {q : Nat} (h : Affine (recImg s 0 1) q) (g : Memory.read (recImg s 0 1) 8 4 = 0) : q = 0 := by
  simp only [Affine, g] at h; exact Nat.lt_one_iff.1 (by simpa [unitCores, nth] using h)

theorem test_witness_bind_elsewhere : MostFree distributing (recImg distributing 0 1) 0 ∧ openSlots (coreOf distributing 0) ≠ [] ∧
    ∀ q, Affine (recImg noSlot 0 1) q → openSlots (coreOf noSlot q) = [] :=
  ⟨⟨by decide, fun _ h => .inr (by rw [only_core0 h (by decide)]; decide)⟩, by decide, fun _ h => by rw [only_core0 h (by decide)]; decide⟩

/-- Two records of set 7, for cores 0 and 1, ready and held; and both selected. -/
def coLaunch (st : Nat) : State := { inDom {} { slots := [{ reserved := st == 4 }] } with
  args := { b := 7 }
  dies := [(0, { pool := Memory.write [] (192 + 8) 4 (2 ^ 8), ready := if st = 3 then [0, 1] else [], recs :=
    [(0, { st := st, held := true, setSize := 2, set_ := 7 }), (1, { st := st, held := true, setSize := 2, set_ := 7 })] })] }

theorem test_witness_set_selected : let s := coLaunch 3
    let recs := (dieAt s 0).recs
    dieHeld s 0 = false ∧ (dieAt s 0).placing = none ∧ readyAt s 0 0 = [0, 1] ∧ (recs.map Prod.fst).Nodup ∧ (∀ q ∈ recs, q.2.st ≠ 4 ∧ (q.2.set_ = 7 → q.1 ∈ [0, 1])) ∧
    (∀ w ∈ (dieAt s 0).watches, 0x400000 ≤ w.off) := by decide

theorem test_witness_set_members : let s := coLaunch 3
    let recs := (dieAt s 0).recs
    (∀ j ∈ [0, 1], j < 16384 ∧ (Table.find recs j).map (fun r => (r.st, r.held, r.setSize, r.setBase, r.set_)) = some (3, true, 2, 0, 7)) ∧
    ∀ m, m < 2 → openSlots (coreOf s (0 + m)) ≠ [] ∧ ∃ j ∈ [0, 1], imgFirst (recImg s 0 j) = 0 + m := by decide

theorem test_witness_set_bound : let s := coLaunch 4
    Table.find (dieAt s 0).recs 0 = some { st := 4, held := true, setSize := 2, set_ := 7 } ∧ s.args.b = 7 ∧ StillOpen (coreOf s (imgFirst (recImg s 0 0))) 0 ∧
    ((dieAt s 0).recs.map Prod.fst).Nodup ∧ ∀ q ∈ (dieAt s 0).recs, q.1 ≠ 0 → imgFirst (recImg s 0 q.1) ≠ imgFirst (recImg s 0 0) := by decide

theorem test_witness_spawn_resumes :
    let s := inDom {} { withWords [(0x450, 1 + 5 * 2 ^ 3)] with slots := [{ live := true, blockedIn := some (.spawn 1 15) }] }
    (slotAt (coreOf s 0) 0).blockedIn = some (.spawn 1 15) ∧ Fits (coreOf s 0) 0 ∧ stWait (coreOf s 0) 0 = 5 ∧
    recordRoom s (Memory.write (slotAt (coreOf s 0) 0).img 0x0C 4 (newTask s 0)) 1 = true ∧
    (slotAt (coreOf (on { withWords [(0x450, 5)] with slots := [{ live := true }] }) 0) 0).live = true ∧ stState (withWords [(0x450, 5)]) 0 = 5 := by decide

/-- x1 holds an address, w9 and w10 a core of the set of two that the task is bound with and a local address; the micro-TLB covers a page, or none. -/
def mapped (va : Nat) (tlb : List TlbEntry) : State :=
  { on { withWords [(0x408, va % 2 ^ 32), (0x40C, va / 2 ^ 32), (0x424, 1), (0x428, 0x4FFC), (0x42C, 2), (0x430, 0x3FFC), (0x434, 0x5000)] with
      slots := [{ setBase := 0, setSize := 2 }], lmspill := 0x4000, lmscr := 0x5000, lml1 := 0x6000 } with
    cores := [(0, { withWords [(0x408, va % 2 ^ 32), (0x40C, va / 2 ^ 32), (0x424, 1), (0x428, 0x4FFC), (0x42C, 2), (0x430, 0x3FFC), (0x434, 0x5000)] with
      slots := [{ setBase := 0, setSize := 2 }] }), (1, { lmspill := 0x4000, lmscr := 0x5000 })],
    rods := [(0, { tlb := tlb })] }

def openPage : TlbEntry := { size := 2 ^ 16, kind := 1, u := true, r := true, w := true }

/-- The last bytes of the address space, not covered; the last bytes of a page that permits every access. -/
theorem test_witness_global_loads_and_stores : Solo (mapped (2 ^ 57 - 32) []) ∧ GlobalLoad 1 3 15 ∧ GlobalLoad 0 3 7 ∧ GlobalLoad 1 1 15 ∧ GlobalStore 1 3 15 ∧
    39 < 40 ∧ MicroMiss (mapped (2 ^ 57 - 32) []) (2 ^ 57 - 32) ∧
    Permitted (mapped (2 ^ 57 - 32) []) (globalEa (self (mapped (2 ^ 57 - 32) [])) 0 32 1) 32 0 ∧
    Permitted (mapped 0xFFE0 [openPage]) (rdX (self (mapped 0xFFE0 [openPage])) 1) 32 1 :=
  ⟨by decide, by decide, by decide, by decide, by decide, by decide, by decide, ⟨by decide, by decide, covered_by_none (by decide)⟩,
    ⟨by decide, by decide, covered_by_one openPage (by decide) (by decide)⟩⟩

theorem test_witness_atomics_and_shared : 7 < 8 ∧ 1 ≤ 1 ∧ 5 ≤ 5 ∧ Permitted (mapped 0xFFF8 [openPage]) (rdX (self (mapped 0xFFF8 [openPage])) 1) 8 2 ∧
    NoWindow (mapped 0xFFF8 [openPage]) (rdX (self (mapped 0xFFF8 [openPage])) 1) ∧
    SharedOk (mapped 0 []) (rdW (self (mapped 0 [])) 9) (rdW (self (mapped 0 [])) 10) 4 ∧ tagsOut (self (mapped 0 [])) < 256 ∧
    256 ≤ tagsOut { wseq := 256 } ∧ 2 ^ 32 - 1 < 2 ^ (8 * 4) :=
  ⟨by decide, by decide, by decide, ⟨by decide, by decide, covered_by_one openPage (by decide) (by decide)⟩, covered_by_one openPage (by decide) (by decide),
    by decide, by decide, by decide, by decide⟩

theorem test_witness_fences_and_caches : Solo State.reset ∧ 5 ≤ 5 ∧ (6 = 3 ∨ 6 ≤ 6) ∧ MicroMiss State.reset 0 ∧ Permitted State.reset (rdX (self State.reset) 1) 1 0 ∧
    findTlb (rodOf (mapped 0xFFFF [openPage]) (rodOfCore 0)).tlb (rdX (self (mapped 0xFFFF [openPage])) 1) = some openPage :=
  ⟨by decide, by decide, by decide, by decide, ⟨by decide, by decide, covered_by_none (by decide)⟩, by decide⟩

theorem test_witness_global_access_traps :
    let s := mapped (2 ^ 57) []
    let va (v : Nat) := globalEa (self (mapped v [])) 0 4 1
    let found (x : TlbEntry) := findTlb (rodOf (mapped 0 [x]) 0).tlb (globalEa (self (mapped 0 [x])) 0 4 1)
    Solo s ∧ va 2 % 4 ≠ 0 ∧ va (2 ^ 57) % 4 = 0 ∧ 2 ^ 57 ≤ va (2 ^ 57) ∧ found { openPage with kind := 3 } = some { openPage with kind := 3 } ∧
    found { openPage with u := false } = some { openPage with u := false } ∧ found { openPage with w := false } = some { openPage with w := false } ∧
    isPriv (self s) = false ∧ (1 = 1 ∧ 2 = 2) ∧ 40 ≤ 40 ∧ rdW (self s) 11 % 4 ≠ 0 ∧ rdW (self s) 12 % 4 = 0 ∧
    (slotAt (self s) (here s)).setBase + (slotAt (self s) (here s)).setSize ≤ rdW (self s) 11 ∧
    rdW (self s) 12 < (coreOf s (rdW (self s) 9)).lmspill.toNat ∧ (coreOf s (rdW (self s) 9)).lmscr.toNat ≤ rdW (self s) 13 := by decide

/-- An access of core 0 in flight, whose task waits for it. -/
def flying (x : Acc) : State := { on { slots := [{ blockedIn := some .invAll }] } with accs := [(0, x)] }

theorem test_witness_arrivals :
    let load : Acc := { stage := .back, dest := 0, reg := 15, n := 2, sx := 1, got := 0xFFFF }
    let full : Acc := { load with fill := true, block := some 0x5000, rows := 255 }
    let store : Acc := { kind := .store, stage := .back, tag := some 1, blocks := false }
    acc (flying load) 0 load ∧ WaitedFor (flying load) load ∧ RegField 0 15 ∧ RegField 1 7 ∧ RegField 2 15 ∧ load.got < 2 ^ (8 * load.n) ∧ load.n ≤ 2 ∧
    load.fill = false ∧ full.rows = 255 ∧ PortsFree (flying load) 0 ∧ acc (flying store) 0 store ∧ store.tag = some ((coreOf (flying store) 0).wack + 1).toNat ∧
    (coreOf (flying store) 0).acked = [] ∧ waitsFor (flying store) store = false := by decide

theorem test_witness_shared_arrivals :
    let sst : Acc := { kind := .sst, stage := .path, va := 0x4000, val := 7 }
    let amo : Acc := { kind := .satomic, stage := .path, va := 0x4000, op := 0x11, blocks := false }
    acc (flying sst) 0 sst ∧ (∀ q ∈ (flying sst).accs, q.2.stage ≠ .own) ∧ PortsFree (flying sst) 0 ∧ NoneShared (flying sst) 0 0 0 .path ∧
    acc (flying { sst with kind := .sld }) 0 { sst with kind := .sld } ∧ acc (flying amo) 0 amo ∧ waitsFor (flying amo) amo = false ∧ amo.dest = 3 := by decide

theorem test_witness_shared_atomic_returns :
    let back : Acc := { kind := .satomic, stage := .path, va := 0x4000, op := 0x11, dest := 0, reg := 15, place := 1 }
    acc (flying back) 0 back ∧ back.core ≠ back.place ∧ WaitedFor (flying back) back ∧ RegField back.dest back.reg ∧ PortsFree (flying back) 1 := by decide

/-- Die 0 holds line 1, with all its tokens or with one. -/
def holding (n : Nat) (x : Acc) : State := { flying x with dies := [(0, { l2 := [(1, { tokens := n, owner := true, valid := 15 })] })] }

theorem test_witness_accesses_at_a_die :
    let load : Acc := { stage := .path, pa := 1024 + 252 }
    let store : Acc := { kind := .store, stage := .path, pa := 1024 + 1020 }
    let pref : Acc := { kind := .pref, stage := .path, pa := 1024 + 252 }
    acc (holding 1 load) 0 load ∧ isDram load.pa = true ∧ load.place ≠ 40 ∧ mayRead (holding 1 load) 0 (lineOf load.pa) (2 ^ sectorOf load.pa) = true ∧
    acc (holding 64 store) 0 store ∧ mayWrite (holding 64 store) 0 (lineOf store.pa) = true ∧ store.pa % 1024 + store.n ≤ 1024 ∧
    (∀ q ∈ (holding 64 store).accs, q.2.older = 0 → q.2.stage ≠ .joined) ∧ acc (holding 1 pref) 0 pref ∧ pref.op ≠ 1 ∧
    acc (holding 1 { load with stage := .behind }) 0 { load with stage := .behind } := by decide

theorem test_witness_accesses_go_on :
    let fill : Acc := { pa := 256, block := some 0x5000, fill := true, rows := 127 }
    let tag : Acc := { kind := .sst, stage := .tag }
    let own : Acc := { stage := .own, page := 1 }
    let order : Acc := { stage := .order }
    let s (x : Acc) : State := { flying x with args := { c := 7 } }
    acc (s fill) 0 fill ∧ fill.block = some 0x5000 ∧ (coreOf (s fill) 0).l1Gen = fill.gen ∧ PortsFree (s fill) 0 ∧ Memory.wf fill.sector = true ∧
    Nat.lor fill.rows (2 ^ 7) = 255 ∧ Nat.lor 0 (2 ^ 7) ≠ 255 ∧ acc (s tag) 0 tag ∧ tagsOut (coreOf (s tag) 0) < 256 ∧ NoneShared (s tag) 0 0 0 .tag ∧
    acc (s own) 0 own ∧ own.page ≠ 0 ∧ ownBefore (s own) 0 = false ∧ acc (s order) 0 order ∧ earlierOpen (s order) 0 = false ∧ ownBefore (s order) 0 = false ∧
    (slotAt (coreOf (on { slots := [{ blockedIn := some (.fence 5 2) }] }) 0) 0).blockedIn = some (.fence 5 2) := by decide

/-- A load finds its sector in L1, overtaken and not ordered behind what has overtaken it. -/
theorem test_witness_load_hits :
    let x : Acc := { stage := .own, page := 1, pa := 260 }
    let s : State := setCore (flying x) 0 { coreOf (flying x) 0 with l1 := [(1, 0)], l1Age := [(1, 2)] }
    acc s 0 x ∧ isDram x.pa = true ∧ ownBefore s 0 = false ∧ l1Find (coreOf s x.core) (x.pa / 256) = some 0 ∧
    Table.find (coreOf s x.core).l1Age (x.pa / 256) ≠ some 3 := by decide

theorem test_witness_waits_go_on :
    let wait : Acc := { kind := .wait, stage := .back, op := 0, val := 1, page := 1 }
    let s (x : Acc) : State := { flying x with args := { c := 7 } }
    acc (s wait) 0 wait ∧ WaitedFor (s wait) wait ∧ wait.again = false ∧ waitTest (8 * wait.n) wait.op wait.got wait.val = false ∧
    acc (s { wait with stage := .path }) 0 { wait with stage := .path } ∧ ownToSector (s { wait with stage := .path }) 0 0 = false ∧
    (∀ q ∈ (s { wait with stage := .path }).accs, q.2.kind ≠ .store ∧ q.2.kind ≠ .atomic → q.2.tag = none) ∧
    acc (s { wait with stage := .sleep, naps := 7 }) 0 { wait with stage := .sleep, naps := 7 } ∧ (s wait).args.c = 7 := by decide

/-- An sst of its core to the same target waits for a tag. -/
theorem test_witness_sst_behind :
    let s : State := { mapped 0 [] with accs := [(0, { kind := .sst, stage := .tag, place := 1 })], nextId := 1 }
    SharedOk s (rdW (self s) 9) (rdW (self s) 10) 4 ∧ ∃ q ∈ s.accs, q.1 < s.nextId ∧ q.2.core = s.cur ∧ q.2.place = rdW (self s) 9 ∧ q.2.stage = .tag ∧
      (q.2.kind = .sst ∨ q.2.kind = .satomic ∨ q.2.kind = .sld) := by decide

/-- An sld behind an sst whose bank port was taken; a redirected store and a pop; a wait that translates again, and one that a page covers. -/
theorem test_witness_shared_behind :
    let x : Acc := { kind := .sld, stage := .path, va := 0x4000, place := 1 }
    let s : State := { flying x with accs := [(0, { x with kind := .sst }), (1, x)], args := { b := 1 } }
    acc s s.args.b x ∧ ¬ NoneShared s s.args.b x.core x.place .path := by decide

theorem test_witness_redirected_accesses :
    let pop : Acc := { stage := .back, dest := 0, reg := 5, n := 4, got := 7, sp := some 0x7FC }
    let push : Acc := { kind := .store, stage := .tag, sp := some 0x7F4, page := 1, pa := 0x10000 }
    acc (flying pop) 0 pop ∧ pop.tag = none ∧ WaitedFor (flying pop) pop ∧ RegField pop.dest pop.reg ∧ pop.got < 2 ^ (8 * pop.n) ∧ pop.fill = false ∧
    PortsFree (flying pop) pop.core ∧ acc (flying push) 0 push ∧ tagsOut (coreOf (flying push) 0) < 256 ∧
    (∀ q ∈ (coreOf (flying push) 0).l1, q.1 ≠ push.pa / 256) ∧ push.page ≠ 0 ∧ WaitedFor (flying push) push := by decide

theorem test_witness_reads_again :
    let wait : Acc := { kind := .wait, stage := .path, va := 0xFFF0 }
    let s (tlb : List TlbEntry) (x : Acc) : State := { flying x with rods := [(0, { tlb := tlb })] }
    acc (s [] wait) 0 wait ∧ findTlb (rodOf (s [] wait) (rodOfCore 0)).tlb wait.va = none ∧
    findTlb (rodOf (s [openPage] wait) (rodOfCore 0)).tlb wait.va = some openPage ∧ deniedEntry openPage 0 wait.priv = none ∧ openPage.kind ≠ 0 ∧
    isWindow (paOf openPage wait.va) = false ∧ wait.sp = none ∧ ownToSector (s [openPage] wait) 0 (paOf openPage wait.va / 256) = false ∧
    acc (s [] { wait with stage := .sleep, naps := 7 }) 0 { wait with stage := .sleep, naps := 7 } ∧
    { s [] wait with args := { c := 7 } }.args.a = wait.core := by decide

/-- Access 0 is walked for by walk 0, whose read of an entry, access 1, has ended. -/
def tables (leaf : Nat) : Mem :=
  [(0x1000, 0x2003), (0x2000, 0x3003), (0x3000, 0x4003), (0x4000, 0x5003), (0x5000, leaf)].foldl (fun m q => Memory.write m q.1 8 q.2) []
def walking (x r : Acc) (w : Walk) : State :=
  { inDom { root := 0x1000 } {} with dram := tables 0x101DD, accs := [(0, x), (1, r)], walks := [(0, w)], nextId := 2, args := { c := 1 } }

theorem test_witness_translations :
    let x : Acc := {}
    let w : Walk := { accs := [0], lev := 0, read := some 1 }
    let s (got : Nat) : State := walking x { stage := .back, got := got } w
    Table.find (s 0).walks 0 = some w ∧ w.accs = [0] ∧ 0 < (s 0).nextId ∧ (s 0).args.c < (s 0).nextId ∧ 0 ≠ (s 0).args.c ∧ acc (s 0) 0 x ∧
    acc (s 0) 1 { stage := .back, got := 0 } ∧ entryStep 0 w.lev = .fault true ∧ entryStep 0x2003 4 = .table 0x2000 ∧ entryStep 0x101DD 0 = .leaf ∧
    pteMig 0x101DD = false ∧ deniedLeaf 0x101DD 0 x.priv = none ∧ entryStep (0x101DD + 2 ^ 52) 0 = .leaf ∧ pteMig (0x101DD + 2 ^ 52) = true ∧
    pteA (0x101DD - 0x40) = false ∧ entryStep (0x101DD - 0x40) 0 = .leaf ∧ ({ w with read := none } : Walk).read = none := by decide

theorem test_witness_walk_starts_and_rereads :
    let s : State := { walking {} {} {} with walks := [], args := { b := 1 } }
    let x : Acc := { kind := .store }
    let e : TlbEntry := { openPage with leaf := 0x5000 }
    let u : State := { walking x { stage := .back, got := 0x101DD } {} with rods := [(0, { tlb := [e] })] }
    acc s (s.args.b - 1) {} ∧ s.args.b ≠ 0 ∧ s.args.b ≤ s.nextId ∧ findTlb (dieAt s (accDie {})).tlb 0 = none ∧
    (∀ w ∈ s.walks, w.2.die = accDie {} → w.2.page ≠ 0 / 2 ^ 16 % 2 ^ 41) ∧ acc u 0 x ∧ x.sp = none ∧ x.tag = none ∧
    acc u u.args.c { stage := .back, got := 0x101DD } ∧ findTlb (rodOf u (rodOfCore 0)).tlb 0 = some e ∧ u.args.d ≠ 1 ∧ entryStep 0x101DD e.lev = .leaf ∧
    deniedLeaf 0x101DD 1 x.priv = none := by decide

/-- A store at a leaf that sets A and D; one whose re-read meets MIG, and whose OR is done. -/
theorem test_witness_dirty_leaf :
    let x : Acc := { kind := .store }
    let w : Walk := { accs := [0], lev := 0, read := some 1 }
    let s : State := walking x { stage := .back, got := 0x1011D } w
    let e : TlbEntry := { openPage with leaf := 0x5000 }
    let u (d : Nat) : State := { walking x { stage := .back, got := 0x1011D + 2 ^ 52 } {} with walks := [], rods := [(0, { tlb := [e] })], args := { c := 1, d := d } }
    Table.find s.walks s.args.b = some w ∧ acc s 0 x ∧ x.sp = none ∧ x.tag = none ∧ entryStep 0x1011D w.lev = .leaf ∧ pteMig 0x1011D = false ∧ deniedLeaf 0x1011D 1 x.priv = none ∧
    (pteA 0x1011D = false ∨ pteD 0x1011D = false) ∧
    acc (u 0) 0 x ∧ acc (u 0) 1 { stage := .back, got := 0x1011D + 2 ^ 52 } ∧ findTlb (rodOf (u 0) (rodOfCore 0)).tlb x.va = some e ∧
    entryStep (0x1011D + 2 ^ 52) e.lev = .leaf ∧ pteMig (0x1011D + 2 ^ 52) = true ∧ 0 < (u 0).nextId ∧
    (∀ w ∈ (u 0).walks, w.2.die = accDie x → w.2.page ≠ x.va / 2 ^ 16 % 2 ^ 41) ∧ (u 1).args.d = 1 ∧ acc (u 1) 0 x := by decide

theorem test_witness_walk_levels : 0x2003 % 2 = 1 ∧ 0x2003 / 2 % 2 = 1 ∧ badPointer 0x2003 4 = false ∧ badPointer 0x5100 1 = false ∧ 0x101DD % 2 = 1 ∧
    0x101DD / 2 % 2 = 0 ∧ badLeaf 0x101DD 0 = false ∧ 2 ^ 57 - 1 < 2 ^ 57 := by decide

/-- Die 0 has n tokens of line 1, the owner token among them or not, and sectors. -/
def keeping (n : Nat) (o : Bool) (v : Nat) : State := { State.reset with dies := [(0, { l2 := [(1, { tokens := n, owner := o, valid := v })] })] }

theorem test_witness_token_coherence :
    let x : Acc := { stage := .tokens, pa := 1024, tries := 2 }
    let y : Acc := { stage := .tokens, kind := .atomic, pa := 1024 }
    let p : Acc := { stage := .path, pa := 1024 }
    let none_ (s : State) : Bool := (answerRead s 0 1 (2 ^ 3) 1).isNone
    none_ State.reset = true ∧ none_ (keeping 1 false 15) = true ∧ none_ (keeping 2 true 7) = true ∧ none_ (keeping 2 false 8) = false ∧
    none_ (keeping 1 true 15) = false ∧ (answerAll State.reset 40 1 0).isSome = true ∧ victimOf (dieAt State.reset 39) 1 = none ∧
    acc (holding 2 x) 0 x ∧ x.born = (holding 2 x).args.c ∧ x.place < 40 ∧ victimOf (dieAt (holding 2 x) 0) 1 ≠ some none ∧
    acc (flying p) 0 p ∧ mayRead (flying p) 0 1 1 = false ∧ (∀ q ∈ (flying p).accs, q.2.stage ≠ .tokens) ∧
    acc (holding 64 y) 0 y ∧ y.taken = false ∧ mayWrite (holding 64 y) 0 (lineOf y.pa) = true ∧
    ownerPlace { holding 64 y with homes := [(1, { tokens := 0, owner := false })] } (lineOf y.pa) = some 0 ∧
    (histAdd (lineHist (holding 64 y) (lineOf y.pa)) (dieOfCore y.core)).count (dieOfCore y.core) < 3 ∧ State.reset.args.b < { State.reset with nextId := 1 }.nextId := by
  decide

/-- A message on its way, with a number of its own. -/
def sendsOne : State := { keeping 2 false 15 with msgs := [(0, { line := 1, tokens := 3 })], nextId := 1, args := { a := 40 } }
theorem test_witness_messages : MsgsOk sendsOne ∧ (∀ d ∈ sendsOne.dies, d.1 < 40) ∧ sendsOne.args.a ≤ 40 ∧ (homeOf sendsOne sendsOne.args.c).moved = false ∧
    (homeOf { sendsOne with homes := [(0, { moved := true })] } 0).moved = true ∧ sendsOne.args.d % 8 < 4 ∧ (answerRead sendsOne 40 0 1 0).isSome = true ∧
    4 % 8 = 4 ∧ (answerAll sendsOne 40 0 0).isSome = true := by
  unfold MsgsOk; decide

theorem test_witness_nacks :
    let x : Acc := { stage := .tokens }
    let u : Acc := { x with kind := .uwrite, phys := true, next := some (.moveLineStep, {}) }
    acc { flying x with nextId := 1 } 0 x ∧ x.phys = false ∧ acc { flying u with nextId := 1 } 0 u ∧ u.phys = true ∧ u.next.isSome = true := by decide

/-- The home of a line lacks sector 0 in its LLC slice; die 0 is the winner of line 1; an atomic at a holder of its fourth from one die; a NACK of an OR. -/
theorem test_witness_token_answers :
    let late : State := { State.reset with args := { a := 40, d := 16 * 3 } }
    let wins : State := { keeping 1 true 15 with modActive := [{ die := 0, place := 0, line := 1 }], args := { a := 0, c := 1 } }
    let y : Acc := { stage := .tokens, kind := .atomic, pa := 1024, place := 0 }
    let s : State := { flying y with dies := [(2, { l2 := [(1, { tokens := 64, owner := true, valid := 15, hist := [0, 0] })] })]
                                     homes := [(1, { tokens := 0, owner := false })], args := { a := 2, c := 1 } }
    let h := (lineHist s 1 ++ [dieOfCore y.core]).reverse.take 4
    let n : Acc := { stage := .tokens, kind := .uwrite, phys := true, op := 1, val := 0xC0 }
    (late.args.d % 16 < 8 ∧ late.args.a = 40 ∧ LlcLacks late 0 1 ∧ late.args.d % 8 < 4 ∧ (answerRead late 40 0 1 3).isSome = true ∧
      winnerOf late 0 ≠ some 40 ∧ ¬ LlcLacks (llcTouch 0 1 late) 0 1) ∧
    (winnerOf wins 1 = some 0 ∧ wins.args.a = 0) ∧
    (acc s 0 y ∧ y.taken = false ∧ s.args.c = lineOf y.pa ∧ ownerPlace s (lineOf y.pa) = some s.args.a ∧ 3 ≤ h.count (dieOfCore y.core) ∧
      winnerOf s (lineOf y.pa) ≠ some s.args.a ∧ (answerAll s s.args.a (lineOf y.pa) y.place).isSome = true) ∧
    acc { flying n with nextId := 1 } 0 n ∧ n.phys = true ∧ n.next = none ∧ n.op = 1 := by
  decide

/-- Operations of a move block: page 1 to page 2; a page that overlaps itself. The last line of an operation, whose tokens die 0 holds. -/
def moving (old new pages : Nat) : State :=
  let pool := Memory.write (Memory.write (Memory.write [] 0x310000 8 old) 0x310008 8 new) 0x310010 4 pages
  let all : L2Line := { tokens := 64, owner := true, valid := 15 }
  let none_ : HomeLine := { tokens := 0, owner := false }
  { State.reset with
    dies := [(0, { pool := pool, l2 := [(127, all), (191, all)], move := some { op := 1, old := 64, new := 128, lines := 64, next := 63 } })]
    homes := [(127, none_), (191, none_)], accs := [(0, { kind := .uwrite, stage := .back })], args := { b := 1 } }

theorem test_witness_page_moves :
    let f (s : State) := moveRefused 1 (moveField s 0 0 8) (moveField s 0 8 8) (moveField s 0 0x10 4)
    let s := moving 0x10000 0x20000 1
    f s = false ∧ f (moving 0x10000 0x10000 1) = true ∧ f (moving 0x10000 0x20000 16385) = true ∧ BlockUnwatched s 0 ∧
    (dieAt s 0).move = some { op := 1, old := 64, new := 128, lines := 64, next := 63 } ∧ acc s s.args.c { kind := .uwrite, stage := .back } ∧ 64 + 63 ≠ 128 + 63 ∧
    moveRefused 2 (moveField (moving 0x10000 0 16384) 0 0 8) 0 (moveField (moving 0x10000 0 16384) 0 0x10 4) = false := by decide

theorem test_witness_both_lines : HoldsAll (moving 0 0 1) 0 (64 + 63) ∧ HoldsAll (moving 0 0 1) 0 (128 + 63) ∧
    Table.find { sendsOne with msgs := [(0, { line := 1, moved := true })] }.msgs 0 = some { line := 1, moved := true } := by decide

theorem test_witness_moves_refused :
    let s := moving 0x10000 0x10000 1
    let r := moving 0x10000 0 0
    BlockUnwatched s s.args.a ∧ moveRefused 1 (moveField s 0 0 8) (moveField s 0 8 8) (moveField s 0 0x10 4) = true ∧ BlockUnwatched r r.args.a ∧
    moveRefused 2 (moveField r 0 0 8) 0 (moveField r 0 0x10 4) = true := by decide

/-- Where every line is at its home and DRAM holds zeros, every line is whole. -/
theorem lines_whole (s : State) (h : s.homes = []) (g : s.dram = []) (l : Nat) : WholeLine s l := by
  have e : lineBytes s l = [] := by simp [lineBytes, ownerPlace, homeOf, homeBytes, h, g, Table.get, Memory.slice]
  exact ⟨by rw [e]; rfl, by rw [e]; intro c hc; cases hc⟩


/-- e0 names a counter; e1 to e7 as given. -/
def described (es : List Nat) : State :=
  inDom {} { lm := ((1 :: es).zip (List.range 8)).foldl (fun m q => Memory.write m (0x460 + 8 * q.2) 8 q.1) [], lmspill := 0x1000, lmscr := 0x5000 }
def sending : State := described [0, 0x1000, 0x4000]
def multiplying : State := described [0x2000, 0x2400, 0x1000, 2 ^ 12 * 8 + 2 ^ 16 + 2 ^ 28 + 2 * 2 ^ 40]

theorem test_witness_copy_jobs : Solo sending ∧ DescriptorsOk sending 0 4 badSend ∧ sendTrap (self sending) false (jobOf sending 0 0 4 1 0 0 0 []) = none ∧
    DescriptorsOk sending 0 4 badPut ∧ sendTrap (self sending) true (jobOf sending 1 0 4 1 0 0 0 []) = none ∧
    DescriptorsOk sending 0 4 badRl ∧ rlTrap (self sending) (jobOf sending 2 0 4 1 0 0 0 []) = none ∧
    DescriptorsOk (described []) 0 6 badHalo ∧ ¬ DescriptorsOk sending 5 4 badSend ∧ ¬ DescriptorsOk (described [2 ^ 30]) 0 4 badSend ∧ Room (self sending) 0 ∧
    ¬ Room { jobs := [List.replicate 4 {}] } 0 := by decide

theorem test_witness_copy_job_traps : (haloTrap (self (described [])) (jobOf (described []) 3 0 6 1 0 0 1 [])).isSome = true ∧
    (sendTrap (self (described [2 ^ 14])) false (jobOf (described [2 ^ 14]) 0 0 4 1 0 0 0 [])).isSome = true := by decide

/-- Spans of local memory below LMSCR 0x5000: the last byte a load may read, one past it, one past 0x6000, one below 0. -/
theorem test_witness_footprints :
    let c : Core := { lmscr := 0x5000 }
    c.bar = false ∧ c.lmscr.toNat % 32 = 0 ∧ (∀ q ∈ [((0 : Int), 32), (0x4FFF, 1), (0x4FFF, 2), (-1, 4)], 0 < q.2) ∧ SpanReads c (0, 32) ∧
    SpanReads c (0x4FFF, 1) ∧ ¬ SpanReads c (0x4FFF, 2) ∧ ¬ SpanReads c (-1, 4) ∧ ¬ SpanReads { c with lmscr := 0x6000 } (0x5FFF, 2) := by decide

/-- Descriptors of cp.send and cp.put, of a local and of a pool source, in range and out of it. -/
theorem test_witness_send_fields :
    let j (k w src dst : Nat) (tr : Bool) : Job := { kind := k, tr := tr, desc := [1, w, src, dst] }
    let reads (x : Job) : Prop := let w := dsc x 1
      ∀ r ∈ List.range (w / 2 ^ 16 % 2 ^ 14 + 1), 0 ≤ ((dsc x 2 % 2 ^ 26 : Nat) : Int) + r * sgn 16 (w / 2 ^ 32 % 2 ^ 16) ∧
        ((dsc x 2 % 2 ^ 26 : Nat) : Int) + r * sgn 16 (w / 2 ^ 32 % 2 ^ 16) + (w % 2 ^ 14 + 1 : Nat) ≤ 2 ^ 26
    (j 1 0 0 0 false).kind ≤ 1 ∧ dsc (j 0 (2 ^ 14) 0 0 false) 1 / 2 ^ 14 % 4 ≠ 0 ∧ ¬ 64 + 1 ≤ 64 ∧ dsc (j 0 0 0x1000 0x4000 false) 2 / 2 ^ 62 % 4 = 0 ∧
    dsc (j 0 0 (2 ^ 62 + 0x3FFFFFF) (2 ^ 62 + 39 * 2 ^ 26) false) 2 / 2 ^ 62 % 4 = 1 ∧ reads (j 0 0 (2 ^ 62 + 0x3FFFFFF) 0 false) ∧
    ¬ reads (j 0 1 (2 ^ 62 + 0x3FFFFFF) 0 false) ∧ ¬ reads (j 0 (2 ^ 16 + 0xFFFF * 2 ^ 32) (2 ^ 62) 0 false) ∧ 2 ^ 57 / 2 ^ 57 % 2 ^ 7 ≠ 0 ∧
    655359 * 2 ^ 26 / 2 ^ 26 % 2 ^ 20 ≤ 655359 := by decide

/-- Run lists: at 0x1000, empty, misaligned; transposed with an element that fits no type. Halos at the end of local memory. -/
theorem test_witness_run_and_halo_fields :
    let l (x : Nat) : Job := { kind := 2, desc := [1, x, 0, 0] }
    let h (x : Nat) : Job := { kind := 3, desc := [1, 0, 0, 0, x, 0] }
    let keys (x : Job) : Nat := let d := dsc x 4 / 2 ^ 15 % 8 + 2
      ((List.range d).map fun i => ax d (keyOf d (dsc x 2)) i + 1 - ax d (keyOf d (dsc x 1)) i).prod
    (l (2 ^ 16 + 0x1000)).kind = 2 ∧ dsc (l (2 ^ 16 + 0x1000)) 1 / 2 ^ 32 % 8 ≤ 5 ∧ dsc (l (2 ^ 16 + 0x1000)) 3 / 2 ^ 15 % 2 ^ 33 = 0 ∧
    dsc (l (2 ^ 16 + 0x1000)) 1 % 2 ^ 15 % 16 = 0 ∧ dsc (l 0x1008) 1 % 2 ^ 15 % 16 ≠ 0 ∧ dsc (l 0) 1 / 2 ^ 16 % 2 ^ 15 = 0 ∧
    ¬ dsc (l (6 * 2 ^ 32)) 1 / 2 ^ 32 % 8 ≤ 5 ∧ (h 0x5FFF).kind = 3 ∧ (h 0).tr = false ∧ dsc (h 0) 4 / 2 ^ 15 % 8 + 2 ≤ 8 ∧ dsc (h 0) 4 / 2 ^ 18 % 8 < 2 ∧
    dsc (h 0) 4 / 2 ^ 22 % 2 ^ 32 < 2 ^ axisBits 2 ∧ dsc (h 0) 5 / 2 ^ 57 % 2 ^ 7 = 0 ∧ dsc (h 0x5FFF) 4 % 2 ^ 15 + keys (h 0x5FFF) ≤ 0x6000 ∧
    0x6000 < dsc (h 0x6000) 4 % 2 ^ 15 + keys (h 0x6000) ∧ ¬ dsc (h (2 * 2 ^ 18)) 4 / 2 ^ 18 % 8 < 2 := by decide

theorem test_witness_matrix_jobs : DescriptorsOk multiplying 0 5 badMm ∧ mmTrap (self multiplying) (jobOf multiplying 4 0 5 1 0 0 0 [0x3F800000, 0, 0, 0]) = none ∧
    (mmTrap (self (described [])) (jobOf (described []) 4 0 5 1 0 0 0 [0x3F800000, 0, 0, 0])).isSome = true ∧ ¬ DescriptorsOk multiplying 4 5 badMm := by decide

theorem test_witness_barista_jobs : 5 ≤ 5 ∧ DescriptorsOk sending 0 7 badPost ∧ ¬ DescriptorsOk sending 2 7 badPost ∧ 5 < 6 ∧ 7 < 8 ∧ (7 : Nat) ≠ 0 ∧
    (7 : Nat).testBit 2 = true := by decide

/-- Core 0 has jobs at the head of its queues. -/
def working (j : Job) : State := { inDom {} { jobs := [[j], [j], [j]] } with args := {} }

theorem test_witness_jobs_complete :
    let j : Job := { ending := true, desc := [0x60000] }
    let e : Job := { ending := true, error := 4, desc := [0x60008 * 2 ^ 32 + 0x60000] }
    let s : State := on { slots := [{ blockedIn := some (.cpSend 0 0 0 0 1 15) }], jobWait := [[(0, {})]] }
    headJob (working j) 0 2 = some j ∧ j.error = 0 ∧ NoneFlying (working j) 0 2 j.id ∧ RecordsBelow (working j) ∧ 0x300000 ≤ ctrOff (jobCtr j) ∧
    headJob (working e) 0 0 = some e ∧ e.error ≠ 0 ∧ e.error < 2 ^ 8 ∧ jobRec e ≠ 0 ∧ 0x300000 ≤ ctrOff (jobRec e) ∧
    ctrOff (jobCtr e) + 8 ≤ ctrOff (jobRec e) ∧ jobRec { e with desc := [0x60000] } = 0 ∧
    (0, ({} : Flight)) ∈ { working j with flights := [(0, {})] }.flights ∧ ({} : Flight).jobId = j.id ∧
    kindQueue 0 = 0 ∧ nth [] (coreOf s 0).jobWait 0 = [(0, {})] ∧ (queueOf (coreOf s 0) 0).length < 4 ∧
    (slotAt (coreOf s 0) 0).blockedIn = some (.cpSend 0 0 0 0 1 15) ∧ Fits (coreOf s 0) 0 ∧ jobDest (.cpSend 0 0 0 0 1 15) = 15 := by decide

theorem test_witness_copy_streams :
    let j : Job := { desc := [1, 0x3FFF + 2 ^ 14, 0x1000, 0x4000] }
    j.kind = 0 ∧ j.tr = false ∧ 0x3FFF < dsc j 1 % 2 ^ 14 + 1 ∧ dsc j 3 / 2 ^ 62 % 4 ≠ 2 ∧ { j with tr := true }.tr = true ∧
    dsc j 1 / 2 ^ 14 % 4 ≠ 0 ∧ 0 < 2 ^ (dsc j 1 / 2 ^ 14 % 4 - 1) := by decide

theorem test_witness_copy_turn :
    let j : Job := { started := true, total := 1, desc := [1, 0, 0x1000, 0x4000] }
    let s : State := inDom {} { jobs := [[j]] }
    headJob s (8 * s.args.a + 0) 0 = some j ∧ (∀ m, m < 8 → m ≠ 0 → headJob s (8 * s.args.a + m) 0 = none) ∧ (rodOf s s.args.a).copyFree ≤ s.cycle ∧
    j.since ≤ s.cycle ∧ j.next < j.total ∧ j.rows = [] ∧ dsc j 2 / 2 ^ 62 % 4 = 0 ∧ dsc j 3 / 2 ^ 62 % 4 ≤ 1 ∧
    (∀ f ∈ s.flights, f.2.core = 0 → f.2.trans = false) := by decide

/-- A source row is read once for the stream positions that use it in order, until all of it is used, and again then (R294, R356). -/
theorem test_row_read_once :
    let s : State := inDom {} (withWords [(0x2000, 7)])
    let p : Piece := { src := { space := 0, addr := 0x2000 }, dst := { space := 0, addr := 0x4000 } }
    let q : Piece := { p with src := { p.src with addr := 0x2001 } }
    let all : Piece := { p with n := 32 }
    (useRow s [] p).2 = (1, 7) ∧ (useRow s [(0x100, 3, 0x0605)] q).2 = (0, 0x0605) ∧ pieceBytes 0x0605 q = [6] ∧ (useRow s [] all).1 = [] ∧
    ((useRow s (useRow s [] all).1 p).2 = (1, 7)) := by decide

def byte : Wr := { addr := 0x4000, data := [7] }
def deposit : Flight := { writes := [(0, byte)] }
def landing : State := { working {} with
  cores := [(0, { jobs := [[{}], [{ inFlight := 1 }]], lmspill := 0x4000, lmscr := 0x5000 })], flights := [(0, deposit)], nextId := 1 }

theorem test_witness_copy_deposit : Table.find landing.flights landing.args.b = some deposit ∧ headJob landing 0 0 = some {} ∧ ({} : Job).id = deposit.jobId ∧
    landing.args.d = 0 ∧ landing.args.b < landing.nextId ∧ OnlyWrites deposit ∧ PortsFree landing 0 ∧
    OneDeposit landing {} deposit byte ∧ dieInDom (theDom landing 0) (dieOfCore 655359) = false :=
  ⟨by decide, by decide, by decide, by decide, by decide, by decide, by decide, ⟨⟨0, by decide⟩, by decide⟩, by decide⟩

/-- No earlier flight of the job has a write to that row; one has. -/
theorem test_witness_rows_behind :
    let s : State := { landing with flights := [(0, deposit), (1, deposit)], nextId := 2 }
    NoneBehind landing landing.args.b deposit byte ∧ NoneBehind s 0 deposit byte ∧ ¬ NoneBehind s 1 deposit byte ∧
    NoneBehind { landing with args := { b := 1 } } 0 deposit byte ∧ ({} : Job).error = 0 ∧ ({ inFlight := 2 } : Job).error = 0 :=
  ⟨by decide, by decide, by decide, by decide, by decide, by decide⟩

/-- Flight 0 of a job at the head of queue 0 waits for access 0. -/
def accessEnds (j : Job) (f : Flight) (x : Acc) : State := { working j with flights := [(0, { f with wait := [0] })], accs := [(0, x)], nextId := 1, args := { d := 1 } }

theorem test_witness_copy_accesses :
    let ok : Acc := { kind := .uread, stage := .back }
    let miss : Acc := { kind := .uread, stage := .fault, got := 3 }
    let j : Job := { pages := [0], inFlight := 2, started := true }
    let s := accessEnds j {} miss
    Table.find s.flights s.args.b = some { wait := [0] } ∧ headJob s 0 0 = some j ∧ j.id = 0 ∧ s.args.d ≠ 0 ∧ acc s (s.args.d - 1) miss ∧ miss.got = 3 ∧
    j.pages.contains (miss.va / 2 ^ 16) = true ∧ ({} : Job).pages.contains (miss.va / 2 ^ 16) = false ∧ acc (accessEnds j {} ok) 0 ok ∧ ok.op ≠ 3 ∧
    acc (accessEnds j {} { miss with got := 4 }) 0 { miss with got := 4 } := by decide

theorem test_witness_copy_faults :
    let f : Job := { fault := some (0, 2 ^ 57 - 1), desc := [0x60008 * 2 ^ 32 + 1] }
    let h : Job := { pages := [0], held := [1, 0], total := 2 }
    headJob (working f) 0 0 = some f ∧ f.fault = some (0, 2 ^ 57 - 1) ∧ f.inFlight = 0 ∧ 0x300000 ≤ ctrOff (jobRec f) ∧ f.kind ≤ 3 ∧ f.id < 2 ^ 32 ∧
    RecordsBelow (working f) ∧ headJob (working h) 0 0 = some h ∧ h.pages = [(working h).args.b] := by decide

theorem test_witness_gathers :
    let f : Flight := { gather := [(0, 0x4000, 8)], frames := [(0, 0x10000, 64)] }
    let s := accessEnds {} f { kind := .uread, stage := .back, n := 256 }
    Table.find s.flights s.args.b = some { f with wait := [0] } ∧ isDram (framePa f.frames (256 * (0 / 256))) = true ∧
    acc s (s.args.d - 1) { kind := .uread, stage := .back, n := 256 } ∧ headJob s 0 0 = some {} := by decide

theorem test_witness_matrix_configuration :
    6 ≤ 6 ∧ rdE (self sending) 6 / 2 ^ 49 % 2 ^ 15 = 0 ∧ badLoc (rdE (self sending) 7) = false ∧ rdE (self (described [2 ^ 49])) 1 / 2 ^ 49 % 2 ^ 15 ≠ 0 ∧
    badLoc (rdE (self (described [2 ^ 35])) 1) = true := by decide

/-- Descriptors of mx.mm: local operands that fit; a misaligned B; an A past LMSCR; rows of C below LMSPILL; a BEAD8 job without scales; and C in a
pool. LMSPILL is 0x1000, LMSCR 0x5000. -/
theorem test_witness_matrix_fields :
    let c : Core := { lmspill := 0x1000, lmscr := 0x5000 }
    let sh (x : Nat) := 2 ^ 12 * x + 2 ^ 16 + 2 ^ 28 + 2 * 2 ^ 40
    let j (a b d x cfg : Nat) : Job := { kind := 4, desc := [1, a, b, d, sh x, cfg, 0] }
    let spans (x : Job) := ownRows (dsc x 1) 32 16 16 ++ ownRows (dsc x 2) 32 16 16
    let at_ (x : Job) (i : Nat) := dsc x 3 % 2 ^ 15 + 64 * i
    (∀ i ∈ [1, 2, 3], LocationOk (dsc (j 0x2000 0x2400 0x1000 8 0) i)) ∧ ¬ LocationOk (2 ^ 15) ∧ ¬ LocationOk (3 * 2 ^ 62) ∧ LocationOk (2 ^ 63 + 2 ^ 15) ∧
    0x2408 % 2 ^ 15 % 32 ≠ 0 ∧ footTrap c (spans (j 0x2000 0x2400 0x1000 8 0)) = none ∧ (footTrap c (spans (j 0x4FE0 0x2400 0x1000 8 0))).isSome = true ∧
    (∀ i, i < 16 → c.lmspill.toNat ≤ at_ (j 0 0 0x4C00 8 0) i ∧ at_ (j 0 0 0x4C00 8 0) i + 4 * 16 ≤ c.lmscr.toNat) ∧
    (∃ i, i < 16 ∧ ¬ (c.lmspill.toNat ≤ at_ (j 0 0 0xFE0 8 0) i ∧ at_ (j 0 0 0xFE0 8 0) i + 4 * 16 ≤ c.lmscr.toNat)) ∧
    (0 : Nat).testBit 48 = false ∧ (2 ^ 48 + 2 ^ 32 : Nat).testBit 48 = true ∧ (16 + 31) / 32 ≤ (2 ^ 48 + 2 ^ 32) / 2 ^ 32 % 2 ^ 16 ∧
    dsc (j 0x2000 0x2400 (2 ^ 62) 8 0) 3 / 2 ^ 62 % 4 ≠ 0 := by decide

/-- A matrix job of one tile of int8 at the head of lane 0's queue. -/
def tiles : Job := { kind := 4, desc := [1, 0x2000, 0x2400, 0x1000, 2 ^ 12 * 8 + 2 ^ 16 + 2 ^ 28 + 2 * 2 ^ 40, 0, 0, 0, 0] }
def fetching (x : Option Tile) : State := { working tiles with rods := [(0, { mxTile := x, mxRuns := x })] }

theorem test_witness_tiles :
    let s := fetching none
    s.args.d = 0 ∧ (rodOf s 0).mxTile = none ∧ nextLane (arbitrate 0 s) 0 = some 0 ∧ laneNext (arbitrate 0 s) 0 0 = some (.tile tiles 0) ∧
    (∀ i ∈ [1, 2, 3], dsc tiles i / 2 ^ 62 % 4 = 0) ∧ hasScales tiles = false ∧ 15 < mxM tiles ∧ 15 < mxN tiles ∧ mxFmt tiles = 8 ∧
    queueOf (coreOf s 0) 1 = [tiles] ∧ tiles.ending = false ∧ tiles.next < tileCount tiles ∧ fencesPassed s 0 tiles = true ∧
    fencesPassed s 0 { tiles with after := [(1, 1)] } = false :=
  ⟨by decide, by decide, by decide, rfl, by decide, by decide, by decide, by decide, by decide, by decide, by decide, by decide, by decide, by decide⟩

theorem test_witness_formats : let j (x : Nat) : Job := { tiles with desc := [1, 0x2000, 0x2400, 0x1000, 2 ^ 12 * x + 2 ^ 16 + 2 ^ 28 + 2 * 2 ^ 40, 0, 0, 0, 0] }
    mxFmt (j 7) ≤ 7 ∧ mxFmt (j 9) = 9 ∧ mxFmt (j 11) = 11 := by decide

theorem test_witness_visits : let r : Rod := { mxLane := 3, mxNew := true }
    (laneNext (fetching none) 0 0).isSome = true ∧ (∀ m, m < 1 → ¬ (laneNext (fetching none) 0 (m + 1)).isSome = true) ∧ (r.mxNew = true ∨ 0 < r.mxLeft) ∧
    (laneNext (working {}) 0 7).isSome = false ∧ queueOf (coreOf (fetching none) 1) 1 = [] := by decide

theorem test_witness_tiles_run :
    let r : Tile := { ready := true }
    let w : Tile := { todo := [[1]], stage := 1 }
    let s : State := { working tiles with rods := [(0, { mxTile := some r, mxLane := 7, mxNew := false })] }
    let u : State := { s with cores := [], rods := [(0, { mxTile := some { r with lane := 1 } })] }
    (rodOf s 0).mxTile = some r ∧ (rodOf s 0).mxRuns = none ∧ max r.at_ (rodOf s 0).mxFree ≤ s.cycle ∧ (rodOf (arbitrate 0 s) 0).mxLane = r.lane ∧
    laneNext (arbitrate 0 s) 0 0 = some (.tile tiles r.index) ∧ tiles.id = r.job ∧ dsc tiles 3 / 2 ^ 62 % 4 ≤ 1 ∧ (rodOf (arbitrate 0 u) 0).mxLane ≠ 1 ∧
    (rodOf (fetching (some w)) 0).mxTile = some w ∧ headJob (fetching (some w)) 0 1 = some tiles ∧ pinRoom (fetching (some w)) 0 [1] = true ∧
    victimOf (dieAt (fetching (some w)) 0) 1 = none :=
  ⟨by decide, by decide, by decide, by decide, rfl, by decide, by decide, by decide, by decide, by decide, by decide, by decide⟩

theorem test_witness_pins :
    let full : State := { State.reset with dies := [(0, { l2 := [(1, { pins := 255 })] })] }
    let p : Tile := { pins := [1] }
    let s : State := { working tiles with rods := [(0, { mxRuns := some p })], dies := [(0, { l2 := [(1, { pins := 1 })] })] }
    pinRoom full 0 [1] = false ∧ (rodOf s 0).mxRuns = some p ∧ (rodOf s 0).mxTile = none ∧ Table.find (dieAt s (s.args.a / 2048)).l2 1 = some { pins := 1 } := by decide

theorem test_witness_tile_rows :
    let s : State := { landing with args := { b := 1 } }
    let u : State := { accessEnds {} { writes := [(0, { byte with kind := 2 })] } { kind := .uwrite, stage := .back, op := 3, pa := 0x10000 } with args := { b := 1, d := 1 } }
    s.args.b ≠ 0 ∧ Table.find s.flights (s.args.b - 1) = some deposit ∧ headJob s s.args.c 1 = some { inFlight := 1 } ∧ OnlyWrites deposit ∧ PortsFree s byte.unit ∧
    Table.find u.flights (u.args.b - 1) = some { writes := [(0, { byte with kind := 2 })], wait := [0] } ∧
    acc u (u.args.d - 1) { kind := .uwrite, stage := .back, op := 3, pa := 0x10000 } ∧
    isWindow (framePa ([] ++ [frameOf { kind := .uwrite, stage := .back, op := 3, pa := 0x10000 }]) 0) = false := by decide

/-- Rows of C of a tile that goes to a pool or to DRAM; an earlier row to that place is still to land, or none. -/
theorem test_witness_tile_rows_behind :
    let s : State := { landing with args := { b := 1 } }
    NoneBehind s (s.args.b - 1) deposit byte ∧ isPool (framePa [(0, poolBase, 64)] 0) = true ∧ isPool (framePa [(0, 0x10000, 64)] 0) = false ∧
    isWindow (framePa [(0, poolBase, 64)] 0) = false :=
  ⟨by decide, by decide, by decide, by decide⟩

/-- Barista 0, with a program for code 0, requests in its ring and a current one. -/
def barista (ring : List Job) (cur : Option Job) : State := { State.reset with
  cur := 655360, domains := [(0, { mask := 1 })],
  cores := [(655360, { withWords [(0, 0x800), (0x404, 0x1000), (0x410, 2 ^ 13), (0x40C, 0x2000)] with bar := true, ring := ring, current := cur }),
            (0, { jobs := [[], [], [{ kind := 5 }]], lmspill := 0x4000, lmscr := 0x5000 })] }

theorem test_witness_barista_takes :
    let s := barista [{}] none
    Solo s ∧ (self s).bar = true ∧ liveRecord (self s) = none ∧ rdW (self s) 1 % 64 = 0 ∧ Storable (self s) (rdW (self s) 1) 32 ∧
    Storable (self s) (rdW (self s) 1 + 32) 32 ∧ (self s).ring = [{}] ∧ (self s).ringWait = [] ∧
    Memory.read (self s).lm (4 * (dsc {} 1 / 2 ^ 16 % 2 ^ 4)) 4 ≠ 0 ∧ (self (barista [] none)).ring = [] ∧
    (∀ w ∈ [2 ^ 64 - 1], w < 2 ^ 64) := by decide

theorem test_witness_barista_reads :
    let s := barista [] none
    isDram (rdX (self s) 4) = true ∧ rdX (self s) 4 % 256 = 0 ∧ Config.cores + channelOf (lineOf (rdX (self s) 4)) = s.cur ∧
    sectorOf (rdX (self s) 4) + (1 + 1) ≤ 4 ∧
    rdW (self s) 3 % 32 = 0 ∧ (∀ i, i < 8 * (1 + 1) → Storable (self s) (rdW (self s) 3 + 32 * i) 32) := by decide

theorem test_witness_barista_pushes_and_ends :
    let s := barista [] (some { kind := 5 })
    (self s).current = some { kind := 5 } ∧ rdE (self s) 1 / 2 ^ 62 % 4 = 0 ∧ rdE (self s) 1 / 2 ^ 46 % 2 ^ 16 = 0 ∧ rdE (self s) 1 / 2 ^ 15 % 2 ^ 11 = 0 ∧
    rdE (self s) 1 / 2 ^ 26 % 2 ^ 20 < Config.cores ∧ rdE (self s) 1 % 2 ^ 26 % 32 = 0 ∧
    (∀ i, i ≤ 15 → Reachable (self s) (rdW (self s) 1 + 32 * i) 32) ∧ nth [] (coreOf s 0).jobs 2 = [{ kind := 5 }] ∧
    (self (barista [] none)).current = none ∧ ({} : Job).error = 0 ∧ (self (barista [] (some { inFlight := 1 }))).current = some { inFlight := 1 } := by decide

theorem test_witness_barista_events :
    let s : State := { inDom {} { jobs := [[], [], [{ kind := 5 }]] } with args := {} }
    let taking : Core := { withWords [(0, 0x800)] with bar := true, slots := [{ blockedIn := some (.mclTake 1 15) }] }
    let u : State := { s with cores := [(0, { jobs := [[], [], [{ kind := 5 }]] }), (655360, taking)] }
    headJob s s.args.a 2 = some { kind := 5 } ∧ ({} : Job).id = s.args.b ∧ ({} : Job).dom = s.args.c ∧ Config.cores + dsc ({ kind := 5 } : Job) 1 % 2 ^ 9 = 655360 ∧ (slotAt (coreOf s 655360) 0).blockedIn = none ∧
    (coreOf s 655360).ring.length < 256 ∧ (slotAt (coreOf u 655360) 0).blockedIn = some (.mclTake 1 15) ∧ (coreOf u 655360).ring = [] ∧
    Fits (coreOf u 655360) 0 ∧ Memory.read (coreOf u 655360).lm (4 * (dsc ({ kind := 5 } : Job) 1 / 2 ^ 16 % 2 ^ 4)) 4 ≠ 0 := by decide

theorem test_witness_barista_arrivals :
    let s (b : Option Instr) (j : Job) : State := { barista [] none with args := { a := 655360 }, flights := [(0, deposit)], cores :=
      [(655360, { bar := true, current := some j, slots := [{ blockedIn := b }] }), (0, { lmspill := 0x4000, lmscr := 0x5000 })] }
    let x := s none { inFlight := 1 }
    let u := s (some .mclDone) { inFlight := 1 }
    Table.find x.flights x.args.b = some deposit ∧ (coreOf x x.args.a).current = some { inFlight := 1 } ∧ deposit.core = ({} : Job).core ∧
    deposit.jobId = ({} : Job).id ∧ PortsFree x byte.unit ∧ (slotAt (coreOf x 655360) 0).blockedIn = none ∧
    (slotAt (coreOf u 655360) 0).blockedIn = some .mclDone ∧ (coreOf x 655360).takes = x.args.b ∧ (coreOf x 0).takes ≠ 1 ∧
    (coreOf x 655360).running = false ∧ dieInDom (theDom x 0) (dieOfCore byte.unit) = true := by decide

theorem test_witness_barista_deposit :
    let s : State := { barista [] none with cores := [(655360, { bar := true }), (0, { lmspill := 0x4000, lmscr := 0x5000 })] }
    OneDeposit s {} deposit byte := ⟨⟨0, by decide⟩, by decide⟩

theorem test_witness_barista_sectors :
    let y : Acc := { kind := .uread, stage := .back, core := 655360, pa := 0x100, phys := true }
    let s (y : Acc) (more : Table Acc) : State := { barista [] none with args := { a := 655360, d := 1 }, nextId := 2, accs := (0, y) :: more, cores :=
      [(655360, { bar := true, slots := [{ blockedIn := some (.mclRead 1 1 2), opA := 0x100, opB := 0x2000 }] })] }
    let u := s y [(1, y)]
    acc (s y []) ((s y []).args.d - 1) y ∧ (slotAt (coreOf u 655360) 0).blockedIn = some (.mclRead 1 1 2) ∧ 0 < u.nextId ∧
    statusAt (coreOf u 655360) 0 + 4 ≤ (slotAt (coreOf u 655360) 0).opB + (y.pa - (slotAt (coreOf u 655360) 0).opA) ∧
    (∀ q ∈ (s y []).accs, q.1 ≠ 0 → q.2.core ≠ 655360) ∧ (∃ q ∈ u.accs, q.1 ≠ 0 ∧ q.2.core = 655360) ∧
    acc (s { y with stage := .fault } []) 0 { y with stage := .fault } ∧ isDram y.pa = true := by decide

/-- A request that its device has ended; a push behind an earlier one to its row, and one behind none. -/
theorem test_witness_barista_ended_and_behind :
    let s : State := barista [] (some { kind := 5, error := 9 })
    let w : State := { s with flights := [(0, deposit), (1, deposit)], args := { a := 655360, b := 1 }, cores := [(655360, { bar := true, current := some {} })] }
    (Solo s ∧ (self s).bar = true ∧ (self s).current = some { kind := 5, error := 9 } ∧ ({ error := 9 } : Job).error ≠ 0) ∧
    (Table.find w.flights w.args.b = some deposit ∧ (coreOf w w.args.a).current = some {} ∧ deposit.core = ({} : Job).core ∧ deposit.jobId = ({} : Job).id ∧
      (slotAt (coreOf w w.args.a) 0).blockedIn = none ∧ deposit.writes = [(0, byte)] ∧ 0 ≤ w.cycle) ∧
    ¬ NoneBehind w w.args.b deposit byte ∧ NoneBehind { w with args := { a := 655360 } } 0 deposit byte :=
  ⟨by decide, by decide, by decide, by decide⟩

theorem test_witness_barista_read_nacked :
    let y : Acc := { kind := .uread, stage := .fault, core := 655360, pa := 0x100, phys := true }
    let u : State := { barista [] none with args := { a := 655360, d := 1 }, nextId := 2, accs := [(0, y)], cores :=
      [(655360, { bar := true, slots := [{ blockedIn := some (.mclRead 1 1 2), opA := 0x100, opB := 0x2000 }] })] }
    acc u (u.args.d - 1) y ∧ (slotAt (coreOf u u.args.a) 0).blockedIn = some (.mclRead 1 1 2) ∧ 0 < u.nextId ∧ y.stage = .fault ∧ isDram y.pa = true := by
  decide

/-- Core 0 in an open instant, with a runnable task at PC 0 of a code image; its issue is the first entry of the agenda. -/
def issuingAt (word : Nat) : State := { inDom { code := Memory.write [] 0 4 word, codeLen := 4, isOpen := true } { slots := [{ live := true }], armed := some 0 } with
  agenda := [{ time := 1, tie := 0, item := .issue 0 }] }

def okIs {ε : Type} (x : Except ε Instr) (i : Instr) : Bool := match x with | .ok j => j == i | .error _ => false
def errorIs (x : TrapOr Instr) (y : Trap) : Bool := match x with | .ok _ => false | .error z => z == y

theorem test_witness_step :
    let s := issuingAt 0x00062183
    let u : State := { s with turn := some 0 }
    (match leastOf s.agenda with | some (e, rest) => e.item == .issue 0 && rest.isEmpty | none => false) = true ∧ s.turn = none ∧
    (match turnOf 0 { s with agenda := [] } with | .go v => okIs (fetch (issuing 0 v)).2 (.add 0 12 4 3) | .wait _ => false) = true ∧
    u.turn = some 0 ∧ okIs (fetch (issuing 0 u)).2 (.add 0 12 4 3) = true ∧ errorIs (fetch (issuing 0 { issuingAt 0x80062183 with turn := some 0 })).2 (illeg 2) = true ∧
    imageWord (imageOf s s.cur) (insPc (self s)) = (4, 0x00062183) ∧ refusedFirst (self s).bar 4 0x00062183 = false ∧
    okIs (decodeWord (8 * 4) 0x00062183) (.add 0 12 4 3) = true ∧
    (match turnOf 0 { s with cores := [], agenda := [] } with | .go _ => false | .wait _ => true) = true := by decide

theorem test_witness_words_that_trap :
    let s (w : Nat) : State := issuingAt w
    let f (w : Nat) := imageWord (imageOf (s w) 0) (insPc (self (s w)))
    0x00000071 / 2 % 2 ^ 6 = 0x38 + 0 ∧ 0x0000007D / 2 % 2 ^ 6 = 0x38 + 6 ∧ imageWord (imageOf State.reset 0) 0 = (0, 0) ∧
    f 0x00000053 = (4, 0x53) ∧ refusedFirst false 4 0x00000053 = true ∧ f 0x10000003 = (4, 0x10000003) ∧ refusedFirst false 4 0x10000003 = false ∧
    (match decodeWord 32 0x10000003 with | .error (.reservedField m) => m == "ADD" | _ => false) = true ∧ refusedFirst false 4 0x00000049 = false ∧
    (match decodeWord 32 0x00000049 with | .error (.badOperand _) => true | _ => false) = true ∧ 4 ≤ 4 := by decide

theorem test_witness_buffer :
    let s := on { buf := [3, 4] }
    (coreOf s s.args.a).buf = 3 :: [4] ∧ (coreOf s s.args.a).bufClock = s.cycle ∧ (coreOf s s.args.a).busy ≤ s.cycle := by decide

/-- A handler in slot 2, entered at word 4 of the code; slot 0 is served, or none. -/
def handled (serving : Option Nat) : State := inDom {} { withWords [(0x404, 0x400), (0xC04, 0x400), (0xC08, 0x800)] with
  tvec := 0x00048C00, wsp := if serving.isSome then 0xC00 else 0x400, serving := serving, slots := [{ live := true }] }

theorem test_witness_trap_entry :
    let s := handled none
    let c := self s
    let h := handlerBase c
    Solo s ∧ s.cur < Config.cores ∧ domOf s s.cur = some 0 ∧ c.serving = none ∧ c.tvec.toNat / 2 ^ 15 % 2 = 1 ∧ slotBase c (here s) + 0x400 ≤ h ∧
    slotBase c (slotOf c h) = h ∧ (domAt s 0).ended = false ∧ (self (handled (some 0))).serving.isSome = true ∧
    (self (inDom {} {})).tvec.toNat / 2 ^ 15 % 2 = 0 := by decide

/-- Core 0 leads a gang of two, with a handler. -/
def trappedGang : State := inDom {} { tvec := 0x00048C00, gangSize := 2 }

theorem test_witness_gang_trap : let s := trappedGang
    let c := self s
    c.gangBase = s.cur ∧ c.gangSize ≠ 0 ∧ s.cur < Config.cores ∧ domOf s s.cur = some 0 ∧ c.serving = none ∧ c.tvec.toNat / 2 ^ 15 % 2 = 1 ∧
    slotBase c (here s) + 0x400 ≤ handlerBase c ∧ slotBase c (slotOf c (handlerBase c)) = handlerBase c ∧ (slotAt c (curSlot c)).trap = none := by decide

theorem test_witness_handler_return :
    let s := handled (some 0)
    let k : State := { s with cores := [(0, { handled (some 0) |>.cores |> Table.get {} |> (· 0) with slots := [{ live := true, outst := 1 }] })] }
    Solo s ∧ (self s).serving = some 0 ∧ rdW (self s) 1 = slotBase (self s) 0 ∧ slotBase (self s) 0 < 2 ^ 32 ∧ (slotAt (self s) 0).outst = 0 ∧
    (slotAt (self k) 0).outst ≠ 0 ∧ isPriv (self s) = true ∧ rdW (self s) 2 ≠ slotBase (self s) 0 ∧ 13 < 14 ∧ (13 : Nat) ≠ 6 ∧ isPriv (self State.reset) = false ∧
    (slotAt (coreOf (on { slots := [{}, { trap := some (illeg 4) }] }) 0) 1).trap = some (illeg 4) ∧
    (∀ j, j < 1 → (slotAt (coreOf (on { slots := [{}, { trap := some (illeg 4) }] }) 0) j).trap = none) ∧ (self s).gangSize = 0 := by decide

/-- The handler's slot 2 has no task, and its status word lies apart from that of slot 0. -/
theorem test_witness_handler_slot : let s := handled (some 0)
    (slotAt (self s) (here s)).live = false ∧ statusAt (self s) 0 + 4 ≤ statusAt (self s) (here s) := by decide

/-- A privileged task in slot 0; slot 1 holds a paused task, slot 2 none; x4 names the die, x5 two dies; w12 and w13 a range to wipe. -/
def system : State := inDom {} { withWords [(0x450, 0x40), (0x404, 0x800), (0x408, 0xC00), (0x850, 2), (0x420, 1), (0x428, 2), (0x430, 0x1000), (0x434, 0x1400),
  (0x43C, 0x1010)] with slots := [{ live := true }, { live := true }] }

theorem test_witness_system_instructions :
    Solo system ∧ isPriv (self system) = true ∧ (2 = 0 ∨ (2 ≤ 2 ∧ 0 = 0)) ∧ rdX (self system) 7 ≠ 0 ∧ rdX (self system) 4 ≠ 0 ∧
    (∀ n, n < 64 → (rdX (self system) 4).testBit n = true → n < 40 ∧ (dom system).mask.testBit n = true) ∧ (rdX (self system) 5).testBit 1 = true ∧
    (dom system).mask.testBit 1 = false ∧ (self system).bar = false ∧ rdW (self system) 15 % 32 ≠ 0 ∧ rdW (self system) 12 % 32 = 0 ∧
    rdW (self system) 12 + rdW (self system) 13 ≤ (self system).lmscr.toNat ∧ 0x400 ≤ rdW (self system) 12 := by decide

theorem test_witness_wipe :
    (∀ i, i < slotCount (self system) → (slotAt (self system) i).live = true ∨ slotBase (self system) i = (self system).tvec.toNat / 2 ^ 10 % 2 ^ 5 * 0x400 →
      rdW (self system) 12 + rdW (self system) 13 ≤ slotBase (self system) i ∨ slotBase (self system) i + 0x400 ≤ rdW (self system) 12) := by decide

theorem test_witness_save_engine :
    SlotOk (self system) ∧ isSlotBase (self system) (rdW (self system) 1) = true ∧ rdW (self system) 1 ≠ wsBase (self system) ∧
    rdW (self system) 1 ≠ (self system).tvec.toNat / 2 ^ 10 % 2 ^ 5 * 0x400 ∧ slotOf (self system) (rdW (self system) 1) ≠ here system ∧
    (slotAt (self system) 1).live = true ∧ stState (self system) 1 = stPaused ∧ rdX (self system) 3 % 1024 = 0 ∧ rdX (self system) 3 < 2 ^ 57 ∧
    isSlotBase (self system) (rdW (self system) 2) = true ∧ slotOf (self system) (rdW (self system) 2) = 2 ∧ (slotAt (self system) 2).live = false ∧
    (slotAt (self system) 2).reserved = false := by decide

/-- The save engine of core 0 begins a transfer of slot 1 for slot 0, whose flight is 0; and one of its accesses, 0, has ended. -/
def saving (i : Instr) (outst d c : Nat) (x : Acc) : State := { inDom {} { slots := [{ live := true, blockedIn := some i }, { outst := outst }] } with
  flights := [(0, { sector := 1, wait := [0] })], accs := [(0, x)], args := { c := c, d := d } }

theorem test_witness_save_engine_begins :
    let s (i : Instr) (n : Nat) : State := saving i n 0 0 {}
    (s .idle 0).args.d = 0 ∧ Table.find (s .idle 0).flights 0 = some { sector := 1, wait := [0] } ∧
    (slotAt (coreOf (s (.wsSwOut 1 2) 1) 0) 0).blockedIn = some (.wsSwOut 1 2) ∧ (slotAt (coreOf (s (.wsSwOut 1 2) 1) 0) 1).outst ≠ 0 ∧
    (slotAt (coreOf (s (.wsSwIn 1 2) 0) 0) 0).blockedIn = some (.wsSwIn 1 2) ∧ (slotAt (coreOf (s (.wsSwOut 1 2) 0) 0) 1).outst = 0 ∧
    (slotAt (coreOf (s (.wsSwIn 1 2) 0) 0) 0).opB < 2 ^ 57 ∧ findTlb (rodOf (s (.wsSwIn 1 2) 0) (rodOfCore 0)).tlb 0 = none := by decide

set_option maxRecDepth 50000 in
theorem test_witness_save_engine_ends :
    let y : Acc := { kind := .uread, stage := .back, got := 0x20000000000000000000000000000000000000000000000000000000000000000000000000000000000000000000000000000000000000000000000000000000000000000000000000000000000000000 }
    let w : Acc := { kind := .uwrite, stage := .back }
    let f : Flight := { sector := 1, wait := [0] }
    let s := saving (.wsSwIn 1 2) 0 1 0 y
    let m := swImage { f with writes := f.writes ++ [(0, { addr := y.va - 0, data := toBytes 256 y.got })] }
    s.args.d ≠ 0 ∧ Table.find s.flights s.args.b = some f ∧ acc s (s.args.d - 1) y ∧ f.wait = [s.args.d - 1] ∧ f.jobId ≠ f.sector ∧ y.op ≠ 3 ∧
    slotBase (coreOf s 0) f.sector ≠ handlerBase (coreOf s 0) ∧ Memory.read m 0x50 4 % 2 ^ 3 = stPaused ∧
    acc (saving (.wsSwOut 1 2) 0 1 1 w) 0 w ∧ (saving (.wsSwOut 1 2) 0 1 1 w).args.c = 1 ∧ acc (saving .idle 0 1 0 { w with stage := .fault }) 0 { w with stage := .fault } ∧
    (coreOf s 0).serving = none ∧ (slotAt (coreOf (on { slots := [{ blockedIn := some (.tlbInv 2 0 1), opA := 1 }] }) 0) 0).blockedIn = some (.tlbInv 2 0 1) := by
  decide

/-- Entry 5 of the queue of die 0 is pending with sequence number 9, entry 6 taken; access 0 has faulted; core 0 is privileged. -/
def faulting : State := { system with
  accs := [(0, { stage := .fault, va := 0x12345 })], args := { d := 1 }
  dies := [(0, { pool := Memory.write (Memory.write (Memory.write [] (0x300000 + 64 * 5) 16 (0x10000 + 2 ^ 64 + 2 ^ 72)) (0x300000 + 64 * 5 + 0x3C) 4 9) (0x300000 + 64 * 6 + 9) 1 2, fqOf := [(5, []), (6, [])] })] }

set_option maxRecDepth 50000 in
theorem test_witness_fault_queue :
    fqOldest faulting 0 = some 5 ∧ fqOldest system 0 = none ∧ isPriv (self faulting) = true ∧ Storable (self faulting) (rdW (self faulting) 12) 32 ∧
    Storable (self faulting) (rdW (self faulting) 12 + 32) 32 ∧ RecordsBelow faulting ∧ 6 ∈ fqLive faulting 0 ∧ entryBytes faulting 0 6 9 1 = 2 ∧
    7 ∉ fqLive faulting 0 ∧ 1 ≤ 1 := by decide

set_option maxRecDepth 50000 in
theorem test_witness_fault_posts :
    let same (i : Nat) : Bool := entryBytes faulting 0 i 0 8 == 0x12345 / 2 ^ 16 * 2 ^ 16 && entryBytes faulting 0 i 8 1 == 1
    faulting.args.b = 0 ∧ acc faulting 0 { stage := .fault, va := 0x12345 } ∧ (fqLive faulting 0).find? same = some 5 ∧ (fqLive system 0).find? same = none ∧
    (fqLive system 0).length < 1024 ∧ 0x12345 < 2 ^ 57 ∧ 0 < Config.cores ∧ (dieAt faulting 0).fqWait = [] := by decide

/-- Every entry of the queue of die 0 is taken. -/
def fullQueue : State := { system with dies := [(0, { fqOf := (List.range 1024).map fun i => (i, []) })] }

set_option maxRecDepth 100000 in
theorem test_witness_full_queue : fqLive fullQueue 0 = List.range 1024 := by decide

set_option maxRecDepth 100000 in
theorem test_witness_no_entry : (fqLive fullQueue 0).find? (fun i => entryBytes fullQueue 0 i 0 8 == 0x10000 && entryBytes fullQueue 0 i 8 1 == 1) = none := by
  rw [test_witness_full_queue]; decide

theorem test_witness_queue_nodup : (fqLive fullQueue 0).Nodup ∧ 1024 ≤ (fqLive fullQueue 0).length := by
  rw [test_witness_full_queue]; exact ⟨List.nodup_range, Nat.le_of_eq List.length_range.symm⟩

theorem test_witness_copy_fault_posts :
    let f : Job := { fault := some (0, 2 ^ 57 - 1) }
    let s : State := { working f with args := { b := 1, d := 2 } }
    s.args.b = 1 ∧ headJob s s.args.c 0 = some f ∧ f.fault = some (0, 2 ^ 57 - 1) ∧ s.args.d < 2 ^ 8 ∧ RecordsBelow s ∧ (dieAt s 0).fqWait = [] ∧
    (fqLive s 0).length < 1024 ∧ fqLive s 0 = [] := by decide

theorem test_witness_no_taker : NoTaker faulting := by
  intro q h i
  have h : q ∈ [(0, self system)] := h
  rw [List.mem_singleton] at h
  subst h
  match i with
  | 0 => rfl
  | 1 => rfl
  | _ + 2 => rfl

theorem test_witness_requesters :
    let w : Want := {}
    let j : Want := { kind := 1, va := 0x10000 }
    let s (w : Want) : State := { flying { stage := .fault } with dies := [(0, { fqOf := [(0, [w])], fqWait := [w] })] }
    (dieAt (s w) 0).fqWait = [w] ∧ (fqLive (s w) 0).length < 1024 ∧ w.kind ≠ 2 ∧ Table.get [] (dieAt (s w) 0).fqOf 0 = [w] ∧
    acc (s w) w.id { stage := .fault } ∧ w.id < { s w with nextId := 1 }.nextId ∧ waitsFor (s w) { stage := .fault } = true ∧ (coreOf (s w) 0).serving = none ∧ j.kind = 1 ∧
    headJob (working { pages := [1] }) j.id 0 = some { pages := [1] } ∧ j.va / 2 ^ 16 ∈ [1] := by decide

theorem test_witness_poison : domOf system 0 = some 0 ∧ (domAt system 0).ended = false ∧ system.args.c = 0 := by decide

theorem test_witness_copy_no_taker : NoTaker (working { fault := some (0, 2 ^ 57 - 1) }) := by
  intro q h i
  rw [List.mem_singleton.1 (show q ∈ [(0, { jobs := [[{ fault := some (0, 2 ^ 57 - 1) }], [{ fault := some (0, 2 ^ 57 - 1) }], [{ fault := some (0, 2 ^ 57 - 1) }]] })] from h)]
  cases i <;> rfl

set_option maxRecDepth 100000 in
/-- A copy job's fault finds every entry taken, none of its page and class among them. -/
theorem test_witness_copy_fault_waits :
    let f : Job := { fault := some (0, 0x10000) }
    let s : State := { fullQueue with cores := (working f).cores, args := { b := 1, d := 2 } }
    (s.args.b = 1 ∧ headJob s s.args.c 0 = some f ∧ f.fault = some (0, 0x10000) ∧ s.args.d < 2 ^ 8 ∧ RecordsBelow s ∧ (dieAt s 0).fqWait = []) ∧
    ((fqLive s 0).find? fun i => entryBytes s 0 i 0 8 == 0x10000 && entryBytes s 0 i 8 1 == 2) = none ∧ (fqLive s 0).Nodup ∧ 1024 ≤ (fqLive s 0).length := by
  have e : fqLive { fullQueue with cores := (working { fault := some (0, 0x10000) }).cores, args := { b := 1, d := 2 } } 0 = List.range 1024 :=
    test_witness_full_queue
  refine ⟨by decide, ?_⟩
  dsimp only
  rw [e]
  exact ⟨by decide, List.nodup_range, by decide⟩

theorem test_witness_copy_fault_no_taker : NoTaker { fullQueue with cores := (working { fault := some (0, 0x10000) }).cores } := by
  intro q h i
  rw [List.mem_singleton.1 (show q ∈ [(0, { jobs := [[{ fault := some (0, 0x10000) }], [{ fault := some (0, 0x10000) }], [{ fault := some (0, 0x10000) }]] })] from h)]
  cases i <;> rfl

/-- An open instant of domain 0, with a task of core 0 that waits in test of signal 2. -/
def waiting (r : Round) : State := { inDom { isOpen := true, sampled := [(0, r)] } { withWords [(0x450, 1)] with
  slots := [{ live := true, blockedIn := some (.test 2 15) }], tvec := 0x00048C00 } with args := {} }

/-- The round that resolves signal 2 as present, and one in which its only waiter is its only emitter. -/
def present : Round := { pres := 4, allp := false, run := true }
def stuck : Round := { maye := 4, tst := 4, allp := false }

theorem test_witness_rounds :
    (domAt (waiting {}) 0).isOpen = true ∧ (roundOf (inDom {} {}) 0).allp = true ∧ (domAt (waiting {}) 0).sampled = [(0, {})] ∧ ({} : Round).allp = true ∧
    ({} : Round).outs = false ∧ 0 ∈ coresOfDom (waiting present) 0 ∧ Fits (coreOf (waiting present) 0) 0 ∧
    (slotAt (coreOf (waiting present) 0) 0).blockedIn = some (.test 2 15) ∧ sigStatus { domAt (waiting present) 0 with result := some present } 2 = some true ∧
    sigValue { domAt (waiting {}) 0 with result := some {} } 2 = some 0 := by decide

set_option maxRecDepth 50000 in
theorem test_witness_causality : let c := coreOf (waiting stuck) 0
    stuck.run = false ∧ stuck.outs = false ∧ coresOfDom (waiting stuck) 0 = [0] ∧ domOf (waiting stuck) 0 = some 0 ∧ stState c 0 = stBlocked ∧
    sigStatus { domAt (waiting stuck) 0 with result := some stuck } 2 = none ∧ c.gangSize = 0 ∧ c.serving = none ∧ tvecEn c = true ∧
    slotBase c (slotOf c (tvecBase c)) = tvecBase c ∧ slotBase c 0 + 0x400 ≤ tvecBase c := by decide

theorem test_witness_unresolved (v : Nat) (h : sigIn stuck.tst v = true) :
    sigIn stuck.maye v = true ∧ (sigIn stuck.pres v = true → ∃ b, (domAt (waiting stuck) 0).result = some b ∧ sigIn b.pres v = true) :=
  ⟨h, fun g => absurd g (by simp [sigIn, stuck, bit])⟩

/-- A handler in slot 2 that tests signal 2, or reads its value, in a round that leaves the instant open; no other slot has a task but the one it
serves. -/
def handlerWaits (i : Instr) : State := inDom { isOpen := true, sampled := [(0, present)] } { withWords [] with
  tvec := 0x00048C00, wsp := 0xC00, serving := some 0, slots := [{ live := true }, {}, { blockedIn := some i }] }

theorem test_witness_handler_rounds :
    let s := handlerWaits (.test 2 15)
    let u := handlerWaits (.tval 2 15)
    let c := coreOf s 0
    (domAt s s.args.a).sampled = [(0, present)] ∧ present.allp = false ∧ present.run = true ∧ 0 ∈ coresOfDom s 0 ∧ c.serving.isSome = true ∧ curSlot c < 8 ∧
    (∀ j, j < 8 → j ≠ curSlot c → (slotAt c j).live = true → c.serving = some j ∧ (slotAt c j).blockedIn = none) ∧ Fits c (curSlot c) ∧
    (slotAt c (curSlot c)).blockedIn = some (.test 2 15) ∧ sigStatus { domAt s 0 with result := some present } 2 = some true ∧
    (slotAt (coreOf u 0) (curSlot (coreOf u 0))).blockedIn = some (.tval 2 15) ∧ sigValue { domAt u 0 with result := some present } 2 = some 0 := by decide

theorem test_witness_handler_tests : HandlerTests (coreOf (handlerWaits (.test 2 15)) 0) 2 ∧ (∀ h, ¬ HandlerTests (coreOf (waiting present) 0) h) ∧
    RunsInSample (coreOf (handlerWaits (.test 2 15)) 0) 0 ∧ ∀ k ∈ coresOfDom (waiting present) 0, ((coreOf (waiting present) k).val.map Prod.fst).Nodup := by
  refine ⟨⟨by decide, 15, by decide⟩, fun h g => absurd g.1 (by decide), by decide, by decide⟩

/-- A task in the check stage of one region, suspended by signal 2 or aborted by it. -/
def checking (kind : Nat) (r : Round) : State := { waiting r with
  cores := [(0, { withWords [(0x450, 1 + 2 ^ 3 + 2 ^ 10), (0x4C0, kind * 2 ^ 12 + 2), (0x4C4, 0x10)] with slots := [{ live := true }] })] }

theorem test_witness_check_stage : ∀ k, k < 3 → let s := checking k present
    let w := Memory.read (coreOf s 0).lm (entryAt (coreOf s 0) 0 (slotAt (coreOf s 0) 0).check) 8
    (slotAt (coreOf s 0) 0).blockedIn = none ∧ (slotAt (coreOf s 0) 0).trap = none ∧ stState (coreOf s 0) 0 = stBlocked ∧ stWait (coreOf s 0) 0 = 1 ∧
    (slotAt (coreOf s 0) 0).check < stDepth (coreOf s 0) 0 ∧ stDepth (coreOf s 0) 0 ≤ 8 ∧ regionKind w = k ∧ s.dies = [] ∧
    sigStatus { domAt s 0 with result := some present } (regionSig w) = some true ∧
    sigStatus { domAt s 0 with result := some { present with pres := 0 } } (regionSig w) = some false ∧ (slotAt (coreOf s 0) 0).pauseW = false := by decide

theorem test_witness_only_slot : OnlySlot (waiting {}) 0 0 := by
  refine ⟨by decide, by decide, fun j h => ?_⟩
  match j with
  | 0 => exact absurd rfl h
  | _ + 1 => rfl

/-- A paused task in an armed abort region of signal 120, which the instant that closed had. -/
def paused : State := inDom { last := BitVec.ofNat 128 (2 ^ 120), limit := 1, instant := 7 } { withWords [(0x450, 2 + 2 ^ 10), (0x4C0, 2 ^ 15 + 120), (0x4C4, 0x10)] with
  slots := [{ live := true }] }

set_option maxRecDepth 50000 in
theorem test_witness_instants :
    let w := Memory.read (coreOf paused 0).lm (entryAt (coreOf paused 0) 0 0) 8
    paused.args.b = 0 ∧ 0 ∈ coresOfDom paused 0 ∧ (slotAt (coreOf paused 0) 0).live = true ∧ sigIn (domAt paused 0).last 127 = false ∧
    stState (coreOf paused 0) 0 = stPaused ∧ stDepth (coreOf paused 0) 0 = 1 ∧ stFrz (coreOf paused 0) 0 = false ∧ regionKind w = 0 ∧ regionArmed w = true ∧
    sigIn (domAt paused 0).last (regionSig w) = true ∧ (domAt paused 0).limit ≠ 0 ∧ sigIn (BitVec.ofNat 128 (2 ^ 127)) 127 = true ∧
    stState (coreOf (waiting {}) 1) 0 = stRunnable ∧ stDepth (withWords [(0x450, 2)]) 0 = 0 ∧ (slotAt (coreOf paused 0) 0).pauseW = false ∧
    (domAt (waiting {}) 0).instant = (waiting {}).args.b ∧ (domAt (waiting {}) 0).ended = false ∧ (domAt paused 0).isOpen = false ∧
    (domAt { paused with args := { b := 1 } } 0).number < 2 ^ 32 := by decide

/-- Launch queue 0 holds a packet that launches domain 5 on all 16,384 cores of die 0, with further words, and one that is refused. -/
def launching (more : List (Nat × Nat)) : State :=
  let p := [(0, 1), (4, 5), (8, 1), (0x20, 4), (0x3C, 0x10 + 0x10 * 2 ^ 5), (0x40, 16384 * 2 ^ 14), (0x80, 1)] ++ more
  { State.reset with
    wiping := false, launch := [(0, { priv := true, en := true, prio := 7, tail := 2, slots := p.foldl (fun m q => Memory.write m q.1 4 q.2) [] })] }

set_option maxRecDepth 50000 in
theorem test_witness_launch_queues : let s := launching []
    chooseQueue s = some 0 ∧ s.wiping = false ∧ s.booted = true ∧ s.args.b % 64 = (launchQ s 0).head ∧
    3 % 64 ≠ (launchQ s 0).head ∧ Memory.read (packetAt s 0 0) 0 1 = 1 ∧ State.reset.wiping = true := by decide

set_option maxRecDepth 50000 in
theorem test_witness_launch_packet : LaunchValid (launching []) 0 (packet (launching [])) :=
  ⟨by decide, by decide, by decide, by decide, by decide, by decide, by decide, fun h => absurd h (by decide), by decide, by decide, by decide⟩

set_option maxRecDepth 50000 in
/-- A launch that installs a handler in slot 1. -/
theorem test_witness_launch_handler : LaunchValid (launching [(0x48, 0x8800)]) 0 (packet (launching [(0x48, 0x8800)])) :=
  ⟨by decide, by decide, by decide, by decide, by decide, by decide, by decide, fun _ => ⟨1, by decide⟩, by decide, by decide, by decide⟩

set_option maxRecDepth 50000 in
/-- A restore from the start of DRAM. -/
theorem test_witness_restore_packet : LaunchValid (launching [(0, 4)]) 0 (packet (launching [(0, 4)])) :=
  ⟨by decide, by decide, by decide, by decide, by decide, by decide, by decide, fun h => absurd h (by decide), by decide, by decide, by decide⟩

set_option maxRecDepth 50000 in
theorem test_witness_launch_refused : let s := { launching [] with args := { b := 1 } }
    ¬ LaunchValid s 0 (packet s) ∧ Nat.land (pkt (packet s) 8 8) s.dieBusy = 0 :=
  ⟨fun h => absurd h.1.2.2.2.1 (by decide), by decide⟩

set_option maxRecDepth 50000 in
theorem test_witness_launch_waits :
    Nat.land (pkt (packet (launching [])) 8 8) { launching [] with dieBusy := 1 }.dieBusy ≠ 0 ∧ Nat.land (pkt (packet (launching [])) 8 8) (launching []).dieBusy = 0 ∧
    (pkt (packet (launching [])) 8 8).testBit 0 = true ∧ 0 < pkt (packet (launching [])) 0x40 4 / 2 ^ 14 % 2 ^ 15 := by decide

/-- A launch at the head of queue 0 waits for a write of the host that was in progress when its TAIL was written; a read of a sector. -/
theorem test_witness_launch_behind :
    let x : Acc := { kind := .uwrite, phys := true, next := some (.hostDramWrite, {}) }
    let s : State := { launching [] with accs := [(0, x)], launch := (launching []).launch.map fun q => (q.1, { q.2 with behind := [(q.2.head, 0)] }) }
    0 ∈ hostWrites s ∧ ((launchQ s 0).head, 0) ∈ (launchQ s 0).behind ∧ chooseQueue s = none ∧ chooseQueue (launching []) = some 0 := by decide

/-- Domain 5 is held at a boundary; a control packet names it. -/
def controlled (words : List (Nat × Nat)) : State := { inDom { number := 5, held := true } {} with
  launch := [(0, { slots := ((4, 5) :: words).foldl (fun m q => Memory.write m q.1 4 q.2) [] })] }

set_option maxRecDepth 50000 in
theorem test_witness_control_packets :
    let s := controlled []
    liveNumber s (pkt (packet s) 4 4) = some 0 ∧ Control (packet s) 8 ∧ Control (packet s) 9 ∧ Control (packet s) 16 ∧
    (domAt s 0).held = true ∧ (domAt s 0).isOpen = false ∧ (domAt s 0).evicting = none ∧
    (s.agenda.any fun e => e.item == .ev .instantOpen { a := 0, b := 1 }) = false ∧
    pkt (packet s) 8 8 + (0x6000 * 16384 + 0x4000000) * (diesOf (domAt s 0).mask).length ≤ 3 * 2 ^ 40 ∧ jobsDone s 0 = true := by
  unfold Control; decide

set_option maxRecDepth 50000 in
theorem test_witness_control_refused : let s := controlled [(0, 2), (8, 1)]
    liveNumber s (pkt (packet s) 4 4) = some 0 ∧ ¬ Control (packet s) 8 ∧ pkt (packet s) 0 1 = 2 ∧
    (∀ q ∈ { s with domains := [] }.domains, q.2.number = pkt (packet s) 4 4 → q.2.ended = true) := by
  unfold Control; decide

/-- Domain 5 is being evicted; core 0 has words of a task in q0 and a task in slot 0. -/
def leaving : State := inDom { number := 5, held := true, evicting := some (0x10000, 0x100) } { queues := [{ words := [3, 4], owner := some 0 }], slots := [{ live := true }] }

set_option maxRecDepth 50000 in
theorem test_witness_eviction : let s := leaving
    s.args.d = 0 ∧ (domAt s 0).evicting = some (0x10000, 0x100) ∧ (domAt s 0).held = true ∧ (domAt s 0).ended = false ∧ jobsDone s 0 = true ∧ s.accs = [] ∧
    (domAt s 0).number < 2 ^ 32 ∧ s.dies = [] ∧ s.homes = [] ∧ Memory.wf (coreOf s 0).lm = true ∧ (coreOf s 0).lmscr.toNat ≤ 0x6000 ∧
    0x5FFF < (coreOf s 0).lmscr.toNat ∧ (nth {} (coreOf s 0).queues 0).words.length ≤ 8 ∧ Memory.wf (dieAt s 0).pool = true ∧ 0 ∈ coresOfDom s 0 ∧
    slotBase (coreOf s 0) 0 + 0x58 ≤ (coreOf s 0).lmscr.toNat ∧ (diesOf (domAt s 0).mask)[0]? = some 0 ∧ 39 < 40 := by decide

theorem test_witness_rank : (coresOfMask 1)[0]? = some 0 := by
  have h : diesOf 1 = [0] := by decide
  rw [coresOfMask, h]
  simp only [List.flatMap_cons, List.flatMap_nil, List.append_nil, upTo, List.getElem?_map]
  rw [List.getElem?_range (by decide)]; rfl

/-- A saved pool with eight levels that hold no ready record. -/
def savedPool : State := { launching [(0, 4)] with dram := Memory.write [] (0x18000000 + 0x320000) 16 (2 ^ 128 - 1) }

theorem saved_range : dramRange savedPool 0x18000000 0x4000000 = (List.range 16).map fun i => (0x320000 + i, 0xFF) := by decide

theorem test_witness_saved_levels :
    let lists : List (List Nat) := List.replicate 8 []
    let all := lists.flatMap fun l => l ++ [0xFFFF]
    lists.length = 8 ∧ (∀ l ∈ lists, ∀ w ∈ l, w < 0xFFFF) ∧ all.length ≤ 0x8000 ∧
    ∀ j, j < 8 → all[j]? = some 0xFFFF ∧ Memory.read (dramRange savedPool (0 + 0x6000 * 16384 * 1 + 0x4000000 * 0) 0x4000000) (0x320000 + 2 * j) 2 = 0xFFFF := by
  rw [show 0 + 0x6000 * 16384 * 1 + 0x4000000 * 0 = 0x18000000 from rfl, saved_range]; decide

set_option maxRecDepth 50000 in
theorem test_witness_whole_lines : ∀ l, WholeLine (inDom { number := 5, held := true, evicting := some (0x10000, 0x100) } {}) l := lines_whole _ rfl rfl

theorem test_witness_host_memory :
    let at_ (a b : Nat) : State := { State.reset with wiping := false, args := { a := a, b := b }, tlbDies := 1 }
    let some_ : State := { at_ (1024 + 1016) 8 with homes := [(1, { tokens := 63 })] }
    (at_ (3 * 2 ^ 40 - 8) 8).args.a + 8 ≤ 3 * 2 ^ 40 ∧ 3 * 2 ^ 40 < (at_ (3 * 2 ^ 40 - 7) 8).args.a + 8 ∧ (at_ 0 8).args.c = 0 ∧ (at_ 0 8).accs = [] ∧
    (homeOf some_ (some_.args.a / 1024)).tokens ≠ 64 ∧ (homeOf some_ (some_.args.a / 1024)).moved = false ∧
    (some_.args.a + some_.args.b - 1) / 1024 = some_.args.a / 1024 ∧ 40 * 2 ^ 26 - 8 < 40 * 2 ^ 26 ∧ 0x400000 ≤ (40 * 2 ^ 26 - 8) % 2 ^ 26 ∧
    0x3FFFFF % 2 ^ 26 < 0x400000 ∧ 511 < 512 ∧ 0xFFF8 + 8 ≤ 0x10000 ∧ Memory.read (coreOf State.reset 655360).lm 0x40 4 = 0 ∧
    Memory.read (Memory.write [] 0x40 4 1) 0x40 4 ≠ 0 ∧ (coreOf State.reset 655360).running = false := by decide

theorem test_witness_home_lines : let s : State := { State.reset with args := { a := 1016, b := 16 } }
    ∀ l, s.args.a / 1024 ≤ l → l * 1024 < s.args.a + s.args.b → (homeOf s l).tokens = 64 ∧ (homeOf s l).moved = false := fun _ _ _ => ⟨rfl, rfl⟩

theorem test_witness_host_tlb :
    let at_ (b : Nat) : State := { State.reset with wiping := false, args := { b := b }, tlbDies := 1 }
    (at_ 2).wiping = false ∧ (at_ 2).tlbBusy = none ∧ (at_ 2).args.b % 4 ≠ 3 ∧ (at_ 2).tlbDies ≠ 0 ∧ (at_ 3).args.b % 4 = 3 := by decide

theorem test_witness_host_sector_read : let s : State := { State.reset with args := { a := 0x1FFC, b := 4 } }
    s.args.c = 0 ∧ s.args.a + s.args.b ≤ 3 * 2 ^ 40 ∧ 0 < s.args.b ∧ s.args.a / 256 = (s.args.a + s.args.b - 1) / 256 := by decide

/-- Registers as a host writes them; port 0 has two queue pairs; module 63 may write launch queue 15 and the memory of domain 5. -/
def hosted (a b c : Nat) : State := { controlled [] with
  wiping := false, args := { a := a, b := b, c := c, d := 8 }, ports := [(0, { qpCount := 2, cqCount := 2 })], acl := [(63, 1 + 2 ^ 19 + 2 ^ 23 + 5 * 2 ^ 24)] }

theorem test_witness_host_registers :
    (hosted 1 (0x100000 + 0x4000 * 15 + 0x2000) 4).args.b = 0x100000 + 0x4000 * 15 + 0x2000 ∧ 15 < 16 ∧ (hosted 1 0 4).args.a < 2 ∧
    (hosted 1 0 4).args.d % 64 ≠ (launchQ (hosted 1 0 4) 31).head ∧ 0x1FFC + (hosted 1 0 4).args.c ≤ 0x2000 ∧ 0x1FC + (hosted 1 0 4).args.c ≤ 0x200 ∧ 7 < 8 ∧
    (hosted 1 0 4).wiping = false ∧ (hosted 0 1 0).args.b < (portAt (hosted 0 1 0) 0).qpCount ∧ (hosted 0 1 0).args.b < (portAt (hosted 0 1 0) 0).cqCount ∧
    0x01C + (hosted 1 0x01C 4).args.c ≤ 0x020 := by decide

theorem test_witness_doorbells_beyond : (hosted 0 2 0).wiping = false ∧ (portAt (hosted 0 2 0) 0).qpCount ≤ (hosted 0 2 0).args.b ∧
    (portAt (hosted 0 2 0) 0).cqCount ≤ (hosted 0 2 0).args.b ∧ 8 ≤ (hosted 8 0 0).args.a := by decide

theorem test_witness_host_reads : ∀ c, c < 5 → (hosted 0x1000 4 c).args.c = c ∧ (hosted 0x1000 4 c).args.a = 0x1000 + 0 ∧ (hosted 0x1000 4 c).args.b = 4 := by decide

theorem test_witness_peers :
    let s := hosted 63 (15 * 0x4000) 4
    let u := hosted 63 (15 * 0x4000 + 0x2004) 4
    peerMay s 63 (s.args.b / 0x4000) = true ∧ s.args.b % 0x4000 + s.args.c ≤ 0x2000 ∧ s.accs = [] ∧ u.args.b % 0x4000 = 0x2004 ∧
    u.args.d % 64 ≠ (launchQ u 15).head ∧ peerMay (hosted 63 0 4) 63 14 = false ∧ peerMay State.reset 64 0 = false ∧
    0x2000 < (hosted 63 (15 * 0x4000 + 0x2000) 4).args.b % 0x4000 + 4 ∧ 0x2000 ≠ 0x2004 ∧ State.reset.wiping = true := by decide

/-- A write of module 63 is in progress. -/
def peerWrites : State := let x : Acc := { kind := .uwrite, slot := 63, next := some (.haloWrite, {}) }
  { hosted 63 0 0 with accs := [(0, x)], nextId := 1, args := { a := 63, d := 1 } }

theorem test_witness_peer_waits : let s := peerWrites
    (∀ a ∈ s.accs, a.1 < s.nextId ∧ (isPeer a.2 = true → a.2.slot = s.args.a → a.2.stage ≠ .order)) ∧ (∃ a ∈ s.accs, isPeer a.2 = true ∧ a.2.slot = s.args.a) ∧
    s.args.c = 0 ∧ s.args.d = 0 + 1 ∧ acc s 0 { kind := .uwrite, slot := 63, next := some (.haloWrite, {}) } ∧
    (∀ a ∈ Table.erase s.accs 0, isPeer a.2 = false ∨ a.2.slot ≠ s.args.a) := by decide

theorem test_witness_halo_write :
    let s : State := hosted 63 0 4
    let e := aclAt s s.args.a
    0 < s.args.c ∧ s.args.a < 64 ∧ e % 2 = 1 ∧ e / 2 ^ 23 % 2 = 1 ∧ s.args.b < 2 ^ 57 ∧ liveNumber s (e / 2 ^ 24 % 2 ^ 32) = some 0 ∧
    (diesOf (domAt s 0).mask).head? = some 0 ∧ (rodOf s (rodOfCore (haloUnit 0))).tlb = [] ∧ s.accs = [] ∧ aclAt State.reset 0 % 2 = 0 ∧
    (∀ q ∈ State.reset.domains, q.2.number = e / 2 ^ 24 % 2 ^ 32 → q.2.ended = true) := by decide

theorem test_witness_management :
    63 < 64 ∧ 6000 ≤ 18000 ∧ lcsNextOk 1 2 = true ∧ lcsNextOk 1 0 = false ∧ clockOk 525 = true ∧ clockOk 1050 = true ∧ clockOk 530 = false ∧
    State.reset.clockNext = none ∧ { State.reset with clockNext := some 525 }.clockNext.isSome = true ∧ { State.reset with clockWait := some 1050 }.clockWait = some 1050 ∧
    (State.reset.lcs, 2) ∈ [(0, 1), (1, 2), (1, 3), (2, 1), (2, 3)] ∧ (State.reset.lcs, 0) ∉ [(0, 1), (1, 2), (1, 3), (2, 1), (2, 3)] := by decide

/-- A requested transition is of the table, and there is a step. -/
theorem test_witness_life_cycle : let s : State := { issuingAt 0x00062183 with lcsNext := some 2 }
    (∀ n, s.lcsNext = some n → (s.lcs, n) ∈ [(0, 1), (1, 2), (1, 3), (2, 1), (2, 3)]) ∧ (match step s with | .next _ => true | _ => false) = true :=
  ⟨fun n h => by cases h; decide, by decide⟩

/-- What management keeps legal holds at reset. -/
theorem test_witness_managed : Managed State.reset := by
  refine ⟨by decide, fun n h => ?_, by decide, by decide, by decide, fun n h => ?_, fun n h => ?_, by decide⟩ <;> cases h

theorem test_witness_round_trip : wellFormed (.add 1 7 6 5) = true ∧ encode (.add 1 7 6 5) = some (32, 0x0203B283) := by decide

/-- A step from a state that management keeps legal. -/
theorem test_witness_managed_step : Managed (issuingAt 0x00062183) ∧ (match step (issuingAt 0x00062183) with | .next _ => true | _ => false) = true := by
  refine ⟨⟨by decide, fun n h => ?_, by decide, by decide, by decide, fun n h => ?_, fun n h => ?_, by decide⟩, by decide⟩ <;> cases h

/-! Results: hand calculation from the manual's tables (Tables 4.1, 4.3), or its worked examples, as each comment says. -/

/-- Word n of the workspace after instruction i. -/
def after (i : Instr) (s : State) (n v : Nat) : Bool := match exec i s with | .next t => Memory.read (self t).lm (0x400 + 4 * n) 4 == v | _ => false

/-- Wraps, signs and corners of Table 4.1. -/
theorem test_arithmetic :
    let s := regs [(1, 0xFFFFFFFF), (2, 0x80000000), (3, 33)]
    after (.add 0 1 1 4) s 4 0xFFFFFFFE = true ∧ after (.sub 0 3 0 4) s 4 0xFFFFFFDF = true ∧ after (.mulh 0 1 2 4) s 4 0 = true ∧
    after (.mulhn 0 1 2 4) s 4 0x7FFFFFFF = true ∧ after (.div 0 1 2 4) s 4 0x80000000 = true ∧ after (.div 0 0 3 4) s 4 0xFFFFFFFF = true ∧
    after (.rem 0 1 2 4) s 4 0 = true ∧ after (.sra 0 3 2 4) s 4 0xC0000000 = true ∧ after (.rotl 0 3 2 4) s 4 1 = true ∧
    after (.slt 0 3 1 4) s 4 1 = true ∧ after (.sltn 0 3 1 4) s 4 0 = true ∧ after (.clz 0 3 4) s 4 26 = true ∧ after (.ctz 0 0 4) s 4 32 = true ∧
    after (.bswap 0 3 4) s 4 0x21000000 = true ∧ after (.add 0 1 1 0) s 0 0 = true ∧ after (.sel 0 0 1 3 4) s 4 0xFFFFFFFF = true := by decide

/-- Table 4.1 on pairs: a carry into the high word. -/
theorem test_pairs : after (.add 1 1 1 2) (regs [(2, 0x80000000)]) 5 1 = true ∧ after (.mulhn 1 1 1 2) (regs [(3, 2)]) 4 4 = true := by decide

theorem test_immediates :
    let s := regs [(2, 3), (8, 0x12345678), (10, 0xFFFFFFFF)]
    after (.addImmediate 0x1FFFB 2 7) s 7 0xFFFFFFFE = true ∧ after (.lih 8 12) s 12 0x40000 = true ∧ after (.bext 13 3 8 3) s 3 0xACF = true ∧
    after (.bins 14 16 8 10) s 10 0xD678FFFF = true := by decide

/-- Results of Table 6.5; the box has the corners (1, 2) and (2, 5). -/
theorem test_worked_keys :
    let s := regs [(2, 0x55555555), (3, 0x55555555), (4, 3), (6, 9), (8, 9), (10, 38), (12, 14), (14, 4)]
    after (.ckAdd 1 0 2 1 3) s 6 2 = true ∧ after (.ckAdd 1 0 2 1 3) s 1 1 = true ∧ after (.ckSub 1 0 7 3 1) s 2 0x5555555D = true ∧
    after (.ckSub 1 0 7 3 1) s 1 1 = true ∧ after (.ckNext 1 0 4 6 3) s 6 33 = true ∧ after (.ckNext 1 0 4 5 3) s 1 0 = true ∧
    after (.ckNext 1 0 4 5 3) s 6 38 = true := by decide

theorem test_worked_keys_order :
    let s := regs [(2, 14), (4, 33), (6, 12), (8, 9), (10, 38), (12, 13), (14, 7)]
    after (.ckCmp 0 2 1 1) s 1 0xFFFFFFFF = true ∧ after (.ckInbox 0 4 6 1) s 1 0 = true ∧ after (.ckPrev 1 0 4 2 3) s 6 14 = true ∧
    after (.ckClip 1 0 4 7 3) s 6 12 = true ∧ after (.ckClip 1 0 4 7 3) s 1 3 = true := by decide

set_option maxRecDepth 50000 in
/-- The first split of Table 6.6: four runs, the resume key 35, MORE with the count 4. -/
theorem test_worked_split :
    let s := on { withWords [(0x408, 9), (0x420, 9), (0x428, 38), (0x430, 0x42400)] with lmspill := 0x2400 }
    after (.ckSplit 12 0 4 1 6) s 6 0x80000004 = true ∧ after (.ckSplit 12 0 4 1 6) s 2 35 = true ∧ after (.ckSplit 12 0 4 1 6) s ((0x2438 - 0x400) / 4) 33 = true := by
  decide

/-- Transfers: call links, loop leaves at 1; and a local store that changes a register (R26). -/
theorem test_transfers_and_aliases :
    let s := regs [(1, 1), (2, 0x40C), (5, 0xFFFFFF80)]
    let pc (i : Instr) : Nat := match exec i s with | .next t => (slotAt (self t) 0).pc | _ => 1
    after (.call 0) s 15 4 = true ∧ pc (.loop 0x3FFF 1) = 4 ∧ pc (.bne 0x3FFA 5 4) = 0xFFFFFFF4 ∧ after (.st 0 0 2 2 5) s 3 0xFFFFFF80 = true ∧
    after (.ld 2 1 0 2 6) (regs [(2, 0x414), (5, 0x800000)]) 6 0xFFFFFF80 = true ∧ after (.push 0 5) (stack 0x808 0) ((0x700 - 0x400) / 4) 0x804 = true := by decide

end Sys2Proof.Tests
end

section
/-!
SUPPORT. Reset: what the units read as in the state after reset.
-/

namespace Sys2Proof.Machine

open Sys2Proof.Claims

/-- No core has been used and no launch has left an image: a core is as its kind is after a wipe. -/
theorem coreOf_reset (k : Nat) : coreOf State.reset k = if isBarista k then baristaReset else {} := rfl

theorem homeOf_reset (line : Nat) : homeOf State.reset line = { tokens := 64, owner := true } := rfl

/-- No die holds a token. -/
theorem tokensAt_reset {place : Nat} (line : Nat) (h : place < 40) : tokensAt State.reset place line = 0 := by
  have hne : place ≠ 40 := by omega
  unfold tokensAt
  rw [if_neg hne]
  rfl

/-- The registers that the manual gives a value, on a core and on a barista. -/
theorem coreOf_reset_values (k : Nat) :
    (∀ a, Memory.get (coreOf State.reset k).lm a = 0) ∧ (coreOf State.reset k).wseq = 0 ∧ (coreOf State.reset k).wack = 0 ∧
    (coreOf State.reset k).cfg0.toNat = 0x3F800000 ∧ (coreOf State.reset k).cfg1 = 0 ∧ ∀ i, (slotAt (coreOf State.reset k) i).live = false := by
  rw [coreOf_reset]
  split
  case isTrue => exact ⟨fun _ => rfl, rfl, rfl, rfl, rfl, fun _ => rfl⟩
  case isFalse => exact ⟨fun _ => rfl, rfl, rfl, rfl, rfl, fun _ => rfl⟩

/-- What management keeps legal holds at reset. -/
theorem managed_reset : Managed State.reset := by
  have none_requested (p : Nat → Prop) : ∀ n, (none : Option Nat) = some n → p n := fun _ h => nomatch h
  exact ⟨by decide, none_requested _, by decide, by decide, by decide, none_requested _, none_requested _, by decide⟩

/-- The wipe ends in a cycle between 1 and its bound (R402). -/
theorem due_wipeComplete_reset : ∃ n, 0 < n ∧ n ≤ 210000000 ∧ Due State.reset .wipeComplete {} n 0 := by
  refine ⟨Config.slack 0 % wipeBound + 1, by omega, ?_, _, .tail _ (.head _), rfl, rfl⟩
  have := Nat.mod_lt (Config.slack 0) (show 0 < wipeBound by decide)
  unfold wipeBound at *
  omega

theorem due_moduleRoundSample_reset : Due State.reset .moduleRoundSample {} 0 3 := ⟨_, .head _, rfl, rfl⟩

/-- Settles O56: each value is the default of its field, and the agenda after reset holds module round 0 and the end of the wipe. -/
theorem resetValues : Obligations.ResetValues := by
  unfold Obligations.ResetValues
  exact ⟨rfl, rfl, rfl, rfl, rfl, rfl, rfl, managed_reset, fun _ => rfl, homeOf_reset, fun _ line h => tokensAt_reset line h, coreOf_reset_values,
    fun _ => ⟨rfl, rfl⟩, due_moduleRoundSample_reset, due_wipeComplete_reset⟩

end Sys2Proof.Machine
end

section
/-!
SUPPORT. Tables and bits: a unit under a new highest number, and bits of a number.
-/

namespace Sys2Proof.Machine

/-! A number above all of a table. -/

/-- A unit under a number above all others is placed at the end. -/
theorem Table.set_above {α : Type} (t : Table α) (k : Nat) (v : α) (h : ∀ c ∈ t, c.1 < k) : Table.set t k v = t ++ [(k, v)] := by
  induction t with
  | nil => rfl
  | cons c t ih =>
    have hc := h c (.head _)
    have ht := ih fun x hx => h x (.tail _ hx)
    rw [Table.set, if_neg (by omega), if_neg (by omega), ht]
    rfl

theorem Table.erase_above {α : Type} (t : Table α) (k : Nat) (h : ∀ c ∈ t, c.1 < k) : Table.erase t k = t :=
  List.filter_eq_self.2 fun c hc => by simpa using Nat.ne_of_lt (h c hc)

/-- A unit that came under a number above all others is taken out again. -/
theorem Table.erase_set_above {α : Type} (t : Table α) (k : Nat) (v : α) (h : ∀ c ∈ t, c.1 < k) : Table.erase (Table.set t k v) k = t := by
  have hl : Table.erase (t ++ [(k, v)]) k = Table.erase t k ++ Table.erase [(k, v)] k := List.filter_append t [(k, v)]
  have hk : Table.erase [(k, v)] k = [] := by simp [Table.erase]
  rw [Table.set_above t k v h, hl, hk, List.append_nil, Table.erase_above t k h]

/-! Bits. -/

theorem bit_eq_testBit (v i : Nat) : bit v i = v.testBit i := by
  rw [Nat.testBit_eq_decide_div_mod_eq]; rfl

theorem bit_iff (v i : Nat) : bit v i = true ↔ v / 2 ^ i % 2 = 1 := by simp [bit]

/-- A bit below those that a truncation keeps. -/
theorem bit_mod (v n i : Nat) (h : i < n) : bit (v % 2 ^ n) i = v.testBit i := by
  rw [bit_eq_testBit, Nat.testBit_mod_two_pow, decide_eq_true h, Bool.true_and]

/-- A set bit is taken away. -/
theorem testBit_sub_two_pow {p v : Nat} (h : p.testBit v = true) (i : Nat) : (p - 2 ^ v).testBit i = (p.testBit i && decide (i ≠ v)) := by
  induction v generalizing p i with
  | zero =>
    have hp : p % 2 = 1 := by simpa using h
    cases i with
    | zero => simp; omega
    | succ i => simp [Nat.testBit_succ, show (p - 1) / 2 = p / 2 by omega]
  | succ v ih =>
    have hp : (p / 2).testBit v = true := by rwa [← Nat.testBit_succ]
    have hpow : 2 ^ (v + 1) = 2 * 2 ^ v := Nat.pow_succ'
    have hle : 2 ^ v ≤ p / 2 := Nat.ge_two_pow_of_testBit hp
    cases i with
    | zero => simp [hpow]; omega
    | succ i => rw [Nat.testBit_succ, Nat.testBit_succ, hpow, show (p - 2 * 2 ^ v) / 2 = p / 2 - 2 ^ v by omega, ih hp]; simp

/-- Distinct set bits are taken away. -/
theorem testBit_foldl_sub (l : List Nat) (p : Nat) (hd : l.Nodup) (hs : ∀ v ∈ l, p.testBit v = true) (i : Nat) :
    (l.foldl (fun p v => p - 2 ^ v) p).testBit i = (p.testBit i && decide (i ∉ l)) := by
  induction l generalizing p with
  | nil => simp
  | cons v l ih =>
    obtain ⟨hv, hd⟩ := List.nodup_cons.1 hd
    have hstep := testBit_sub_two_pow (hs v (.head _))
    have hs' : ∀ w ∈ l, (p - 2 ^ v).testBit w = true := by
      intro w hw
      have hne : w ≠ v := fun e => hv (e ▸ hw)
      rw [hstep, hs w (.tail _ hw), decide_eq_true hne, Bool.and_true]
    rw [List.foldl_cons, ih _ hd hs', hstep]
    by_cases hi : i = v <;> simp [hi]

end Sys2Proof.Machine
end

section
/-!
SUPPORT. Registers of the host: what a register, a queue, a port and a vector hold after a write, and what reads return.
-/

namespace Sys2Proof.Machine

/-! One register. -/

/-- A register that is written as a whole. -/
theorem merge_whole (old base n v : Nat) : merge old base n base n v = v % 256 ^ n := Memory.read_write _ _ _ _

/-- Registers at other bytes than those written are not touched. -/
theorem touchesReg_apart {base n off m : Nat} (h : off + m ≤ base ∨ base + n ≤ off) : touchesReg base n off m = false := by
  simp only [touchesReg, Bool.and_eq_false_iff, decide_eq_false_iff_not]
  omega

theorem touchesReg_whole (base n : Nat) (h : 0 < n) : touchesReg base n base n = true := by
  simp only [touchesReg, Bool.and_eq_true, decide_eq_true_eq]
  omega

/-- A bit and a field of a register of four bytes that is written as a whole. -/
theorem bit_merge_whole (old base v : Nat) {i : Nat} (h : i < 32) : bit (merge old base 4 base 4 v) i = v.testBit i := by
  rw [merge_whole]
  exact bit_mod v 32 i h

theorem fld_merge_whole (old base v : Nat) : fld (merge old base 4 base 4 v) 0 3 = v % 8 := by
  rw [merge_whole, fld]
  omega

/-! The space of BAR0 (Table 22.1): which region a write goes to. -/

theorem bar0Write_wiping (fn off n v : Nat) {s : State} (hw : s.wiping = true) : bar0Write fn off n v s = s := by
  rw [bar0Write, if_pos hw]

section
variable {fn n v : Nat} {s : State} (hw : s.wiping = false)
include hw

theorem bar0Write_module {off : Nat} (h : off < 0x1000) : bar0Write fn off n v s = moduleRegs fn off n v s := by
  simp only [bar0Write, hw, h, if_true, Bool.false_eq_true, if_false]

theorem bar0Write_msix {o : Nat} (h : o + n ≤ 0x200) : bar0Write fn (0x1000 + o) n v s = msixWrite fn o n v s := by
  have h1 : ¬ 0x1000 + o < 0x1000 := by omega
  have h2 : 0x1000 ≤ 0x1000 + o ∧ 0x1000 + o + n ≤ 0x1200 := by omega
  simp only [bar0Write, hw, h1, h2, Bool.false_eq_true, if_false, and_self, if_true, Nat.add_sub_cancel_left]

theorem bar0Write_queue {q o : Nat} (hq : q < 16) (ho : o < 0x4000) :
    bar0Write fn (0x100000 + 0x4000 * q + o) n v s = queueRegs (16 * fn + q) o n v s := by
  have h1 : ¬ 0x100000 + 0x4000 * q + o < 0x1000 := by omega
  have h2 : ¬ (0x1000 ≤ 0x100000 + 0x4000 * q + o ∧ 0x100000 + 0x4000 * q + o + n ≤ 0x1200) := by omega
  have h3 : 0x100000 ≤ 0x100000 + 0x4000 * q + o ∧ 0x100000 + 0x4000 * q + o < 0x140000 := by omega
  have hdiv : fn * 16 + (0x100000 + 0x4000 * q + o - 0x100000) / 0x4000 = 16 * fn + q := by omega
  have hmod : (0x100000 + 0x4000 * q + o - 0x100000) % 0x4000 = o := by omega
  rw [bar0Write, if_neg (by simp [hw]), if_neg h1, if_neg h2, if_pos h3, hdiv, hmod]

theorem bar0Write_port {p o : Nat} (hp : p < 8) (ho : o < 0x40000) :
    bar0Write fn (0x1000000 + 0x40000 * p + o) n v s = portRegs p o n v s := by
  have h1 : ¬ 0x1000000 + 0x40000 * p + o < 0x1000 := by omega
  have h2 : ¬ (0x1000 ≤ 0x1000000 + 0x40000 * p + o ∧ 0x1000000 + 0x40000 * p + o + n ≤ 0x1200) := by omega
  have h3 : ¬ (0x100000 ≤ 0x1000000 + 0x40000 * p + o ∧ 0x1000000 + 0x40000 * p + o < 0x140000) := by omega
  have h4 : 0x1000000 ≤ 0x1000000 + 0x40000 * p + o ∧ 0x1000000 + 0x40000 * p + o < 0x1200000 := by omega
  have hdiv : (0x1000000 + 0x40000 * p + o - 0x1000000) / 0x40000 = p := by omega
  have hmod : (0x1000000 + 0x40000 * p + o - 0x1000000) % 0x40000 = o := by omega
  rw [bar0Write, if_neg (by simp [hw]), if_neg h1, if_neg h2, if_neg h3, if_pos h4, hdiv, hmod]

end

/-! Module registers (Table 22.3). -/

/-- Below TLBINV_VA nothing is written by software. -/
theorem moduleRegs_readOnly (fn n v : Nat) {off : Nat} (s : State) (h : off + n ≤ 0x020) : moduleRegs fn off n v s = s := by
  have h1 : touchesReg 0x020 8 off n = false := touchesReg_apart (by omega)
  have h2 : touchesReg 0x028 8 off n = false := touchesReg_apart (by omega)
  have h3 : touchesReg 0x030 4 off n = false := touchesReg_apart (by omega)
  simp only [moduleRegs, h1, h2, h3, Bool.false_eq_true, if_false]

theorem moduleRegs_tlbVa (fn v : Nat) (s : State) : moduleRegs fn 0x020 8 v s = { s with tlbVa := v % 2 ^ 64 } := by
  have hm : merge s.tlbVa 0x020 8 0x020 8 v = v % 2 ^ 64 := merge_whole _ _ _ _
  have h1 : touchesReg 0x020 8 0x020 8 = true := touchesReg_whole _ _ (by omega)
  have h2 : touchesReg 0x028 8 0x020 8 = false := touchesReg_apart (by omega)
  have h3 : touchesReg 0x030 4 0x020 8 = false := touchesReg_apart (by omega)
  simp only [moduleRegs, h1, h2, h3, Bool.false_eq_true, if_false, if_true, hm]

theorem moduleRegs_tlbDies (fn v : Nat) (s : State) : moduleRegs fn 0x028 8 v s = { s with tlbDies := v % 2 ^ 40 } := by
  have h1 : touchesReg 0x020 8 0x028 8 = false := touchesReg_apart (by omega)
  have h2 : touchesReg 0x028 8 0x028 8 = true := touchesReg_whole _ _ (by omega)
  have h3 : touchesReg 0x030 4 0x028 8 = false := touchesReg_apart (by omega)
  have hm : merge s.tlbDies 0x028 8 0x028 8 v % 2 ^ Config.dies = v % 2 ^ 40 := by
    rw [merge_whole]
    exact Nat.mod_mod_of_dvd v ⟨2 ^ 24, by decide⟩
  simp only [moduleRegs, h1, h2, h3, Bool.false_eq_true, if_false, if_true, hm]

/-! Launch queues (Table 22.4). -/

theorem launchQ_updLaunchQ (s : State) (qi : Nat) (f : LaunchQueue → LaunchQueue) : launchQ (updLaunchQ s qi f) qi = f (launchQ s qi) := by
  simp only [launchQ, updLaunchQ, Table.get_set, if_true]

/-- That the device will look at its queues changes the agenda and the count of free values alone. -/
theorem takeSoon_eq (s : State) : takeSoon s = { s with agenda := (takeSoon s).agenda, free := (takeSoon s).free } := by
  unfold takeSoon; split <;> rfl

@[simp] theorem launchQ_takeSoon (s : State) (qi : Nat) : launchQ (takeSoon s) qi = launchQ s qi := by rw [takeSoon_eq]; rfl
@[simp] theorem takeSoon_accs (s : State) : (takeSoon s).accs = s.accs := by rw [takeSoon_eq]
@[simp] theorem updLaunchQ_accs (s : State) (qi : Nat) (f : LaunchQueue → LaunchQueue) : (updLaunchQ s qi f).accs = s.accs := rfl

@[simp] theorem tailWrite_accs (qi v : Nat) (s : State) : (tailWrite qi v s).accs = s.accs := by
  unfold tailWrite
  split
  · rfl
  · split
    · rfl
    · rw [takeSoon_accs, updLaunchQ_accs]

/-- A TAIL write of six bits. -/
theorem tailWrite_congr {v w : Nat} (qi : Nat) (s : State) (h : v % 64 = w % 64) : tailWrite qi v s = tailWrite qi w s := by
  simp only [tailWrite, h]

/-- A TAIL write that does not make the queue look empty takes effect (R387). -/
theorem tailTaken_tailWrite (qi v : Nat) {s : State} (hw : s.wiping = false) (hv : v % 64 ≠ (launchQ s qi).head) :
    TailTaken (launchQ s qi) (launchQ (tailWrite qi v s) qi) (hostWrites s) v := by
  simp only [tailWrite, hw, hv, Bool.false_eq_true, if_false, launchQ_takeSoon, launchQ_updLaunchQ]
  refine ⟨rfl, fun p => ?_⟩
  have hnew : p ∈ ((upTo ((v % 64 + 64 - (launchQ s qi).tail) % 64)).flatMap fun i => (hostWrites s).map fun id => (((launchQ s qi).tail + i) % 64, id)) ↔
      p.2 ∈ hostWrites s ∧ ∃ i, i < (v % 64 + 64 - (launchQ s qi).tail) % 64 ∧ p.1 = ((launchQ s qi).tail + i) % 64 := by
    obtain ⟨slot, id⟩ := p
    simp only [upTo, List.mem_flatMap, List.mem_range, List.mem_map, Prod.mk.injEq]
    constructor
    · rintro ⟨i, hi, _, hid, hs, rfl⟩; exact ⟨hid, i, hi, hs.symm⟩
    · rintro ⟨hid, i, hi, hs⟩; exact ⟨i, hi, id, hid, hs.symm, rfl⟩
  rw [List.mem_append, hnew]

/-- Slots are written as memory. -/
theorem queueRegs_slots (qi v : Nat) {o n : Nat} (s : State) (h : o + n ≤ 0x2000) :
    queueRegs qi o n v s = updLaunchQ s qi fun q => { q with slots := Memory.write q.slots o n v } := by
  rw [queueRegs, if_pos h]

theorem launchQ_queueRegs_slots (qi v : Nat) {o n : Nat} (s : State) (h : o + n ≤ 0x2000) :
    launchQ (queueRegs qi o n v s) qi = { launchQ s qi with slots := Memory.write (launchQ s qi).slots o n v } := by
  rw [queueRegs_slots _ _ _ h, launchQ_updLaunchQ]

section
variable (qi v : Nat) (s : State)

/-- CTL (Table 22.4). -/
theorem launchQ_queueRegs_ctl : launchQ (queueRegs qi 0x2000 4 v s) qi =
    { launchQ s qi with prio := v % 8, en := v.testBit 3, priv := v.testBit 4 } := by
  have h1 : touchesReg 0x2000 4 0x2000 4 = true := touchesReg_whole _ _ (by omega)
  have h2 : touchesReg 0x2004 4 0x2000 4 = false := touchesReg_apart (by omega)
  have h3 : touchesReg 0x200C 4 0x2000 4 = false := touchesReg_apart (by omega)
  simp only [queueRegs, h1, h2, h3, show ¬ 0x2000 + 4 ≤ 0x2000 by omega, Bool.false_eq_true, Bool.false_and, if_false, if_true,
    launchQ_takeSoon, launchQ_updLaunchQ, fld_merge_whole, bit_merge_whole _ _ v (show 3 < 32 by omega), bit_merge_whole _ _ v (show 4 < 32 by omega)]

/-- TAIL. -/
theorem queueRegs_tail : queueRegs qi 0x2004 4 v s = tailWrite qi v s := by
  have h1 : touchesReg 0x2000 4 0x2004 4 = false := touchesReg_apart (by omega)
  have h2 : touchesReg 0x2004 4 0x2004 4 = true := touchesReg_whole _ _ (by omega)
  have h3 : touchesReg 0x200C 4 0x2004 4 = false := touchesReg_apart (by omega)
  have hv : merge (launchQ s qi).tail 0x2004 4 0x2004 4 v % 64 % 64 = v % 64 := by rw [merge_whole]; omega
  simp only [queueRegs, h1, h2, h3, show ¬ 0x2004 + 4 ≤ 0x2000 by omega, Bool.false_eq_true, Bool.false_and, if_false, if_true,
    tailWrite_congr qi s hv]

/-- HEAD is read-only. -/
theorem queueRegs_head : queueRegs qi 0x2008 4 v s = s := by
  have h1 : touchesReg 0x2000 4 0x2008 4 = false := touchesReg_apart (by omega)
  have h2 : touchesReg 0x2004 4 0x2008 4 = false := touchesReg_apart (by omega)
  have h3 : touchesReg 0x200C 4 0x2008 4 = false := touchesReg_apart (by omega)
  simp only [queueRegs, h1, h2, h3, show ¬ 0x2008 + 4 ≤ 0x2000 by omega, Bool.false_eq_true, Bool.false_and, if_false]

/-- OVF is cleared by a 1. -/
theorem launchQ_queueRegs_ovf : launchQ (queueRegs qi 0x200C 4 v s) qi = { launchQ s qi with ovf := (launchQ s qi).ovf && !v.testBit 0 } := by
  have h1 : touchesReg 0x2000 4 0x200C 4 = false := touchesReg_apart (by omega)
  have h2 : touchesReg 0x2004 4 0x200C 4 = false := touchesReg_apart (by omega)
  have h3 : touchesReg 0x200C 4 0x200C 4 = true := touchesReg_whole _ _ (by omega)
  simp only [queueRegs, h1, h2, h3, show ¬ 0x200C + 4 ≤ 0x2000 by omega, Bool.false_eq_true, Bool.true_and, if_false,
    bit_merge_whole _ _ v (show 0 < 32 by omega)]
  cases h : v.testBit 0
  case false => simp
  case true => simp [launchQ_updLaunchQ]

end

/-! Ports (R397). -/

theorem portAt_updPort (s : State) (p : Nat) (f : Port → Port) : portAt (updPort s p f) p = f (portAt s p) := by
  simp only [portAt, updPort, Table.get_set, if_true]

/-- QPBASE: the low twelve bits are zero. -/
theorem portAt_portRegs_qpBase (p v : Nat) (s : State) :
    portAt (portRegs p 0x08 8 v s) p = { portAt s p with qpBase := v % 2 ^ 64 / 4096 * 4096 } := by
  have h1 : touchesReg 0x08 8 0x08 8 = true := touchesReg_whole _ _ (by omega)
  have h2 : touchesReg 0x10 8 0x08 8 = false := touchesReg_apart (by omega)
  have h3 : touchesReg 0x18 8 0x08 8 = false := touchesReg_apart (by omega)
  have h4 : touchesReg 0x20 8 0x08 8 = false := touchesReg_apart (by omega)
  have hm : merge (portAt s p).qpBase 0x08 8 0x08 8 v = v % 2 ^ 64 := merge_whole _ _ _ _
  have h5 : ¬ (0x10000 ≤ 0x08 ∧ 0x08 < 0x18000) := by omega
  have h6 : ¬ (0x18000 ≤ 0x08 ∧ 0x08 < 0x20000) := by omega
  simp only [portRegs, h1, h2, h3, h4, h5, h6, Bool.false_eq_true, if_false, if_true, portAt_updPort, hm]

/-! Vectors (R380). -/

/-- The vectors of a function that are pending and masked no more. -/
def unmaskedPending (f : Func) : List Nat := (upTo 32).filter fun v => bit f.pending v && !bit (Memory.read f.msix (16 * v + 12) 4) 0

theorem mem_unmaskedPending (f : Func) (v : Nat) :
    v ∈ unmaskedPending f ↔ v < 32 ∧ f.pending.testBit v = true ∧ Memory.read f.msix (16 * v + 12) 4 % 2 = 0 := by
  have hb : bit (Memory.read f.msix (16 * v + 12) 4) 0 = false ↔ Memory.read f.msix (16 * v + 12) 4 % 2 = 0 := by simp [bit]
  simp only [unmaskedPending, upTo, List.mem_filter, List.mem_range, Bool.and_eq_true, Bool.not_eq_true', bit_eq_testBit f.pending, hb]

/-- What a function holds once its unmasked vectors are sent. -/
theorem func_sendPending (fn : Nat) (s : State) : let f := Table.get {} s.funcs fn
    Table.get {} (sendPending fn s).funcs fn =
      { f with pending := (unmaskedPending f).foldl (fun p v => p - 2 ^ v) f.pending, raised := f.raised ++ unmaskedPending f } := by
  simp only [sendPending, Table.get_set, if_true]; rfl

/-- What a function holds once its table is written. -/
theorem func_msixWrite (fn off n v : Nat) (s : State) :
    let f : Func := Table.get {} s.funcs fn
    let f : Func := { f with msix := Memory.write f.msix off n v }
    Table.get {} (msixWrite fn off n v s).funcs fn =
      { f with pending := (unmaskedPending f).foldl (fun p v => p - 2 ^ v) f.pending, raised := f.raised ++ unmaskedPending f } := by
  simp only [msixWrite, func_sendPending, Table.get_set, if_true]

/-- Pending bits that stay are those of masked vectors. -/
theorem testBit_pending_left (f : Func) {v : Nat} (hv : v < 32) :
    ((unmaskedPending f).foldl (fun p v => p - 2 ^ v) f.pending).testBit v =
      (f.pending.testBit v && decide (Memory.read f.msix (16 * v + 12) 4 % 2 = 1)) := by
  have hd : (unmaskedPending f).Nodup := List.nodup_range.filter _
  have hset : ∀ w ∈ unmaskedPending f, f.pending.testBit w = true := fun w hw => ((mem_unmaskedPending f w).1 hw).2.1
  have hmem : v ∉ unmaskedPending f ↔ (f.pending.testBit v = true → Memory.read f.msix (16 * v + 12) 4 % 2 = 1) := by
    rw [mem_unmaskedPending]; simp only [hv, true_and, not_and, Nat.mod_two_ne_zero]
  rw [testBit_foldl_sub _ _ hd hset]
  cases hp : f.pending.testBit v
  case false => rfl
  case true => simp [hmem, hp]

end Sys2Proof.Machine
end

section
/-!
SUPPORT. Reads of registers by the host (R13, R14, R379, R380).
-/

namespace Sys2Proof.Machine

/-- A register and a read that share no byte. -/
abbrev RegApart (r : Nat × Nat × Nat) (off n : Nat) : Prop := off + n ≤ r.1 ∨ r.1 + r.2.1 ≤ off

/-- Registers at other bytes than those read do not count. -/
theorem read_foldl_apart (l : List (Nat × Nat × Nat)) (m : Mem) {off n : Nat} (h : ∀ r ∈ l, RegApart r off n) :
    Memory.read (l.foldl (fun m r => Memory.write m r.1 r.2.1 r.2.2) m) off n = Memory.read m off n := by
  induction l generalizing m with
  | nil => rfl
  | cons r l ih =>
    rw [List.foldl_cons, ih _ fun x hx => h x (.tail _ hx), Memory.read_write_out _ _ _ _ _ _ (h r (.head _))]

theorem regsRead_append_apart (l l' : List (Nat × Nat × Nat)) {off n : Nat} (h : ∀ r ∈ l', RegApart r off n) :
    regsRead (l ++ l') off n = regsRead l off n := by
  rw [regsRead, List.foldl_append, read_foldl_apart _ _ h]; rfl

/-- Where no two registers share a byte, each reads as its value. -/
theorem regsRead_mem {l : List (Nat × Nat × Nat)} (hl : l.Pairwise fun r x => RegApart x r.1 r.2.1) {r : Nat × Nat × Nat} (hr : r ∈ l) :
    regsRead l r.1 r.2.1 = r.2.2 % 256 ^ r.2.1 := by
  obtain ⟨before, after, rfl⟩ := List.append_of_mem hr
  have hafter : ∀ x ∈ after, RegApart x r.1 r.2.1 := (List.pairwise_cons.1 (List.pairwise_append.1 hl).2.1).1
  rw [regsRead, List.foldl_append, List.foldl_cons, read_foldl_apart _ _ hafter, Memory.read_write]

theorem regsRead_moduleImage {s : State} {r : Nat × Nat × Nat} (hr : r ∈ moduleImage s) : regsRead (moduleImage s) r.1 r.2.1 = r.2.2 % 256 ^ r.2.1 :=
  regsRead_mem (by simp [moduleImage, RegApart]) hr

theorem regsRead_queueImage {q : LaunchQueue} {r : Nat × Nat × Nat} (hr : r ∈ queueImage q) : regsRead (queueImage q) r.1 r.2.1 = r.2.2 % 256 ^ r.2.1 :=
  regsRead_mem (by simp [queueImage, RegApart]) hr

/-- The registers of a port below its doorbells. -/
def portRegisters (x : Port) : List (Nat × Nat × Nat) :=
  [(0x00, 4, b2n x.up + b2n x.pfc * 2), (0x08, 8, x.qpBase), (0x10, 8, x.qpCount), (0x18, 8, x.cqBase), (0x20, 8, x.cqCount)]

/-- The doorbells lie above the other registers of a port. -/
theorem regsRead_portImage {x : Port} {r : Nat × Nat × Nat} (hr : r ∈ portRegisters x) : regsRead (portImage x) r.1 r.2.1 = r.2.2 % 256 ^ r.2.1 := by
  have hlow : r.1 + r.2.1 ≤ 0x10000 := by
    have hall : ∀ r ∈ portRegisters x, r.1 + r.2.1 ≤ 0x10000 := by simp [portRegisters]
    exact hall r hr
  have hq : ∀ y ∈ x.qp.map (fun q => (0x10000 + 8 * q.1, 8, q.2)), RegApart y r.1 r.2.1 := by
    intro y hy; obtain ⟨q, -, rfl⟩ := List.mem_map.1 hy; exact .inl (by dsimp only; omega)
  have hc : ∀ y ∈ x.cq.map (fun q => (0x18000 + 8 * q.1, 8, q.2)), RegApart y r.1 r.2.1 := by
    intro y hy; obtain ⟨q, -, rfl⟩ := List.mem_map.1 hy; exact .inl (by dsimp only; omega)
  have himage : portImage x = portRegisters x ++ x.qp.map (fun q => (0x10000 + 8 * q.1, 8, q.2)) ++ x.cq.map fun q => (0x18000 + 8 * q.1, 8, q.2) := rfl
  rw [himage, regsRead_append_apart _ _ hc, regsRead_append_apart _ _ hq]
  exact regsRead_mem (by simp [portRegisters, RegApart]) hr

/-! The space of BAR0 (Table 22.1): what a read of a region returns. -/

theorem bar0Read_module (s : State) (fn : Nat) {r : Nat × Nat × Nat} (hr : r ∈ moduleImage s) : bar0Read s fn r.1 r.2.1 = r.2.2 % 256 ^ r.2.1 := by
  have hlow : r.1 < 0x1000 := by
    have hall : ∀ r ∈ moduleImage s, r.1 < 0x1000 := by simp [moduleImage]
    exact hall r hr
  rw [bar0Read, if_pos hlow, regsRead_moduleImage hr]

theorem bar0Read_pending (s : State) (fn : Nat) : bar0Read s fn 0x1800 8 = (Table.get {} s.funcs fn).pending % 256 ^ 8 := by
  rw [bar0Read, if_neg (by omega), if_neg (by omega), if_pos (by omega)]
  exact Memory.read_write _ _ _ _

theorem bar0Read_msix (s : State) (fn n : Nat) {o : Nat} (ho : o < 0x200) :
    bar0Read s fn (0x1000 + o) n = Memory.read (Table.get {} s.funcs fn).msix o n := by
  rw [bar0Read, if_neg (by omega), if_pos (by omega), Nat.add_sub_cancel_left]

section
variable (s : State) (fn n : Nat)

/-- A queue is found by the offset of its region, and what it holds by the offset in it. -/
theorem bar0Read_queue {q o : Nat} (hq : q < 16) (ho : o < 0x4000) : let x := launchQ s (16 * fn + q)
    bar0Read s fn (0x100000 + 0x4000 * q + o) n = if o < 0x2000 then Memory.read x.slots o n else regsRead (queueImage x) o n := by
  have h1 : ¬ 0x100000 + 0x4000 * q + o < 0x1000 := by omega
  have h2 : ¬ 0x100000 + 0x4000 * q + o < 0x1200 := by omega
  have h3 : ¬ (0x1800 ≤ 0x100000 + 0x4000 * q + o ∧ 0x100000 + 0x4000 * q + o < 0x1808) := by omega
  have h4 : 0x100000 ≤ 0x100000 + 0x4000 * q + o ∧ 0x100000 + 0x4000 * q + o < 0x140000 := by omega
  have hdiv : fn * 16 + (0x100000 + 0x4000 * q + o - 0x100000) / 0x4000 = 16 * fn + q := by omega
  have hmod : (0x100000 + 0x4000 * q + o - 0x100000) % 0x4000 = o := by omega
  rw [bar0Read, if_neg h1, if_neg h2, if_neg h3, if_pos h4, hdiv, hmod]

theorem bar0Read_port {p o : Nat} (hp : p < 8) (ho : o < 0x40000) :
    bar0Read s fn (0x1000000 + 0x40000 * p + o) n = regsRead (portImage (portAt s p)) o n := by
  have h1 : ¬ 0x1000000 + 0x40000 * p + o < 0x1000 := by omega
  have h2 : ¬ 0x1000000 + 0x40000 * p + o < 0x1200 := by omega
  have h3 : ¬ (0x1800 ≤ 0x1000000 + 0x40000 * p + o ∧ 0x1000000 + 0x40000 * p + o < 0x1808) := by omega
  have h4 : ¬ (0x100000 ≤ 0x1000000 + 0x40000 * p + o ∧ 0x1000000 + 0x40000 * p + o < 0x140000) := by omega
  have h5 : 0x1000000 ≤ 0x1000000 + 0x40000 * p + o ∧ 0x1000000 + 0x40000 * p + o < 0x1200000 := by omega
  have hdiv : (0x1000000 + 0x40000 * p + o - 0x1000000) / 0x40000 = p := by omega
  have hmod : (0x1000000 + 0x40000 * p + o - 0x1000000) % 0x40000 = o := by omega
  rw [bar0Read, if_neg h1, if_neg h2, if_neg h3, if_neg h4, if_pos h5, hdiv, hmod]

theorem bar0Read_barista {i o : Nat} (hi : i < 512) (ho : o < 0x10000) :
    bar0Read s fn (0x2000000 + 0x10000 * i + o) n = Memory.read (coreOf s (Config.cores + i)).lm o n := by
  have h1 : ¬ 0x2000000 + 0x10000 * i + o < 0x1000 := by omega
  have h2 : ¬ 0x2000000 + 0x10000 * i + o < 0x1200 := by omega
  have h3 : ¬ (0x1800 ≤ 0x2000000 + 0x10000 * i + o ∧ 0x2000000 + 0x10000 * i + o < 0x1808) := by omega
  have h4 : ¬ (0x100000 ≤ 0x2000000 + 0x10000 * i + o ∧ 0x2000000 + 0x10000 * i + o < 0x140000) := by omega
  have h5 : ¬ (0x1000000 ≤ 0x2000000 + 0x10000 * i + o ∧ 0x2000000 + 0x10000 * i + o < 0x1200000) := by omega
  have h6 : 0x2000000 ≤ 0x2000000 + 0x10000 * i + o ∧ 0x2000000 + 0x10000 * i + o < 0x4000000 := by omega
  have hdiv : (0x2000000 + 0x10000 * i + o - 0x2000000) / 0x10000 = i := by omega
  have hmod : (0x2000000 + 0x10000 * i + o - 0x2000000) % 0x10000 = o := by omega
  rw [bar0Read, if_neg h1, if_neg h2, if_neg h3, if_neg h4, if_neg h5, if_pos h6, hdiv, hmod]
  rfl

end

/-- The registers of the identification in configuration space. -/
def identification : List (Nat × Nat × Nat) :=
  [(0x00, 2, Config.vendorId), (0x02, 2, Config.deviceId), (0x08, 1, Config.revisionId), (0x09, 3, Config.classCode), (0x2C, 2, Config.vendorId),
   (0x2E, 2, Config.deviceId)]

theorem configRead_identification {r : Nat × Nat × Nat} (hr : r ∈ identification) : configRead r.1 r.2.1 = r.2.2 % 256 ^ r.2.1 :=
  regsRead_mem (l := identification) (by simp [identification, RegApart]) hr

/-! The row of a DRAM read. -/

theorem exec_hostDramRead (s : State) : exec .hostDramRead s = .next (hostLoad s.args.a s.args.b s.args.c s) := rfl

/-- Unit 1 or 2 of a read is BAR0 of function 0 or 1. -/
theorem exec_hostDramRead_bar0 {s : State} (h : s.args.c = 1 ∨ s.args.c = 2) :
    exec .hostDramRead s = .next { s with reply := bar0Read s (s.args.c - 1) s.args.a s.args.b } := by
  rw [exec_hostDramRead, hostLoad, if_neg (by omega), if_pos (by omega)]

/-- Unit 3 or 4 of a read is the configuration space of function 0 or 1. -/
theorem exec_hostDramRead_config {s : State} (h : s.args.c = 3 ∨ s.args.c = 4) :
    exec .hostDramRead s = .next { s with reply := configRead s.args.a s.args.b } := by
  rw [exec_hostDramRead, hostLoad, if_neg (by omega), if_neg (by omega)]

end Sys2Proof.Machine
end

section
/-!
SUPPORT. Peers (R394 to R396): how the writes of one module come, begin and end.
-/

namespace Sys2Proof.Machine

open Sys2Proof.Claims

/-- No write of module m is in flight. -/
abbrev NoPeer (t : Table Acc) (m : Nat) : Prop := ∀ a ∈ t, isPeer a.2 = false ∨ a.2.slot ≠ m

/-- The write of module m that bears number id, as it comes. -/
def peerAcc (m op va n v id : Nat) : Acc :=
  { kind := .uwrite, core := hostUnit, slot := m, stage := .order, place := theHome, va := va, n := n, val := v, op := op, page := 2, lead := 0, blocks := false
    next := some (if op = 6 then .peerLaunchWrite else .haloWrite, { a := m, d := id + 1 }) }

theorem isPeer_peerAcc (m op va n v id : Nat) : isPeer (peerAcc m op va n v id) = true := by
  by_cases h : op = 6 <;> simp [isPeer, peerAcc, h]

/-- The state in which a write of module m has come and has not begun. -/
def withPeer (m op va n v : Nat) (s : State) : State :=
  { s with accs := Table.set s.accs s.nextId (peerAcc m op va n v s.nextId), nextId := s.nextId + 1 }

theorem peerComes_eq (m op va n v : Nat) (s : State) : peerComes m op va n v s = peerGoes m (s.accs.length + 1) (withPeer m op va n v s) := rfl

/-! Which write of a module begins. -/

theorem find?_noPeer {t : Table Acc} {m : Nat} (h : NoPeer t m) : (t.find? fun q => isPeer q.2 && q.2.slot == m) = none := by
  refine List.find?_eq_none.2 fun q hq => ?_
  rcases h q hq with hp | hp <;> simp [hp]

theorem peerGoes_noPeer {m : Nat} (k : Nat) {s : State} (h : NoPeer s.accs m) : peerGoes m k s = s := by
  cases k with
  | zero => rfl
  | succ k => rw [peerGoes, find?_noPeer h]

section
variable {m op va n v : Nat} {s : State} (hid : ∀ a ∈ s.accs, a.1 < s.nextId)
include hid

/-- A write that comes is the last of those in flight. -/
theorem withPeer_accs : (withPeer m op va n v s).accs = s.accs ++ [(s.nextId, peerAcc m op va n v s.nextId)] := Table.set_above _ _ _ hid

/-- Without another of its module it is the first to begin. -/
theorem find?_withPeer (hm : NoPeer s.accs m) : ((withPeer m op va n v s).accs.find? fun q => isPeer q.2 && q.2.slot == m) =
    some (s.nextId, peerAcc m op va n v s.nextId) := by
  have hnew : (isPeer (peerAcc m op va n v s.nextId) && (peerAcc m op va n v s.nextId).slot == m) = true := by
    rw [isPeer_peerAcc, Bool.true_and]; exact beq_self_eq_true m
  rw [withPeer_accs hid, List.find?_append, find?_noPeer hm, Option.none_or]
  exact List.find?_cons_of_pos hnew

omit hid in
theorem accAt_withPeer : accAt (withPeer m op va n v s) s.nextId = peerAcc m op va n v s.nextId := by
  simp only [accAt, withPeer, Table.get_set, if_true]

/-- A write that is over leaves no access behind. -/
theorem dropAcc_withPeer : dropAcc s.nextId (withPeer m op va n v s) = (freshId s).2 := by
  simp only [dropAcc, withPeer, freshId, Table.erase_set_above _ _ _ hid]

end

/-! Writes of launch queues. -/

theorem peerQueueWrite_accs (m off n v : Nat) (s : State) : (peerQueueWrite m off n v s).accs = s.accs := by
  simp only [peerQueueWrite]
  split
  · rfl
  · split
    · rfl
    · split
      case isTrue h => rw [queueRegs_slots _ _ _ h]; rfl
      case isFalse =>
        split
        · exact tailWrite_accs _ _ _
        · rfl

/-- A write of a launch queue that finds none of its module in flight is performed at once. -/
theorem peerComes_queue {m : Nat} (off n v : Nat) {s : State} (hid : ∀ a ∈ s.accs, a.1 < s.nextId) (hm : NoPeer s.accs m) :
    peerComes m 6 off n v s = peerQueueWrite m off n v (freshId s).2 := by
  have hacc : (peerAcc m 6 off n v s.nextId).stage = .order := rfl
  have hop : (peerAcc m 6 off n v s.nextId).op = 6 := rfl
  rw [peerComes_eq, peerGoes, find?_withPeer hid hm]
  simp only [hacc, hop, ne_eq, not_true_eq_false, if_false, if_true, dropAcc_withPeer hid]
  exact peerGoes_noPeer _ (by rw [peerQueueWrite_accs]; exact hm)

section
variable {m off n v : Nat} {s : State}

theorem peerQueueWrite_wiping (hw : s.wiping = true) : peerQueueWrite m off n v s = s := by rw [peerQueueWrite, if_pos hw]

theorem peerQueueWrite_slots (hw : s.wiping = false) (hm : peerMay s m (off / 0x4000) = true) (ho : off % 0x4000 + n ≤ 0x2000) :
    peerQueueWrite m off n v s = { queueRegs (off / 0x4000) (off % 0x4000) n v s with reply := 0 } := by
  simp only [peerQueueWrite, answerPeer, hw, hm, ho, Bool.false_eq_true, Bool.not_true, if_false, if_true]

theorem peerQueueWrite_tail (hw : s.wiping = false) (hm : peerMay s m (off / 0x4000) = true) (ho : off % 0x4000 = 0x2004) :
    peerQueueWrite m off n v s = { tailWrite (off / 0x4000) v s with reply := 0 } := by
  have hlong : ¬ 0x2004 + n ≤ 0x2000 := by omega
  have hv : v % 64 % 64 = v % 64 := by omega
  simp only [peerQueueWrite, answerPeer, hw, hm, ho, hlong, Bool.false_eq_true, Bool.not_true, if_false, if_true, tailWrite_congr _ s hv]

theorem peerQueueWrite_refused (hw : s.wiping = false) (h : peerMay s m (off / 0x4000) = false ∨ (0x2000 < off % 0x4000 + n ∧ off % 0x4000 ≠ 0x2004)) :
    peerQueueWrite m off n v s = { s with reply := 1 } := by
  simp only [peerQueueWrite, answerPeer, hw, Bool.false_eq_true, if_false]
  rcases h with hm | ⟨hlong, htail⟩
  · simp [hm]
  · simp [show ¬ off % 0x4000 + n ≤ 0x2000 by omega, htail]

end

/-- A write waits behind one of its module that is under way. -/
theorem peerComes_waits {m : Nat} (op va n v : Nat) {s : State} (hid : ∀ a ∈ s.accs, a.1 < s.nextId)
    (hm : ∃ a ∈ s.accs, isPeer a.2 = true ∧ a.2.slot = m) (hbegun : ∀ a ∈ s.accs, isPeer a.2 = true → a.2.slot = m → a.2.stage ≠ .order) :
    peerComes m op va n v s = withPeer m op va n v s := by
  obtain ⟨a, ha, hpeer, hslot⟩ := hm
  obtain ⟨b, hb⟩ : ∃ b, (s.accs.find? fun q => isPeer q.2 && q.2.slot == m) = some b :=
    Option.isSome_iff_exists.1 (List.find?_isSome.2 ⟨a, ha, by simp [hpeer, hslot]⟩)
  have hbp := List.find?_some hb
  simp only [Bool.and_eq_true, beq_iff_eq] at hbp
  have hstage : b.2.stage ≠ .order := hbegun b (List.mem_of_find?_eq_some hb) hbp.1 hbp.2
  rw [peerComes_eq, peerGoes, withPeer_accs hid, List.find?_append, hb]
  simp only [Option.some_or, hstage, ne_eq, not_false_eq_true, if_true]

/-! The access-control table. -/

/-- A field of a field. -/
theorem fld_div_mod (e lo n q : Nat) (h : q < n) : fld e lo n / 2 ^ q % 2 = e / 2 ^ (lo + q) % 2 := by
  have hb := Nat.testBit_mod_two_pow (e / 2 ^ lo) n q
  rw [decide_eq_true h, Bool.true_and, Nat.testBit_div_two_pow] at hb
  rw [Nat.testBit_eq_decide_div_mod_eq, Nat.testBit_eq_decide_div_mod_eq, decide_eq_decide, Nat.add_comm q] at hb
  unfold fld
  omega

theorem peerMay_iff (s : State) (m q : Nat) : peerMay s m q = true ↔ m < 64 ∧ q < 16 ∧ aclAt s m % 2 = 1 ∧ aclAt s m / 2 ^ (4 + q) % 2 = 1 ∧
    aclAt s m / 2 ^ 20 % 2 ^ 3 ≤ (launchQ s q).prio := by
  have hv : aclV (aclAt s m) = true ↔ aclAt s m % 2 = 1 := by simp [aclV, bit]
  have hq : q < 16 → (bit (aclQmask (aclAt s m)) q = true ↔ aclAt s m / 2 ^ (4 + q) % 2 = 1) := fun h => by
    rw [bit_iff, aclQmask, fld_div_mod _ _ _ _ h]
  simp only [peerMay, Bool.and_eq_true, decide_eq_true_eq, hv]
  constructor
  · rintro ⟨⟨⟨⟨hm, hlt⟩, h0⟩, hb⟩, hp⟩; exact ⟨hm, hlt, h0, (hq hlt).1 hb, hp⟩
  · rintro ⟨hm, hlt, h0, hb, hp⟩; exact ⟨⟨⟨⟨hm, hlt⟩, h0⟩, (hq hlt).2 hb⟩, hp⟩

theorem aclV_eq_false (e : Nat) : aclV e = false ↔ e % 2 = 0 := by simp [aclV, bit]
theorem aclHalo_eq_false (e : Nat) : aclHalo e = false ↔ e / 2 ^ 23 % 2 = 0 := by simp [aclHalo, bit]

/-! Halo writes. -/

theorem liveNumber_none {s : State} {n : Nat} (h : ∀ q ∈ s.domains, q.2.number = n → q.2.ended = true) : liveNumber s n = none := by
  refine Option.map_eq_none_iff.2 (List.find?_eq_none.2 fun q hq => ?_)
  by_cases hn : q.2.number = n <;> simp [hn, h q hq]

/-- A halo write that the access table or the domain refuses is over at once. -/
theorem haloBegins_refused {id : Nat} {s : State} (h : let x := accAt s id
      let e := aclAt s x.slot
      64 ≤ x.slot ∨ e % 2 = 0 ∨ e / 2 ^ 23 % 2 = 0 ∨ 2 ^ 57 ≤ x.va ∨ liveNumber s (e / 2 ^ 24 % 2 ^ 32) = none) :
    haloBegins id s = (peerAnswers id 1 s, true) := by
  simp only [← aclV_eq_false (aclAt s (accAt s id).slot), ← aclHalo_eq_false] at h
  simp only [haloBegins]
  split
  · rfl
  · next hok =>
    have hlive : liveNumber s (aclHdom (aclAt s (accAt s id).slot)) = none := by
      simp only [not_or, Bool.not_eq_true'] at hok
      obtain ⟨h1, h2, h3, h4⟩ := hok
      rcases h with h | h | h | h | h
      · exact absurd h h1
      · exact absurd h h2
      · exact absurd h h3
      · exact absurd h h4
      · exact h
    rw [hlive]

/-- A halo write that is permitted is translated in its domain, as an access of the unit of the domain's lowest die. -/
theorem haloBegins_permitted {id k : Nat} {s : State} (hslot : (accAt s id).slot < 64) (hv : aclAt s (accAt s id).slot % 2 = 1)
    (hh : aclAt s (accAt s id).slot / 2 ^ 23 % 2 = 1) (hva : (accAt s id).va < 2 ^ 57)
    (hk : liveNumber s (aclAt s (accAt s id).slot / 2 ^ 24 % 2 ^ 32) = some k) :
    haloBegins id s =
      (beginWalk id (putAcc id { accAt s id with core := haloUnit (nth 0 (diesOf (domAt s k).mask) 0), stage := .walk } s), false) := by
  have h1 : aclV (aclAt s (accAt s id).slot) = true := (bit_iff _ _).2 (by simpa using hv)
  have h2 : aclHalo (aclAt s (accAt s id).slot) = true := (bit_iff _ _).2 hh
  have hk' : liveNumber s (aclHdom (aclAt s (accAt s id).slot)) = some k := hk
  have hok : ¬ (64 ≤ (accAt s id).slot ∨ (!aclV (aclAt s (accAt s id).slot)) = true ∨ (!aclHalo (aclAt s (accAt s id).slot)) = true ∨
      2 ^ 57 ≤ (accAt s id).va) := by
    simp only [h1, h2, Bool.not_true, Bool.false_eq_true, false_or, not_or, Nat.not_le]
    exact ⟨hslot, hva⟩
  simp only [haloBegins, hok, if_false, hk']

section
variable {m va n v : Nat} {s : State} (hid : ∀ a ∈ s.accs, a.1 < s.nextId) (hm : NoPeer s.accs m)
include hid hm

/-- A halo write that finds none of its module in flight and is refused leaves its answer alone. -/
theorem peerComes_halo_refused (h : 64 ≤ m ∨ aclAt s m % 2 = 0 ∨ aclAt s m / 2 ^ 23 % 2 = 0 ∨ 2 ^ 57 ≤ va ∨
      liveNumber s (aclAt s m / 2 ^ 24 % 2 ^ 32) = none) :
    peerComes m 0 va n v s = { s with reply := 1, nextId := s.nextId + 1 } := by
  have hstage : (peerAcc m 0 va n v s.nextId).stage = .order := rfl
  have hop : (peerAcc m 0 va n v s.nextId).op = 0 := rfl
  have hbegins : haloBegins s.nextId (withPeer m 0 va n v s) = ({ s with reply := 1, nextId := s.nextId + 1 }, true) := by
    rw [haloBegins_refused (by rw [accAt_withPeer]; exact h), peerAnswers, dropAcc_withPeer hid]; rfl
  rw [peerComes_eq, peerGoes, find?_withPeer hid hm]
  simp only [hstage, hop, ne_eq, not_true_eq_false, if_false, show ¬ 0 = 6 by omega, hbegins]
  exact peerGoes_noPeer _ hm

/-- A halo write that finds none of its module in flight and is permitted begins its translation. -/
theorem peerComes_halo_permitted {k : Nat} (hslot : m < 64) (hv : aclAt s m % 2 = 1) (hh : aclAt s m / 2 ^ 23 % 2 = 1) (hva : va < 2 ^ 57)
    (hk : liveNumber s (aclAt s m / 2 ^ 24 % 2 ^ 32) = some k) :
    peerComes m 0 va n v s = beginWalk s.nextId (putAcc s.nextId
      { peerAcc m 0 va n v s.nextId with core := haloUnit (nth 0 (diesOf (domAt s k).mask) 0), stage := .walk } (withPeer m 0 va n v s)) := by
  have hstage : (peerAcc m 0 va n v s.nextId).stage = .order := rfl
  have hop : (peerAcc m 0 va n v s.nextId).op = 0 := rfl
  have hbegins := haloBegins_permitted (id := s.nextId) (k := k) (s := withPeer m 0 va n v s) (by rw [accAt_withPeer]; exact hslot)
    (by rw [accAt_withPeer]; exact hv) (by rw [accAt_withPeer]; exact hh) (by rw [accAt_withPeer]; exact hva) (by rw [accAt_withPeer]; exact hk)
  rw [accAt_withPeer] at hbegins
  rw [peerComes_eq, peerGoes, find?_withPeer hid hm]
  simp only [hstage, hop, ne_eq, not_true_eq_false, if_false, show ¬ 0 = 6 by omega, hbegins]
  rfl

end

/-- An access that no entry of its micro-TLB serves is looked up in the second-level TLB 12 cycles later (R243). -/
theorem beginWalk_miss {id : Nat} {s : State} (h : findTlb (rodOf s (rodOfCore (accAt s id).core)).tlb (accAt s id).va = none) :
    beginWalk id s = evAt (s.cycle + 12) 0 .walkStart { a := accDie (accAt s id), b := id + 1 } s := by
  have hmiss : microLookup (rodOfCore (accAt s id).core) (accAt s id).va s = none := by rw [microLookup, h]; rfl
  simp only [beginWalk, hmiss]

/-- The halo unit of a die acts on that die. -/
theorem accDie_haloUnit {x : Acc} {die : Nat} (hx : x.core = haloUnit die) (hd : die < Config.dies) : accDie x = die := by
  have hgt : Config.allCores < x.core := by rw [hx, haloUnit]; omega
  have hsub : x.core - Config.allCores - 1 = Config.dies + die := by rw [hx, haloUnit]; omega
  rw [accDie, if_pos hgt, hsub, Nat.add_mod_left, Nat.mod_eq_of_lt hd]

/-- The lowest die of a mask. -/
theorem nth_diesOf_of_head? {mask die : Nat} (h : (diesOf mask).head? = some die) : nth 0 (diesOf mask) 0 = die ∧ die < Config.dies := by
  have hmem : die ∈ diesOf mask := List.mem_of_head? h
  constructor
  · cases hd : diesOf mask with
    | nil => rw [hd] at h; cases h
    | cons a l => rw [hd] at h; cases h; rfl
  · exact List.mem_range.1 (List.mem_filter.1 hmem).1

/-- The end of the halo write of a module that has no other in flight. -/
theorem haloEnds_last {m id : Nat} {x : Acc} {s : State} (hx : acc s id x) (h : NoPeer (Table.erase s.accs id) m) :
    haloEnds m id s = { s with accs := Table.erase s.accs id, reply := if x.stage = .fault then 1 else 0 } := by
  have hacc : accAt s id = x := by rw [accAt, Table.get_eq_find, hx]; rfl
  have hends : haloEnds m id s = peerAnswers id (b2n (decide ((accAt s id).stage = .fault))) s := peerGoes_noPeer _ h
  rw [hends, hacc]
  by_cases hf : x.stage = .fault <;> simp [peerAnswers, answerPeer, dropAcc, b2n, hf]

end Sys2Proof.Machine
end

section
/-!
PROOF. Registers of the module, their reads, doorbells, peers and links (22 R379 to R402).
-/

namespace Sys2Proof.Machine

open Sys2Proof.Claims

/-! The rows of the events. -/

theorem exec_registerWrite (s : State) : exec .registerWrite s = .next (bar0Write s.args.a s.args.b s.args.c s.args.d s) := rfl
theorem exec_hostTlbInvalidate (s : State) : exec .hostTlbInvalidate s = .next (if s.wiping then s else tlbGo s.args.a s.args.b s) := rfl
theorem exec_launchQueueTail (s : State) : exec .launchQueueTail s = .next (tailWrite s.args.a s.args.b s) := rfl
theorem exec_qpDoorbell (s : State) : exec .qpDoorbell s = .next (if s.wiping then s else qpBell s.args.a s.args.b s.args.c s) := rfl
theorem exec_cqDoorbell (s : State) : exec .cqDoorbell s = .next (if s.wiping then s else cqBell s.args.a s.args.b s.args.c s) := rfl
theorem exec_peerLaunchWrite (s : State) : exec .peerLaunchWrite s = .next (peerComes s.args.a 6 s.args.b s.args.c s.args.d s) := rfl
theorem exec_haloWrite (s : State) : exec .haloWrite s = .next (haloStore s.args.a s.args.b s.args.c s.args.d s) := rfl
theorem exec_linkTraining (s : State) : exec .linkTraining s = .next (linkTrained s.args.a s.args.b s.args.c s.args.d s) := rfl
theorem exec_linkUp (s : State) : exec .linkUp s = .next (linkChanged s.args.a s.args.b s.args.c s) := rfl

/-! Writes of registers. -/

/-- Register writes are ignored while the module wipes (R402, log 49). -/
theorem registers_ignored_wiping {s : State} (hw : s.wiping = true) :
    exec .registerWrite s = .next s ∧ exec .qpDoorbell s = .next s ∧ exec .cqDoorbell s = .next s ∧ exec .hostTlbInvalidate s = .next s ∧
    exec .launchQueueTail s = .next s := by
  refine ⟨?_, ?_, ?_, ?_, ?_⟩
  · rw [exec_registerWrite, bar0Write_wiping _ _ _ _ hw]
  · rw [exec_qpDoorbell, if_pos hw]
  · rw [exec_cqDoorbell, if_pos hw]
  · rw [exec_hostTlbInvalidate, if_pos hw]
  · rw [exec_launchQueueTail, tailWrite, if_pos hw]

theorem registerWrite_readOnly {s : State} (h : s.args.b + s.args.c ≤ 0x020) : exec .registerWrite s = .next s := by
  rw [exec_registerWrite]
  cases hw : s.wiping
  case true => rw [bar0Write_wiping _ _ _ _ hw]
  case false => rw [bar0Write_module hw (by omega), moduleRegs_readOnly _ _ _ _ h]

section
variable {s : State} (hw : s.wiping = false)
include hw

theorem registerWrite_queue {q o : Nat} (hq : q < 16) (ho : o < 0x4000) (hb : s.args.b = 0x100000 + 0x4000 * q + o) :
    exec .registerWrite s = .next (queueRegs (16 * s.args.a + q) o s.args.c s.args.d s) := by
  rw [exec_registerWrite, hb, bar0Write_queue hw hq ho]

/-- A TAIL register of a queue. -/
theorem registerWrite_tail {q : Nat} (hq : q < 16) (hb : s.args.b = 0x100000 + 0x4000 * q + 0x2004) (hc : s.args.c = 4)
    (hv : s.args.d % 64 ≠ (launchQ s (16 * s.args.a + q)).head) : ∃ t, exec .registerWrite s = .next t ∧
      TailTaken (launchQ s (16 * s.args.a + q)) (launchQ t (16 * s.args.a + q)) (hostWrites s) s.args.d := by
  refine ⟨_, registerWrite_queue hw hq (by omega) hb, ?_⟩
  rw [hc, queueRegs_tail]
  exact tailTaken_tailWrite _ _ hw hv

/-- The MSI-X table of a function: a vector that was pending and is masked no more is sent (R380, log 59). -/
theorem registerWrite_msix {o : Nat} (ho : o + s.args.c ≤ 0x200) (hb : s.args.b = 0x1000 + o) : let f := Table.get {} s.funcs s.args.a
    ∃ t, exec .registerWrite s = .next t ∧ let g := Table.get {} t.funcs s.args.a
      g.msix = Memory.write f.msix o s.args.c s.args.d ∧
      ∀ v, v < 32 → g.pending.testBit v = (f.pending.testBit v && decide (Memory.read g.msix (16 * v + 12) 4 % 2 = 1)) ∧
        (f.pending.testBit v = true → Memory.read g.msix (16 * v + 12) 4 % 2 = 0 → v ∈ g.raised) := by
  intro f
  let w : Func := { f with msix := Memory.write f.msix o s.args.c s.args.d }
  refine ⟨msixWrite s.args.a o s.args.c s.args.d s, by rw [exec_registerWrite, hb, bar0Write_msix hw ho], ?_⟩
  simp only [func_msixWrite]
  refine ⟨rfl, fun v hv => ⟨testBit_pending_left w hv, fun hp hr => ?_⟩⟩
  exact List.mem_append_right _ ((mem_unmaskedPending w _).2 ⟨hv, hp, hr⟩)

/-- Doorbells within the table of contexts, and beyond it (R397, log 9). -/
theorem qpDoorbell_within (hp : s.args.a < 8) (hq : s.args.b < (portAt s s.args.a).qpCount) : ∃ t, exec .qpDoorbell s = .next t ∧
    portAt t s.args.a = { portAt s s.args.a with qp := Table.set (portAt s s.args.a).qp s.args.b (s.args.c % 2 ^ 64) } := by
  refine ⟨_, rfl, ?_⟩
  simp only [hw, qpBell, show ¬ (8 ≤ s.args.a ∨ (portAt s s.args.a).qpCount ≤ s.args.b) by omega, Bool.false_eq_true, if_false, portAt_updPort]

theorem cqDoorbell_within (hp : s.args.a < 8) (hq : s.args.b < (portAt s s.args.a).cqCount) : ∃ t, exec .cqDoorbell s = .next t ∧
    portAt t s.args.a = { portAt s s.args.a with cq := Table.set (portAt s s.args.a).cq s.args.b (s.args.c % 2 ^ 64) } := by
  refine ⟨_, rfl, ?_⟩
  simp only [hw, cqBell, show ¬ (8 ≤ s.args.a ∨ (portAt s s.args.a).cqCount ≤ s.args.b) by omega, Bool.false_eq_true, if_false, portAt_updPort]

theorem qpDoorbell_beyond (h : 8 ≤ s.args.a ∨ (portAt s s.args.a).qpCount ≤ s.args.b) : exec .qpDoorbell s = .next s := by
  rw [exec_qpDoorbell, if_neg (by simp [hw]), qpBell, if_pos h]

theorem cqDoorbell_beyond (h : 8 ≤ s.args.a ∨ (portAt s s.args.a).cqCount ≤ s.args.b) : exec .cqDoorbell s = .next s := by
  rw [exec_cqDoorbell, if_neg (by simp [hw]), cqBell, if_pos h]

end

/-! Writes of peers. -/

/-- A write of a launch queue by a module that has no other in flight. -/
theorem exec_peerLaunchWrite_first {s : State} (h : ∀ a ∈ s.accs, a.1 < s.nextId ∧ (isPeer a.2 = false ∨ a.2.slot ≠ s.args.a)) :
    exec .peerLaunchWrite s = .next (peerQueueWrite s.args.a s.args.b s.args.c s.args.d (freshId s).2) := by
  rw [exec_peerLaunchWrite, peerComes_queue _ _ _ (fun a ha => (h a ha).1) fun a ha => (h a ha).2]

theorem peerLaunchWrite_waits {s : State} (h : ∀ a ∈ s.accs, a.1 < s.nextId ∧ (isPeer a.2 = true → a.2.slot = s.args.a → a.2.stage ≠ .order))
    (hm : ∃ a ∈ s.accs, isPeer a.2 = true ∧ a.2.slot = s.args.a) :
    ∃ t, exec .peerLaunchWrite s = .next t ∧ t = { s with accs := t.accs, nextId := t.nextId } ∧ At t s.nextId .order := by
  refine ⟨withPeer s.args.a 6 s.args.b s.args.c s.args.d s, ?_, rfl, peerAcc s.args.a 6 s.args.b s.args.c s.args.d s.nextId, ?_, rfl⟩
  · rw [exec_peerLaunchWrite, peerComes_waits _ _ _ _ (fun a ha => (h a ha).1) hm fun a ha => (h a ha).2]
  · simp only [acc, withPeer, Table.find_set, if_true]

/-- The translation of a permitted halo write is under way: the access as it is, and its lookup. -/
theorem haloWrite_permitted {s : State} {k die : Nat} (hc : 0 < s.args.c)
    (h : ∀ a ∈ s.accs, a.1 < s.nextId ∧ (isPeer a.2 = false ∨ a.2.slot ≠ s.args.a)) (hslot : s.args.a < 64) (hv : aclAt s s.args.a % 2 = 1)
    (hh : aclAt s s.args.a / 2 ^ 23 % 2 = 1) (hva : s.args.b < 2 ^ 57) (hk : liveNumber s (aclAt s s.args.a / 2 ^ 24 % 2 ^ 32) = some k)
    (hd : (diesOf (domAt s k).mask).head? = some die) (htlb : (rodOf s (rodOfCore (haloUnit die))).tlb = []) :
    ∃ t, exec .haloWrite s = .next t ∧ Due t .walkStart { a := die, b := s.nextId + 1 } (s.cycle + 12) 0 ∧
      ∃ y, acc t s.nextId y ∧ y.kind = .uwrite ∧ y.va = s.args.b ∧ y.n = s.args.c ∧ y.val = s.args.d ∧ y.priv = false ∧
        y.next = some (.haloWrite, { a := s.args.a, d := s.nextId + 1 }) := by
  obtain ⟨hdie, hlt⟩ := nth_diesOf_of_head? hd
  let x : Acc := { peerAcc s.args.a 0 s.args.b s.args.c s.args.d s.nextId with core := haloUnit die, stage := .walk }
  let u : State := putAcc s.nextId x (withPeer s.args.a 0 s.args.b s.args.c s.args.d s)
  have hx : accAt u s.nextId = x := accAt_putAcc_same _ _ _
  have hmiss : findTlb (rodOf u (rodOfCore (accAt u s.nextId).core)).tlb (accAt u s.nextId).va = none := by
    rw [hx, show rodOf u (rodOfCore x.core) = rodOf s (rodOfCore (haloUnit die)) from rfl, htlb]; rfl
  have hexec : exec .haloWrite s = .next (beginWalk s.nextId u) := by
    rw [exec_haloWrite, haloStore, if_neg (by omega),
      peerComes_halo_permitted (fun a ha => (h a ha).1) (fun a ha => (h a ha).2) hslot hv hh hva hk, hdie]
  rw [beginWalk_miss hmiss, hx, accDie_haloUnit (die := die) rfl hlt] at hexec
  refine ⟨_, hexec, ⟨_, .head _, rfl, rfl⟩, x, ?_, rfl, rfl, rfl, rfl, rfl, rfl⟩
  simp only [acc, evAt_accs, u, putAcc, Table.find_set, if_true]

theorem haloWrite_refused {s : State} (hc : 0 < s.args.c) (h : ∀ a ∈ s.accs, a.1 < s.nextId ∧ (isPeer a.2 = false ∨ a.2.slot ≠ s.args.a))
    (hr : 64 ≤ s.args.a ∨ aclAt s s.args.a % 2 = 0 ∨ aclAt s s.args.a / 2 ^ 23 % 2 = 0 ∨ 2 ^ 57 ≤ s.args.b ∨
      ∀ q ∈ s.domains, q.2.number = aclAt s s.args.a / 2 ^ 24 % 2 ^ 32 → q.2.ended = true) :
    ∃ t, exec .haloWrite s = .next t ∧ t = { s with reply := 1, nextId := t.nextId } := by
  have hr' := hr.imp_right (Or.imp_right (Or.imp_right (Or.imp_right liveNumber_none)))
  refine ⟨{ s with reply := 1, nextId := s.nextId + 1 }, ?_, rfl⟩
  rw [exec_haloWrite, haloStore, if_neg (by omega), peerComes_halo_refused (fun a ha => (h a ha).1) (fun a ha => (h a ha).2) hr']

theorem haloWrite_ends {s : State} {id : Nat} {x : Acc} (hc : s.args.c = 0) (hd : s.args.d = id + 1) (hx : acc s id x)
    (h : NoPeer (Table.erase s.accs id) s.args.a) :
    ∃ t, exec .haloWrite s = .next t ∧ t = { s with accs := Table.erase s.accs id, reply := if x.stage = .fault then 1 else 0 } := by
  refine ⟨_, ?_, rfl⟩
  rw [exec_haloWrite, haloStore, if_pos hc, hd, Nat.add_sub_cancel, haloEnds_last hx h]

/-! Links. -/

theorem linkUp_port {s : State} (h : s.args.a < 8) : ∃ t, exec .linkUp s = .next t ∧
    portAt t s.args.a = { portAt s s.args.a with up := decide (s.args.b = 1), pfc := decide (s.args.c = 1) } := by
  refine ⟨_, exec_linkUp s, ?_⟩
  rw [linkChanged, if_neg (by omega), portAt_updPort]
  rfl

/-! Reads. -/

section
variable {s : State} (h : s.args.c = 1 ∨ s.args.c = 2)
include h

/-- Module registers, and the pending bits of a function. -/
theorem read_moduleRegister : let f := Table.get {} s.funcs (s.args.c - 1)
    ∀ r ∈ [(0x000, 4, 0x00014016), (0x004, 4, s.module), (0x008, 4, s.lcs), (0x00C, 4, 2 * b2n s.wiping + b2n s.alarm), (0x010, 8, s.dieBusy),
      (0x020, 8, s.tlbVa), (0x028, 8, s.tlbDies), (0x030, 4, b2n s.tlbBusy.isSome * 2 ^ 31 + s.tlbMode % 4), (0x1800, 8, f.pending)],
      s.args.a = r.1 → s.args.b = r.2.1 → exec .hostDramRead s = .next { s with reply := r.2.2 % 256 ^ r.2.1 } := by
  intro f r hr ha hb
  have hsplit : r ∈ moduleImage s ∨ r = (0x1800, 8, f.pending) := by
    rw [moduleImage, Nat.mul_comm (b2n s.wiping) 2, ← List.mem_singleton, ← List.mem_append]; exact hr
  rw [exec_hostDramRead_bar0 h, ha, hb]
  rcases hsplit with hr | rfl
  · rw [bar0Read_module _ _ hr]
  · rw [bar0Read_pending]

theorem read_msix {o : Nat} (ho : o < 0x200) (ha : s.args.a = 0x1000 + o) :
    exec .hostDramRead s = .next { s with reply := Memory.read (Table.get {} s.funcs (s.args.c - 1)).msix o s.args.b } := by
  rw [exec_hostDramRead_bar0 h, ha, bar0Read_msix _ _ _ ho]

theorem read_queueSlots {q o : Nat} (hq : q < 16) (ho : o < 0x2000) (ha : s.args.a = 0x100000 + 0x4000 * q + o) :
    exec .hostDramRead s = .next { s with reply := Memory.read (launchQ s (16 * (s.args.c - 1) + q)).slots o s.args.b } := by
  rw [exec_hostDramRead_bar0 h, ha, bar0Read_queue _ _ _ hq (by omega), if_pos ho]

theorem read_queueRegister {q : Nat} (hq : q < 16) : let x := launchQ s (16 * (s.args.c - 1) + q)
    ∀ r ∈ [(0x2000, x.prio + 8 * b2n x.en + 16 * b2n x.priv), (0x2004, x.tail), (0x2008, x.head), (0x200C, b2n x.ovf)],
      s.args.a = 0x100000 + 0x4000 * q + r.1 → s.args.b = 4 → exec .hostDramRead s = .next { s with reply := r.2 % 2 ^ 32 } := by
  intro x r hr ha hb
  have hmem : (r.1, 4, r.2) ∈ queueImage x := by
    rw [queueImage, Nat.mul_comm (b2n x.en), Nat.mul_comm (b2n x.priv)]
    exact List.mem_map_of_mem (f := fun r => (r.1, 4, r.2)) hr
  have hrange : 0x2000 ≤ r.1 ∧ r.1 < 0x4000 := by
    have hall : ∀ y ∈ queueImage x, 0x2000 ≤ y.1 ∧ y.1 < 0x4000 := by simp [queueImage]
    exact hall _ hmem
  rw [exec_hostDramRead_bar0 h, ha, hb, bar0Read_queue _ _ _ hq hrange.2, if_neg (by omega)]
  exact congrArg (fun v => Host.Outcome.next { s with reply := v }) (regsRead_queueImage hmem)

theorem read_portRegister {p : Nat} (hp : p < 8) : let x := portAt s p
    ∀ r ∈ [(0x00, 4, b2n x.up + 2 * b2n x.pfc), (0x08, 8, x.qpBase), (0x10, 8, x.qpCount), (0x18, 8, x.cqBase), (0x20, 8, x.cqCount)],
      s.args.a = 0x1000000 + 0x40000 * p + r.1 → s.args.b = r.2.1 → exec .hostDramRead s = .next { s with reply := r.2.2 % 256 ^ r.2.1 } := by
  intro x r hr ha hb
  have hmem : r ∈ portRegisters x := by rw [portRegisters, Nat.mul_comm (b2n x.pfc)]; exact hr
  have hrange : r.1 < 0x40000 := by
    have hall : ∀ y ∈ portRegisters x, y.1 < 0x40000 := by simp [portRegisters]
    exact hall r hmem
  rw [exec_hostDramRead_bar0 h, ha, hb, bar0Read_port _ _ _ hp hrange, regsRead_portImage hmem]

theorem read_barista {i o : Nat} (hi : i < 512) (ho : o < 0x10000) (ha : s.args.a = 0x2000000 + 0x10000 * i + o) :
    exec .hostDramRead s = .next { s with reply := Memory.read (coreOf s (Config.cores + i)).lm o s.args.b } := by
  rw [exec_hostDramRead_bar0 h, ha, bar0Read_barista _ _ _ hi ho]

end

/-- The identification of a function, whole in its bytes. -/
theorem read_identification {s : State} (h : s.args.c = 3 ∨ s.args.c = 4) :
    ∀ r ∈ [(0x00, 2, 0x1F2C), (0x02, 2, 0x4016), (0x08, 1, 0x01), (0x09, 3, 0x120000)],
      s.args.a = r.1 → s.args.b = r.2.1 → exec .hostDramRead s = .next { s with reply := r.2.2 } := by
  intro r hr ha hb
  have hmem : r ∈ identification := List.mem_append_left [(0x2C, 2, Config.vendorId), (0x2E, 2, Config.deviceId)] hr
  have hfits : r.2.2 % 256 ^ r.2.1 = r.2.2 := by
    have hall : ∀ r ∈ [(0x00, 2, 0x1F2C), (0x02, 2, 0x4016), (0x08, 1, 0x01), (0x09, 3, 0x120000)], r.2.2 % 256 ^ r.2.1 = r.2.2 := by decide
    exact hall r hr
  rw [exec_hostDramRead_config h, ha, hb, configRead_identification hmem, hfits]

/-- Settles O54: a write or a read goes to the region of its offset and there to one register, whose bytes no other register shares; the writes of
one peer begin in the order in which they come. -/
theorem hostRegisters : Obligations.HostRegisters := by
  unfold Obligations.HostRegisters
  refine ⟨⟨fun _ hw => registers_ignored_wiping hw, fun _ h => registerWrite_readOnly h, ?writes, ?doorbells, ?peerQueues,
    fun _ h hm => peerLaunchWrite_waits h hm, peerMay_iff,
    fun _ hc h => ⟨fun hr => haloWrite_refused hc h hr, fun _ _ hslot hv hh hva hk hd htlb => haloWrite_permitted hc h hslot hv hh hva hk hd htlb⟩,
    fun _ _ _ hc hd hx h => haloWrite_ends hc hd hx h, exec_linkTraining,
    fun s => ⟨linkUp_port, fun h => by rw [exec_linkUp, linkChanged, if_pos h]⟩⟩, ?reads⟩
  case writes =>
    intro s hw
    refine ⟨fun hb hc => ?_, fun hb hc => ?_, fun q hq _ => ⟨fun hb hc => ?_, fun hb hc hv => registerWrite_tail hw hq hb hc hv, fun hb hc => ?_,
      fun hb hc => ?_, fun o ho hb => ?_⟩, fun o ho hb => registerWrite_msix hw ho hb, fun p hp hb hc => ?_⟩
    · rw [exec_registerWrite, hb, hc, bar0Write_module hw (by omega), moduleRegs_tlbVa]
    · rw [exec_registerWrite, hb, hc, bar0Write_module hw (by omega), moduleRegs_tlbDies]
    · exact ⟨_, registerWrite_queue hw hq (by omega) hb, by rw [hc, launchQ_queueRegs_ctl]⟩
    · rw [registerWrite_queue hw hq (by omega) hb, hc, queueRegs_head]
    · exact ⟨_, registerWrite_queue hw hq (by omega) hb, by rw [hc, launchQ_queueRegs_ovf]⟩
    · exact ⟨_, registerWrite_queue hw hq (by omega) hb, launchQ_queueRegs_slots _ _ _ ho⟩
    · exact ⟨_, by rw [exec_registerWrite, hb, hc, bar0Write_port hw hp (by omega)], portAt_portRegs_qpBase _ _ _⟩
  case doorbells =>
    exact fun s hw => ⟨qpDoorbell_within hw, cqDoorbell_within hw, qpDoorbell_beyond hw, cqDoorbell_beyond hw⟩
  case peerQueues =>
    intro s q o h
    rw [exec_peerLaunchWrite_first h]
    refine ⟨fun hw => ⟨_, rfl, ?_⟩, fun hw hm ho => ⟨_, rfl, ?_⟩, fun hw hm ho hv => ⟨_, rfl, ?_⟩, fun hw hr => ⟨_, rfl, ?_⟩⟩
    · rw [peerQueueWrite_wiping (s := (freshId s).2) hw]; rfl
    · rw [peerQueueWrite_slots (s := (freshId s).2) hw hm ho]
      exact ⟨rfl, launchQ_queueRegs_slots q _ (freshId s).2 ho⟩
    · rw [peerQueueWrite_tail (s := (freshId s).2) hw hm ho]
      exact ⟨rfl, tailTaken_tailWrite (s := (freshId s).2) _ _ hw hv⟩
    · rw [peerQueueWrite_refused (s := (freshId s).2) hw hr]; rfl
  case reads =>
    exact fun s => ⟨fun h => ⟨read_moduleRegister h, fun _ ho ha => read_msix h ho ha,
      fun _ hq => ⟨fun _ ho ha => read_queueSlots h hq ho ha, read_queueRegister h hq⟩, fun _ hp => read_portRegister h hp,
      fun _ _ hi ho ha => read_barista h hi ho ha⟩, read_identification⟩

end Sys2Proof.Machine
end

section
/-!
SUPPORT. Scalar forms: the operation that each row of the tables of register, constant, 16-bit and one-operand forms runs, and the effect of that
operation where its field checks pass.
-/

namespace Sys2Proof.Machine

open Sys2Proof.Claims

/-! Effects. -/

/-- A local instruction that only writes a register completes with the register written. -/
theorem completes_wrR {i : Instr} {s : State} {use : GangUse} {len t d v : Nat} {op : Local} (hi : exec i s = runLocal use len op s) (hs : Solo s)
    (hf : ∃ rd wr cost, op (self s) (insPc (self s)) = eff (wrR (self s) t d v) rd wr cost) :
    Completes i s (wrR (self s) t d v).lm [spanR (self s) t d] (pcAfter (self s) len) :=
  completes_of_runAt hi hs (wrR_eq _ _ _ _) hf (same_wrR _ _ _ _)

theorem completes_wrW {i : Instr} {s : State} {use : GangUse} {len d v : Nat} {op : Local} (hi : exec i s = runLocal use len op s) (hs : Solo s)
    (hf : ∃ rd wr cost, op (self s) (insPc (self s)) = eff (wrW (self s) d v) rd wr cost) :
    Completes i s (wrW (self s) d v).lm [spanW (self s) d] (pcAfter (self s) len) :=
  completes_wrR (t := 0) hi hs hf

/-- A legal type with legal pairs passes the field checks. -/
theorem typeCheck_none {t : Nat} {regs : List Nat} (h : PairsOk t regs) : typeCheck t regs = none := by
  obtain ⟨ht, hregs⟩ := h
  unfold typeCheck
  rw [if_neg (by omega), if_neg]
  rintro ⟨h1, hany⟩
  obtain ⟨r, hr, h8⟩ := List.any_eq_true.1 hany
  exact absurd (hregs h1 r hr) (Nat.not_lt.2 (of_decide_eq_true h8))

theorem regOp_legal (f : Nat → Nat → Nat → Nat) (cost : Nat × Nat) {t b a d : Nat} (h : PairsOk t [b, a, d]) (c : Core) (pc : Nat) :
    regOp f cost t b a d c pc =
      eff (wrR c t d (f (width t) (rdR c t a) (rdR c t b))) [rowR c t a, rowR c t b] (rowsR c t d) (if t = 0 then cost.1 else cost.2) := by
  rw [regOp, typeCheck_none h]

theorem regOp1_legal (f : Nat → Nat → Nat) {t a d : Nat} (h : PairsOk t [a, d]) (c : Core) (pc : Nat) :
    regOp1 f t a d c pc = eff (wrR c t d (f (width t) (rdR c t a))) [rowR c t a] (rowsR c t d) 1 := by
  rw [regOp1, typeCheck_none h]

theorem conOp_legal (f : Nat → Nat → Nat → Nat) (cost : Nat × Nat) {t k a d : Nat} (h : PairsOk t [a, d]) (hk : t = 1 → k % 2 = 0) (c : Core)
    (pc : Nat) :
    conOp f cost t k a d c pc =
      eff (wrR c t d (f (width t) (rdR c t a) (rdK c t k))) [rowR c t a, rowK k] (rowsR c t d) (if t = 0 then cost.1 else cost.2) := by
  rw [conOp, typeCheck_none h]
  exact if_neg (by omega)

theorem ldkOp_legal {t k d : Nat} (h : PairsOk t [d]) (hk : t = 1 → k % 2 = 0) (c : Core) (pc : Nat) :
    ldkOp t k d c pc = eff (wrR c t d (rdK c t k)) [rowK k] (rowsR c t d) 1 := by
  rw [ldkOp, typeCheck_none h]
  exact if_neg (by omega)

theorem selOp_legal {m t b a d : Nat} (h : PairsOk t [b, a, d]) (c : Core) (pc : Nat) :
    selOp m t b a d c pc =
      eff (wrR c t d (if rdW c m ≠ 0 then rdR c t a else rdR c t b)) [rowR c t a, rowR c t b, rowW c m] (rowsR c t d) 1 := by
  rw [selOp, typeCheck_none h]

theorem bextOp_legal {w p a d : Nat} (h : p + (w + 1) ≤ 32) (c : Core) (pc : Nat) :
    bextOp w p a d c pc = eff (wrW c d (fld (rdW c a) p (w + 1))) [rowW c a] (rowsW c d) 1 :=
  if_neg (by omega)

theorem binsOp_legal {w p a d : Nat} (h : p + (w + 1) ≤ 32) (c : Core) (pc : Nat) :
    binsOp w p a d c pc = eff (wrW c d (setFld (rdW c d) p (w + 1) (rdW c a))) [rowW c a, rowW c d] (rowsW c d) 1 :=
  if_neg (by omega)

/-! Tables. -/

/-- Each register form runs its function of Table 4.1 on two registers. -/
theorem exec_aluRows : ∀ p ∈ aluRows, ∃ cost, ∀ t b a d s, exec (p.1 t b a d) s = runLocal .members 4 (regOp p.2 cost t b a d) s := by
  repeat refine List.forall_mem_cons.2 ⟨⟨_, fun _ _ _ _ _ => rfl⟩, ?_⟩
  exact List.forall_mem_nil _

/-- Each constant form runs the function of the register form in its place, on a register and the constant window. -/
theorem exec_conRows : ∀ p ∈ conRows, ∃ cost, ∀ t k a d s, exec (p.1 t k a d) s = runLocal .members 4 (conOp p.2 cost t k a d) s := by
  repeat refine List.forall_mem_cons.2 ⟨⟨_, fun _ _ _ _ _ => rfl⟩, ?_⟩
  exact List.forall_mem_nil _

/-- A 16-bit form runs an operation whose effect is its function of wd and wa, in wd (R94). -/
def RunsShort (p : ShortRow) : Prop :=
  ∀ a d, ∃ op, (∀ s, exec (p.1 a d) s = runLocal .members 2 op s) ∧ ∀ c pc, ∃ rd wr cost, op c pc = eff (wrW c d (p.2 (rdW c d) (rdW c a))) rd wr cost

/-- A 16-bit form of a register operation is that operation on 32 bits. -/
theorem runsShort_of_regOp {p : ShortRow} {f : Nat → Nat → Nat → Nat} {cost : Nat × Nat}
    (h : ∀ a d s, exec (p.1 a d) s = runLocal .members 2 (regOp f cost 0 a d d) s) (hf : f 32 = p.2) : RunsShort p :=
  fun a d => ⟨regOp f cost 0 a d d, h a d, fun _ _ => ⟨_, _, _, by rw [← hf]; rfl⟩⟩

theorem runsShort_mov16 : RunsShort (.mov16, fun _ y => y) := fun a d => ⟨movOp a d, fun _ => rfl, fun _ _ => ⟨_, _, _, rfl⟩⟩

/-- All 16-bit forms but the ninth, mov, are forms of register operations. -/
theorem runsShort_shortRows : ∀ p ∈ shortRows, RunsShort p := by
  iterate 8 refine List.forall_mem_cons.2 ⟨runsShort_of_regOp (fun _ _ _ => rfl) rfl, ?_⟩
  refine List.forall_mem_cons.2 ⟨runsShort_mov16, ?_⟩
  iterate 7 refine List.forall_mem_cons.2 ⟨runsShort_of_regOp (fun _ _ _ => rfl) rfl, ?_⟩
  exact List.forall_mem_nil _

/-- Settles O1: every form runs its function as a register operation, whose effect is the destination written. -/
theorem registerOperations : Obligations.RegisterOperations := by
  unfold Obligations.RegisterOperations
  refine ⟨fun p hp t b a d s hs hpairs => ?_, fun p hp a d s hs => ?_⟩
  · obtain ⟨cost, hexec⟩ := exec_aluRows p hp
    exact completes_wrR (hexec t b a d s) hs ⟨_, _, _, regOp_legal p.2 cost hpairs _ _⟩
  · obtain ⟨op, hexec, heff⟩ := runsShort_shortRows p hp a d
    exact completes_wrW (hexec s) hs (heff _ _)

/-- Settles O2: a constant form is a register form whose second operand is read from the constant window, which an even pair passes. -/
theorem constantOperations : Obligations.ConstantOperations := by
  unfold Obligations.ConstantOperations
  refine ⟨fun p hp t k a d s hs hpairs hk => ?_, fun t k d s hs hpairs hk => ?_, fun k d s hs => ?_⟩
  · obtain ⟨cost, hexec⟩ := exec_conRows p hp
    exact completes_wrR (hexec t k a d s) hs ⟨_, _, _, conOp_legal p.2 cost hpairs hk _ _⟩
  · exact completes_wrR (op := ldkOp t k d) rfl hs ⟨_, _, _, ldkOp_legal hpairs hk _ _⟩
  · exact completes_wrW (op := ldkOp 0 k d) rfl hs ⟨_, _, _, rfl⟩

end Sys2Proof.Machine
end

section
/-!
SUPPORT. Unary and immediate forms: the model's counts of bits and its byte reversal by those of the tables, sign extension by signed values.
-/

namespace Sys2Proof.Machine

open Sys2Proof.Claims

theorem aluClz_eq (n a : Nat) : aluClz n a = if a = 0 then n else n - 1 - Nat.log2 a := by
  unfold aluClz bitLen
  split <;> omega

theorem aluCtz_eq (n a : Nat) : aluCtz n a = ((List.range n).find? fun i => a.testBit i).getD n := by
  simp only [aluCtz, lowBit, upTo, bit_eq_testBit]

/-- A sum of bits counts the places where one is set. -/
theorem foldl_bits (a : Nat) (l : List Nat) (k : Nat) : l.foldl (fun k i => k + a / 2 ^ i % 2) k = k + (l.filter fun i => a.testBit i).length := by
  induction l generalizing k with
  | nil => rfl
  | cons i l ih =>
    have hbit : a.testBit i = true ↔ a / 2 ^ i % 2 = 1 := by rw [← bit_eq_testBit, bit_iff]
    rw [List.foldl_cons, ih, List.filter_cons]
    split
    case isTrue h => rw [hbit.1 h, List.length_cons]; omega
    case isFalse h =>
      have hzero : a / 2 ^ i % 2 = 0 := Nat.mod_two_ne_one.1 (mt hbit.2 h)
      rw [hzero, Nat.add_zero]

theorem aluPopc_eq (n a : Nat) : aluPopc n a = ((List.range n).filter fun i => a.testBit i).length := by
  rw [aluPopc, popCount, upTo, foldl_bits, Nat.zero_add]

theorem aluBswap_eq (n a : Nat) : aluBswap n a = (List.range (n / 8)).foldl (fun v i => v * 256 + a / 256 ^ i % 256) 0 := by
  have hbyte (i : Nat) : fld a (8 * i) 8 = a / 256 ^ i % 256 := congrArg (fun q => a / q % 256) (Nat.pow_mul 2 8 i)
  simp only [aluBswap, upTo, hbyte]

/-- The functions of the table are the model's. -/
theorem unaryRows_eq : unaryRows = [(.clz, aluClz), (.ctz, aluCtz), (.popc, aluPopc), (.bswap, aluBswap)] := by
  have as_function {f g : Nat → Nat → Nat} (h : ∀ n a, f n a = g n a) : f = g := funext fun n => funext (h n)
  rw [as_function aluClz_eq, as_function aluCtz_eq, as_function aluPopc_eq, as_function aluBswap_eq]
  rfl

/-- Each one-operand form runs its function on one register. -/
theorem exec_unaryRows : ∀ p ∈ unaryRows, ∀ t a d s, exec (p.1 t a d) s = runLocal .members 4 (regOp1 p.2 t a d) s := by
  rw [unaryRows_eq]
  repeat refine List.forall_mem_cons.2 ⟨fun _ _ _ _ => rfl, ?_⟩
  exact List.forall_mem_nil _

theorem pat_natCast (n v : Nat) : pat n v = v % 2 ^ n := by
  unfold pat
  norm_cast

/-- Adding the signed value of a field is adding its sign extension, modulo 2^m (R89). -/
theorem pat_add_sgn (x : Nat) {n m v : Nat} (hm : n ≤ m) (hv : v < 2 ^ n) : pat m ((x : Int) + sgn n v) = (x + sext n m v) % 2 ^ m := by
  have hpow : 2 ^ n ≤ 2 ^ m := Nat.pow_le_pow_right (by omega) hm
  unfold sext sgn
  rw [Nat.mod_eq_of_lt hv]
  split
  case isTrue => rw [← pat_natCast, Int.natCast_add]
  case isFalse =>
    have hwrap : (x : Int) + (v - 2 ^ n) = ((x + (v + (2 ^ m - 2 ^ n)) : Nat) : Int) - 2 ^ m := by
      have hcast (k : Nat) : (2 : Int) ^ k = ((2 ^ k : Nat) : Int) := (Int.natCast_pow 2 k).symm
      rw [hcast n, hcast m]
      omega
    rw [← pat_natCast, hwrap, pat, pat, Int.sub_emod_right]

/-- Sign extension to m bits is the m-bit pattern of the signed value (R89). -/
theorem pat_sgn {n m v : Nat} (hm : n ≤ m) (hv : v < 2 ^ n) : pat m (sgn n v) = sext n m v := by
  have hpow : 2 ^ n ≤ 2 ^ m := Nat.pow_le_pow_right (by omega) hm
  have hlt : sext n m v < 2 ^ m := by
    unfold sext
    rw [Nat.mod_eq_of_lt hv]
    split <;> omega
  have hadd : pat m (0 + sgn n v) = (0 + sext n m v) % 2 ^ m := pat_add_sgn 0 hm hv
  rwa [Int.zero_add, Nat.zero_add, Nat.mod_eq_of_lt hlt] at hadd

theorem addImmOp_eff {n ix : Nat} (hn : n ≤ 32) (hix : ix < 2 ^ n) (a d : Nat) (c : Core) (pc : Nat) :
    addImmOp n ix a d c pc = eff (wrW c d (pat 32 ((rdW c a : Int) + sgn n ix))) [rowW c a] (rowsW c d) 1 := by
  rw [pat_add_sgn _ hn hix]
  rfl

theorem lihOp_eff {ix : Nat} (hix : ix < 2 ^ 17) (d : Nat) (c : Core) (pc : Nat) :
    lihOp ix d c pc = eff (wrW c d (ix * 2 ^ 15)) [] (rowsW c d) 1 := by
  rw [lihOp, Nat.mod_eq_of_lt (by omega)]

/-- Settles O3: each form writes its destination with the value of the model's function, which is that of its rule. -/
theorem unaryAndImmediateOperations : Obligations.UnaryAndImmediateOperations := by
  unfold Obligations.UnaryAndImmediateOperations
  refine ⟨fun p hp t a d s hs hpairs => ?unary, fun c t b a d s hs hpairs => ?sel, fun ix a d s hs hix => ?add, fun ix d s hs hix => ?add16,
    fun ix d s hs hix => ?lih, fun w p a d s hs hw => ?bext, fun w p a d s hs hw => ?bins⟩
  case unary => exact completes_wrR (exec_unaryRows p hp t a d s) hs ⟨_, _, _, regOp1_legal p.2 hpairs _ _⟩
  case sel => exact completes_wrR (op := selOp c t b a d) rfl hs ⟨_, _, _, selOp_legal hpairs _ _⟩
  case add => exact completes_wrW (op := addImmOp 17 ix a d) rfl hs ⟨_, _, _, addImmOp_eff (by omega) hix _ _ _ _⟩
  case add16 => exact completes_wrW (op := addImmOp 8 ix d d) rfl hs ⟨_, _, _, addImmOp_eff (by omega) hix _ _ _ _⟩
  case lih => exact completes_wrW (op := lihOp ix d) rfl hs ⟨_, _, _, lihOp_eff hix _ _ _⟩
  case bext => exact completes_wrW (op := bextOp w p a d) rfl hs ⟨_, _, _, bextOp_legal hw _ _⟩
  case bins => exact completes_wrW (op := binsOp w p a d) rfl hs ⟨_, _, _, binsOp_legal hw _ _⟩

end Sys2Proof.Machine
end

section
/-!
SUPPORT. Local accesses: the addresses that pass the region tests, the size codes that pass the field checks, and how a load or a store completes.
-/

namespace Sys2Proof.Machine

open Sys2Proof.Claims

/-! Checks. -/

/-- No protected word of slot i lies within the bytes of an access (R30). -/
theorem hitsProtected_eq_false (c : Core) (i ea n : Nat) : hitsProtected c i ea n = false ↔
    ∀ o ∈ [0x50, 0x54, 0x304, 0x328], ea + n ≤ slotBase c i + o ∨ slotBase c i + o + 4 ≤ ea := by
  have hoffsets : [offStatus, offPcSave, offFloor, offCeil] = [0x50, 0x54, 0x304, 0x328] := rfl
  rw [hitsProtected, hoffsets, List.any_eq_false]
  refine forall₂_congr fun o _ => ?_
  simp only [Bool.and_eq_true, decide_eq_true_eq]
  omega

theorem localTrap_load {c : Core} {ea n : Nat} (h : Reachable c ea n) : localTrap c ea n false = none := by
  obtain ⟨halign, hregion⟩ := h
  rw [localTrap, if_neg fun h => h halign, regionTrap]
  split at hregion
  case isTrue hbar => rw [if_pos hbar, if_neg (by omega), if_neg (by simp)]
  case isFalse hbar => rw [if_neg hbar, if_neg (by omega), if_neg (by simp), if_neg (by omega), if_neg (by simp)]

theorem localTrap_store {c : Core} {ea n : Nat} (h : Storable c ea n) : localTrap c ea n true = none := by
  obtain ⟨⟨halign, hregion⟩, hwindow, hwords⟩ := h
  have hclear : ∀ i, i < (if c.bar then 1 else slotCount c) → hitsProtected c i ea n = false :=
    fun i hi => (hitsProtected_eq_false c i ea n).2 (hwords i hi)
  rw [localTrap, if_neg fun h => h halign, regionTrap]
  split at hregion
  case isTrue hbar =>
    rw [if_pos hbar] at hclear
    rw [if_pos hbar, if_neg (by omega), hclear 0 (by omega), if_neg (by simp)]
  case isFalse hbar =>
    rw [if_neg hbar] at hclear
    have hnone : (upTo (slotCount c)).any (fun i => hitsProtected c i ea n) = false :=
      List.any_eq_false.2 fun i hi => Bool.not_eq_true _ ▸ hclear i (List.mem_range.1 hi)
    have hlow := hwindow (Bool.not_eq_true _ ▸ hbar)
    rw [if_neg hbar, if_neg (by omega), if_neg (by omega), if_neg (by omega), hnone, if_neg (by simp)]

theorem localKind_load {sx z d : Nat} (h : LoadKind sx z d) : localKind false sx z d = none := by
  rw [localKind, if_neg (by omega), if_neg (by simp only [Bool.false_eq_true, false_or]; omega), if_neg (by omega)]

theorem localKind_store {sx z d : Nat} (h : StoreKind sx z d) : localKind true sx z d = none := by
  rw [localKind, if_neg (by omega), if_neg (by omega), if_neg (by omega)]

/-- A value of n bytes is loaded as Table 4.8 says. -/
theorem extendLoad_eq_loaded {sx n v : Nat} (hn : sx = 1 → 8 * n ≤ 32) (hv : v < 256 ^ n) : extendLoad sx n v = loaded sx n v := by
  unfold extendLoad loaded
  split
  case isTrue h => exact (pat_sgn (hn h) (by rwa [Nat.pow_mul])).symm
  case isFalse => rfl

/-! Effects. -/

theorem loadAt_reachable {c : Core} {ea n : Nat} (h : Reachable c ea n) {sx : Nat} (hsx : sx = 1 → 8 * n ≤ 32) (t a d pc : Nat) :
    loadAt ea n sx t a d c pc = eff (wrR c t d (loaded sx n (Memory.read c.lm ea n))) [rowW c a, rowAt ea] (rowsR c t d) 1 := by
  rw [← extendLoad_eq_loaded hsx (Memory.read_lt _ _ _), loadAt, localTrap_load h]
  rfl

theorem storeAt_storable {c : Core} {ea n : Nat} (h : Storable c ea n) (t a d pc : Nat) :
    storeAt ea n t a d c pc = eff (lmWrite c ea n (rdR c t d)) [rowW c a, rowR c t d] [rowAt ea] 1 := by
  rw [storeAt, localTrap_store h]

/-- An access that changes local memory alone completes, and orders the loads behind it. -/
theorem accesses_of_ordering {i : Instr} {s : State} {use : GangUse} {len : Nat} {op : Local} (hi : exec i s = runLocal use len (ordering op) s)
    (hs : Solo s) {x : Core} (hx : x = { self s with lm := x.lm }) (hf : ∃ rd wr cost, op (self s) (insPc (self s)) = eff x rd wr cost)
    {l : List (Nat × Nat)} (hl : SameOutside l (self s).lm x.lm) : Accesses i s x.lm l (pcAfter (self s) len) := by
  refine ⟨hl, ?_⟩
  obtain ⟨rd, wr, cost, hf⟩ := hf
  have hord : ordering op (self s) (insPc (self s)) = .ok { core := l1Order x, rd := rd, wr := wr, cost := cost } := by
    rw [ordering, hf]; rfl
  have h := completesAs_of_runAt hi hs hord rfl rfl
  dsimp only at h
  rwa [hx] at h

theorem accesses_loadAt {i : Instr} {s : State} {len ea n sx t a d : Nat} {op : Local} (hi : exec i s = runLocal .members len (ordering op) s)
    (hs : Solo s) (hop : op (self s) (insPc (self s)) = loadAt ea n sx t a d (self s) (insPc (self s))) (hsx : sx = 1 → 8 * n ≤ 32)
    (h : Reachable (self s) ea n) :
    Accesses i s (wrR (self s) t d (loaded sx n (Memory.read (self s).lm ea n))).lm [spanR (self s) t d] (pcAfter (self s) len) :=
  accesses_of_ordering hi hs (wrR_eq _ _ _ _) ⟨_, _, _, hop.trans (loadAt_reachable h hsx _ _ _ _)⟩ (same_wrR _ _ _ _)

theorem accesses_storeAt {i : Instr} {s : State} {len ea n t a d : Nat} {op : Local} (hi : exec i s = runLocal .members len (ordering op) s)
    (hs : Solo s) (hop : op (self s) (insPc (self s)) = storeAt ea n t a d (self s) (insPc (self s))) (h : Storable (self s) ea n) :
    Accesses i s (Memory.write (self s).lm ea n (rdR (self s) t d)) [(ea, n)] (pcAfter (self s) len) :=
  accesses_of_ordering (x := lmWrite (self s) ea n (rdR (self s) t d)) hi hs rfl ⟨_, _, _, hop.trans (storeAt_storable h _ _ _ _)⟩
    (sameOutside_write _ _ _ _)

/-- Settles O6: a permitted access passes its checks, and loads into its register or stores its register's low bytes. -/
theorem localAccesses : Obligations.LocalAccesses := by
  unfold Obligations.LocalAccesses
  refine ⟨⟨fun o sx z a d s hs hkind h => ?ld, fun o a d s hs h => ?ld16⟩, fun o sx z a d s hs hkind h => ?st, fun o a d s hs h => ?st16⟩
  case ld =>
    have hsx : sx = 1 → 8 * 2 ^ z ≤ 32 := by
      intro hsigned
      have hz : z ≤ 1 := by omega
      have := Nat.pow_le_pow_right (n := 2) (by omega) hz
      omega
    exact accesses_loadAt (op := ldOp o sx z a d) rfl hs (by rw [ldOp, localKind_load hkind]; rfl) hsx h
  case ld16 =>
    exact accesses_loadAt (op := ld16Op o a d) (ea := (rdW (self s) a + 4 * o) % 2 ^ 32) (n := 4) (sx := 0) (t := 0) rfl hs rfl (by omega) h
  case st => exact accesses_storeAt (op := stOp o sx z a d) rfl hs (by rw [stOp, localKind_store hkind]; rfl) h
  case st16 => exact accesses_storeAt (op := st16Op o a d) (t := 0) rfl hs rfl h

end Sys2Proof.Machine
end

section
/-!
SUPPORT. Special registers: which names and widths ctl.get knows, and what it reads.
-/

namespace Sys2Proof.Machine

open Sys2Proof.Claims

/-- The registers of each width are those of Table 3.18. -/
theorem srListed_iff {w : Nat} (hw : w ≤ 1) (n : Nat) : srListed w n = true ↔ (w, n) ∈ srNames := by
  rcases Nat.le_one_iff_eq_zero_or_eq_one.1 hw with rfl | rfl
  · simp [srListed, srNames]
  · simp [srListed, srNames]

/-- The values of the model are those of the tables; FEAT1 alone depends on the kind of core (R331). -/
theorem srValue_eq_srHolds {s : State} (hbar : (self s).bar = false) : ∀ p ∈ srNames, srValue s s.cur (self s) p.2 = srHolds s p.2 := by
  have hfeat1 : srValue s s.cur (self s) 0x29 = srHolds s 0x29 := by
    show 0x01 + b2n (self s).bar * 2 ^ 8 = 1
    rw [hbar]
    rfl
  repeat refine List.forall_mem_cons.2 ⟨rfl, ?_⟩
  refine List.forall_mem_cons.2 ⟨hfeat1, ?_⟩
  repeat refine List.forall_mem_cons.2 ⟨rfl, ?_⟩
  exact List.forall_mem_nil _

theorem srRead_core (s : State) (k : Nat) {c : Core} (hbar : c.bar = false) (n : Nat) : srRead s k c n = srValue s k c n := by
  rw [srRead, hbar]
  rfl

theorem ctlGetOp_listed {s : State} {w n d : Nat} (hw : w ≤ 1) (h : (w, n) ∈ srNames) (hd : w = 1 → d < 8) (k : Nat) (c : Core) (pc : Nat) :
    ctlGetOp s w n d k c pc = eff (wrR c w d (srRead s k c n)) (srRows c n) (rowsR c w d) 1 := by
  rw [ctlGetOp, if_neg (by omega), (srListed_iff hw n).2 h]
  rfl

theorem ctlGetOp_unlisted {s : State} {w n d : Nat} (hw : w ≤ 1) (h : (w, n) ∉ srNames) (hd : w = 1 → d < 8) (k : Nat) (c : Core) (pc : Nat) :
    ctlGetOp s w n d k c pc = .error (illeg 4) := by
  rw [ctlGetOp, if_neg (by omega), Bool.eq_false_iff.2 (mt (srListed_iff hw n).1 h)]
  rfl

theorem srNames_width : ∀ p ∈ srNames, p.1 ≤ 1 := by decide

/-- Settles O9: a register of Table 3.18 passes the checks of ctl.get and is read; any other name or width is a bad operand. -/
theorem specialRegistersRead : Obligations.SpecialRegistersRead := by
  unfold Obligations.SpecialRegistersRead
  refine ⟨fun p hp d s hs hbar hd => ?listed, fun w n d s hs hw hn hd => ?unlisted⟩
  case listed =>
    rw [← srValue_eq_srHolds hbar p hp, ← srRead_core _ _ hbar]
    exact completes_of_runAt rfl hs (wrR_eq _ _ _ _) ⟨_, _, _, ctlGetOp_listed (srNames_width p hp) hp hd _ _ _⟩ (same_wrR _ _ _ _)
  case unlisted => exact traps_of_runAt rfl hs (ctlGetOp_unlisted hw hn hd _ _ _)

end Sys2Proof.Machine
end

section
/-!
SUPPORT. Keys: the bits of a sum of distinct powers of two, of an axis and of a key; the order of keys against the order of their axes (R144).
-/

namespace Sys2Proof.Machine

/-! Sums of distinct powers of two. -/

/-- A clear bit is set. -/
theorem testBit_add_two_pow {v p : Nat} (h : v.testBit p = false) (m : Nat) : (v + 2 ^ p).testBit m = (v.testBit m || decide (m = p)) := by
  have hset : (v + 2 ^ p).testBit p = true := by rw [Nat.add_comm, Nat.testBit_two_pow_add_eq, h]; rfl
  have hsub := testBit_sub_two_pow hset m
  rw [Nat.add_sub_cancel] at hsub
  rw [hsub]
  by_cases hm : m = p
  · simp [hm, hset]
  · simp [hm]

/-- The bits of a number to which powers of two at distinct clear places are added, each under a condition. -/
theorem testBit_foldl_add {ι : Type} (g : ι → Prop) [DecidablePred g] (p : ι → Nat) (l : List ι) (v : Nat) (hd : (l.map p).Nodup)
    (hv : ∀ x ∈ l, v.testBit (p x) = false) (m : Nat) :
    (l.foldl (fun v x => v + if g x then 2 ^ p x else 0) v).testBit m = true ↔ v.testBit m = true ∨ ∃ x ∈ l, g x ∧ p x = m := by
  induction l generalizing v with
  | nil => simp
  | cons x l ih =>
    obtain ⟨hx, hd⟩ := List.nodup_cons.1 hd
    have hbit (m : Nat) : (v + if g x then 2 ^ p x else 0).testBit m = (v.testBit m || (decide (g x) && decide (m = p x))) := by
      split
      case isTrue hg => rw [testBit_add_two_pow (hv x (.head _)), decide_eq_true hg, Bool.true_and]
      case isFalse hg => rw [decide_eq_false hg, Bool.false_and, Bool.or_false, Nat.add_zero]
    have hv' : ∀ y ∈ l, (v + if g x then 2 ^ p x else 0).testBit (p y) = false := by
      intro y hy
      have hne : p y ≠ p x := fun e => hx (e ▸ List.mem_map_of_mem hy)
      rw [hbit, hv y (.tail _ hy), decide_eq_false hne, Bool.and_false, Bool.or_false]
    rw [List.foldl_cons, ih _ hd hv', hbit]
    simp only [Bool.or_eq_true, Bool.and_eq_true, decide_eq_true_eq, List.mem_cons, or_and_right, exists_or, exists_eq_left, or_assoc, eq_comm (a := m)]

/-- A mask of those of n axes for which a condition holds. -/
theorem testBit_foldl_mask (g : Nat → Prop) [DecidablePred g] (n i : Nat) :
    ((upTo n).foldl (fun m i => m + if g i then 2 ^ i else 0) 0).testBit i = true ↔ i < n ∧ g i := by
  have hd : ((upTo n).map fun i => i).Nodup := by rw [List.map_id']; exact List.nodup_range
  refine (testBit_foldl_add g (fun i => i) _ 0 hd (fun _ _ => Nat.zero_testBit _) i).trans ?_
  simp [upTo]

/-- A number whose set bits all lie below n. -/
theorem lt_two_pow_of_bits {v n : Nat} (h : ∀ i, v.testBit i = true → i < n) : v < 2 ^ n :=
  Nat.lt_pow_two_of_testBit v fun i hi => Bool.eq_false_iff.2 fun hb => absurd (h i hb) (by omega)

theorem foldl_mask_lt (g : Nat → Prop) [DecidablePred g] (n : Nat) :
    (upTo n).foldl (fun m i => m + if g i then 2 ^ i else 0) 0 < 2 ^ n :=
  lt_two_pow_of_bits fun i hi => ((testBit_foldl_mask g n i).1 hi).1

/-- A number whose set bits are all set in another is at most that other. -/
theorem le_of_bits {x y : Nat} (h : ∀ m, x.testBit m = true → y.testBit m = true) : x ≤ y := by
  have hor : x ||| y = y := Nat.eq_of_testBit_eq fun m => by
    rw [Nat.testBit_or]
    cases hx : x.testBit m
    · rfl
    · rw [h m hx]; rfl
  exact hor ▸ Nat.left_le_or

/-! Axes and keys (R143). -/

/-- A bit of a number, at another place. -/
theorem fld_one_mul (k p j : Nat) : fld k p 1 * 2 ^ j = if k.testBit p = true then 2 ^ j else 0 := by
  rw [fld, Nat.pow_one, ← Nat.toNat_testBit]
  cases k.testBit p <;> simp

/-- Bit j of axis i is key bit j × d + i. -/
theorem testBit_ax (d k i j : Nat) : (ax d k i).testBit j = true ↔ j < axisBits d ∧ k.testBit (j * d + i) = true := by
  simp only [ax, fld_one_mul]
  exact testBit_foldl_mask (fun j => k.testBit (j * d + i) = true) (axisBits d) j

theorem ax_lt (d k i : Nat) : ax d k i < 2 ^ axisBits d := lt_two_pow_of_bits fun j hj => ((testBit_ax d k i j).1 hj).1

/-- Key bits j × d + i of distinct axes i or bits j are distinct. -/
theorem keyBit_inj {d i j i' j' : Nat} (hi : i < d) (hi' : i' < d) (h : j * d + i = j' * d + i') : i = i' ∧ j = j' := by
  have hdiv (j i : Nat) (hi : i < d) : (j * d + i) / d = j := by
    rw [Nat.mul_comm, Nat.mul_add_div (by omega), Nat.div_eq_of_lt hi, Nat.add_zero]
  have hj : j = j' := by rw [← hdiv j i hi, h, hdiv j' i' hi']
  subst hj
  exact ⟨by omega, rfl⟩

/-- Every used key bit is a bit of an axis. -/
theorem keyBit_exists {d m : Nat} (h : m < d * axisBits d) : ∃ i j, i < d ∧ j < axisBits d ∧ j * d + i = m := by
  have hd : 0 < d := Nat.pos_of_ne_zero fun e => by simp [e] at h
  exact ⟨m % d, m / d, Nat.mod_lt _ hd, Nat.div_lt_of_lt_mul h, Nat.div_add_mod' m d⟩

theorem keyBit_lt {d i j : Nat} (hi : i < d) (hj : j < axisBits d) : j * d + i < d * axisBits d :=
  calc j * d + i < (j + 1) * d := by rw [Nat.add_mul, Nat.one_mul]; omega
    _ ≤ axisBits d * d := Nat.mul_le_mul_right d hj
    _ = d * axisBits d := Nat.mul_comm _ _

/-- Axis and bit of every used key bit, in the order in which a key is made of them. -/
def keyBits (d : Nat) : List (Nat × Nat) := (List.range d).flatMap fun i => (List.range (axisBits d)).map fun j => (i, j)

theorem mem_keyBits {d : Nat} (q : Nat × Nat) : q ∈ keyBits d ↔ q.1 < d ∧ q.2 < axisBits d := by
  simp only [keyBits, List.mem_flatMap, List.mem_map, List.mem_range]
  constructor
  · rintro ⟨i, hi, j, hj, rfl⟩
    exact ⟨hi, hj⟩
  · intro ⟨hi, hj⟩
    exact ⟨q.1, hi, q.2, hj, rfl⟩

theorem nodup_keyBits (d : Nat) : (keyBits d).Nodup := by
  refine List.pairwise_flatMap.2 ⟨fun i _ => ?_, List.nodup_range.imp fun hne => ?_⟩
  · exact List.pairwise_map.2 (List.nodup_range.imp fun hne h => hne (congrArg Prod.snd h))
  · intro q hq q' hq' h
    obtain ⟨_, -, rfl⟩ := List.mem_map.1 hq
    obtain ⟨_, -, rfl⟩ := List.mem_map.1 hq'
    exact hne (congrArg Prod.fst h)

/-- Their places are distinct. -/
theorem nodup_keyBits_places (d : Nat) : ((keyBits d).map fun q => q.2 * d + q.1).Nodup := by
  refine List.pairwise_map.2 ((nodup_keyBits d).imp_of_mem fun hq hq' hne h => hne ?_)
  obtain ⟨hi, hj⟩ := keyBit_inj ((mem_keyBits _).1 hq).1 ((mem_keyBits _).1 hq').1 h
  exact Prod.ext hi hj

theorem mkKey_eq_foldl (d : Nat) (c : Nat → Nat) :
    mkKey d c = (keyBits d).foldl (fun v q => v + if (c q.1).testBit q.2 = true then 2 ^ (q.2 * d + q.1) else 0) 0 := by
  simp only [mkKey, upTo, fld_one_mul, keyBits, List.foldl_flatMap, List.foldl_map]

/-- The bits of a key are the bits of its axes, each at its place. -/
theorem testBit_mkKey (d : Nat) (c : Nat → Nat) (m : Nat) :
    (mkKey d c).testBit m = true ↔ ∃ i j, i < d ∧ j < axisBits d ∧ (c i).testBit j = true ∧ j * d + i = m := by
  rw [mkKey_eq_foldl, testBit_foldl_add (fun q : Nat × Nat => (c q.1).testBit q.2 = true) (fun q => q.2 * d + q.1) _ 0 (nodup_keyBits_places d)
    fun _ _ => Nat.zero_testBit _]
  simp only [Nat.zero_testBit, Bool.false_eq_true, false_or, Prod.exists, mem_keyBits, and_assoc]

theorem mkKey_lt (d : Nat) (c : Nat → Nat) : mkKey d c < 2 ^ (d * axisBits d) := by
  refine lt_two_pow_of_bits fun m hm => ?_
  obtain ⟨i, j, hi, hj, -, rfl⟩ := (testBit_mkKey d c m).1 hm
  exact keyBit_lt hi hj

/-- An axis of a key is the coordinate it was made of, modulo the axis. -/
theorem ax_mkKey {d i : Nat} (c : Nat → Nat) (hi : i < d) : ax d (mkKey d c) i = c i % 2 ^ axisBits d := by
  refine Nat.eq_of_testBit_eq fun j => Bool.eq_iff_iff.2 ?_
  rw [testBit_ax, testBit_mkKey, Nat.testBit_mod_two_pow, Bool.and_eq_true, decide_eq_true_eq]
  refine and_congr_right fun hj => ⟨?_, fun h => ⟨i, j, hi, hj, h, rfl⟩⟩
  rintro ⟨i', j', hi', -, h, heq⟩
  obtain ⟨rfl, rfl⟩ := keyBit_inj hi' hi heq
  exact h

theorem ax_mkKey_of_lt {d i : Nat} {c : Nat → Nat} (hi : i < d) (hc : c i < 2 ^ axisBits d) : ax d (mkKey d c) i = c i := by
  rw [ax_mkKey c hi, Nat.mod_eq_of_lt hc]

/-- A key is made of its axes. -/
theorem mkKey_ax (d k : Nat) : mkKey d (ax d k) = k % 2 ^ (d * axisBits d) := by
  refine Nat.eq_of_testBit_eq fun m => Bool.eq_iff_iff.2 ?_
  rw [testBit_mkKey, Nat.testBit_mod_two_pow, Bool.and_eq_true, decide_eq_true_eq]
  constructor
  · rintro ⟨i, j, hi, hj, h, rfl⟩
    exact ⟨keyBit_lt hi hj, ((testBit_ax d k i j).1 h).2⟩
  · rintro ⟨hm, h⟩
    obtain ⟨i, j, hi, hj, rfl⟩ := keyBit_exists hm
    exact ⟨i, j, hi, hj, (testBit_ax d k i j).2 ⟨hj, h⟩, rfl⟩

/-- Settles O20: bit by bit, an axis is read at the places where a key is written. -/
theorem keyAxes : Obligations.KeyAxes := by
  unfold Obligations.KeyAxes
  refine fun d _ _ => ⟨fun k i j _ => ?_, fun f i hi => ax_mkKey f hi, mkKey_ax d⟩
  rw [Bool.eq_iff_iff, testBit_ax, Bool.and_eq_true, decide_eq_true_eq]
  rfl

/-! The order of keys (R144). -/

/-- Two numbers first differ, from above, at bit p, which is clear in the lower one. -/
def PartAt (p lo hi : Nat) : Prop := lo / 2 ^ p % 2 = 0 ∧ hi / 2 ^ p = lo / 2 ^ p + 1

theorem PartAt.lt {p lo hi : Nat} (h : PartAt p lo hi) : lo < hi := Nat.lt_of_div_lt_div (c := 2 ^ p) (by rw [h.2]; omega)

theorem partAt_succ {p lo hi : Nat} : PartAt (p + 1) lo hi ↔ PartAt p (lo / 2) (hi / 2) := by
  simp only [PartAt, Nat.pow_succ', Nat.div_div_eq_div_mul]

/-- Of two different numbers the lower one parts from the higher one at a bit. -/
theorem exists_partAt {lo hi : Nat} (h : lo < hi) : ∃ p, PartAt p lo hi := by
  induction hi using Nat.strongRecOn generalizing lo with
  | ind hi ih =>
    by_cases he : lo / 2 = hi / 2
    · exact ⟨0, by simp only [PartAt, Nat.pow_zero, Nat.div_one]; omega⟩
    · obtain ⟨p, hp⟩ := ih (hi / 2) (by omega) (lo := lo / 2) (by omega)
      exact ⟨p + 1, partAt_succ.2 hp⟩

theorem PartAt.bit_lt {p lo hi n : Nat} (h : PartAt p lo hi) (hn : hi < 2 ^ n) : p < n := by
  have hp : 2 ^ p ≤ hi := Nat.le_of_not_lt fun hlt => Nat.succ_ne_zero _ (h.2.symm.trans (Nat.div_eq_of_lt hlt))
  exact (Nat.pow_lt_pow_iff_right (by omega)).1 (Nat.lt_of_le_of_lt hp hn)

/-- The bits of two numbers from the bit on at which they part. -/
theorem PartAt.bits {p lo hi : Nat} (h : PartAt p lo hi) :
    lo.testBit p = false ∧ hi.testBit p = true ∧ ∀ m, p < m → lo.testBit m = hi.testBit m := by
  obtain ⟨hlo, hhi⟩ := h
  have hbit (v : Nat) : v.testBit p = decide (v / 2 ^ p % 2 = 1) := Nat.testBit_eq_decide_div_mod_eq
  refine ⟨by rw [hbit, decide_eq_false (by omega)], by rw [hbit, decide_eq_true (by omega)], fun m hm => ?_⟩
  obtain ⟨q, rfl⟩ : ∃ q, m = q + 1 + p := ⟨m - p - 1, by omega⟩
  rw [← Nat.testBit_div_two_pow lo (q + 1), ← Nat.testBit_div_two_pow hi (q + 1), Nat.testBit_succ, Nat.testBit_succ, hhi,
    show (lo / 2 ^ p + 1) / 2 = lo / 2 ^ p / 2 by omega]

/-- Two numbers that agree above a bit, which only one has set, part at that bit. -/
theorem partAt_of_bits {p lo hi : Nat} (hlo : lo.testBit p = false) (hhi : hi.testBit p = true) (h : ∀ m, p < m → lo.testBit m = hi.testBit m) :
    PartAt p lo hi := by
  have hbit (v : Nat) : v.testBit p = decide (v / 2 ^ p % 2 = 1) := Nat.testBit_eq_decide_div_mod_eq
  have hclear : ¬ lo / 2 ^ p % 2 = 1 := of_decide_eq_false ((hbit lo).symm.trans hlo)
  have hset : hi / 2 ^ p % 2 = 1 := of_decide_eq_true ((hbit hi).symm.trans hhi)
  have hupper : lo / 2 ^ p / 2 = hi / 2 ^ p / 2 := Nat.eq_of_testBit_eq fun m => by
    rw [← Nat.testBit_succ, ← Nat.testBit_succ, Nat.testBit_div_two_pow, Nat.testBit_div_two_pow]
    exact h _ (by omega)
  unfold PartAt
  omega

/-- The higher of two keys is above the lower one on the axis of the bit at which they part. -/
theorem exists_ax_lt {d lo hi : Nat} (hhi : hi < 2 ^ (d * axisBits d)) (h : lo < hi) : ∃ i, i < d ∧ ax d lo i < ax d hi i := by
  obtain ⟨p, hp⟩ := exists_partAt h
  obtain ⟨i, j, hid, hj, rfl⟩ := keyBit_exists (hp.bit_lt hhi)
  obtain ⟨hclear, hset, hagree⟩ := hp.bits
  refine ⟨i, hid, PartAt.lt (p := j) (partAt_of_bits ?_ ((testBit_ax _ _ _ _).2 ⟨hj, hset⟩) fun j' hj' => ?_)⟩
  · exact Bool.eq_false_iff.2 fun hb => by simp [((testBit_ax _ _ _ _).1 hb).2] at hclear
  · have hplace : j * d + i < j' * d + i := by
      have := Nat.mul_lt_mul_of_pos_right hj' (show 0 < d by omega)
      omega
    rw [Bool.eq_iff_iff, testBit_ax, testBit_ax, hagree _ hplace]

/-- If no axis of a key is above that of another, the key is not above it (R144). -/
theorem le_of_ax_le {d x y : Nat} (hx : x < 2 ^ (d * axisBits d)) (h : ∀ i, i < d → ax d x i ≤ ax d y i) : x ≤ y :=
  Nat.le_of_not_lt fun hlt =>
    have ⟨i, hi, hax⟩ := exists_ax_lt hx hlt
    absurd (h i hi) (Nat.not_le.2 hax)

theorem ax_le_of_bits {d x y : Nat} (h : ∀ m, x.testBit m = true → y.testBit m = true) (i : Nat) : ax d x i ≤ ax d y i :=
  le_of_bits fun _ hj => (testBit_ax _ _ _ _).2 ((testBit_ax _ _ _ _).1 hj |>.imp_right (h _))

end Sys2Proof.Machine
end

section
/-!
SUPPORT. Arithmetic of keys: the results of the curve-key instructions axis by axis, and the effect of each where its field checks pass.
-/

namespace Sys2Proof.Machine

open Sys2Proof.Claims

/-! Results. -/

/-- Sums and differences by axis are those of R150. -/
theorem isKeySum_keyAdd (d : Nat) (sub : Bool) (a b : Nat) : IsKeySum d sub a b (keyAdd d sub a b).1 (keyAdd d sub a b).2 := by
  have hcast : ((2 ^ axisBits d : Nat) : Int) = (2 : Int) ^ (64 / d) := Int.natCast_pow 2 _
  have hpos : (0 : Int) < 2 ^ (64 / d) := Int.pow_pos (by decide)
  refine ⟨mkKey_lt _ _, foldl_mask_lt _ _, fun i hi => ⟨?sum, ?mask⟩⟩
  case sum =>
    have hlt (s : Int) : (s % 2 ^ (64 / d)).toNat < 2 ^ axisBits d := by
      have := Int.emod_lt_of_pos s hpos
      omega
    have hax : ax d (keyAdd d sub a b).1 i = _ := ax_mkKey_of_lt hi (hlt _)
    rw [hax]
    exact Int.toNat_of_nonneg (Int.emod_nonneg _ (Int.ne_of_gt hpos))
  case mask =>
    have ha := ax_lt d a i
    have hb := ax_lt d b i
    have hmask : (keyAdd d sub a b).2.testBit i = true ↔ _ := testBit_foldl_mask _ _ _
    rw [hmask, axisBits]
    rw [axisBits] at hcast ha hb
    cases sub
    · simp only [Bool.false_eq_true, if_false]; omega
    · simp only [if_true]; omega

/-- A key lies in a box when each axis does (R145). -/
theorem inBox_iff (d : Nat) (b : Box) (k : Nat) : inBox d b k = true ↔ ∀ i, i < d → ax d b.1 i ≤ ax d k i ∧ ax d k i ≤ ax d b.2 i := by
  simp [inBox, upTo]

/-- Four keys joined, and four masks joined. -/
theorem joinLanes_four (w : Nat) (f : Nat → Nat) (h : ∀ i, f i < 2 ^ w) :
    joinLanes w ((upTo 4).map f) = f 0 + f 1 * 2 ^ w + f 2 * 2 ^ (2 * w) + f 3 * 2 ^ (3 * w) := by
  have hlist : (upTo 4).map f = [f 0, f 1, f 2, f 3] := rfl
  have htwo : 2 ^ (2 * w) = 2 ^ w * 2 ^ w := by rw [Nat.two_mul, Nat.pow_add]
  have hthree : 2 ^ (3 * w) = 2 ^ w * (2 ^ w * 2 ^ w) := by rw [← htwo, ← Nat.pow_add, show w + 2 * w = 3 * w by omega]
  rw [htwo, hthree]
  simp only [hlist, joinLanes, List.foldr_cons, List.foldr_nil, Nat.mod_eq_of_lt (h _)]
  rw [Nat.mul_zero, Nat.add_zero]
  simp only [Nat.mul_add, Nat.mul_assoc, Nat.mul_comm, Nat.mul_left_comm, Nat.add_assoc]

/-- Coordinate i of a key moved into a box (R153). -/
def clipAxis (d : Nat) (q : Box) (k i : Nat) : Nat := min (max (ax d k i) (ax d q.1 i)) (ax d q.2 i)

/-- The key moved into the box, and the mask of the axes that were moved. -/
def clipKey (d : Nat) (q : Box) (k : Nat) : Nat := mkKey d (clipAxis d q k)
def clipMask (d : Nat) (q : Box) (k : Nat) : Nat := (upTo d).foldl (fun o i => o + if clipAxis d q k i ≠ ax d k i then 2 ^ i else 0) 0

theorem ax_clipKey {d i : Nat} (q : Box) (k : Nat) (hi : i < d) : ax d (clipKey d q k) i = clipAxis d q k i :=
  ax_mkKey_of_lt hi (Nat.lt_of_le_of_lt (Nat.min_le_right _ _) (ax_lt d q.2 i))

theorem testBit_clipMask {d i : Nat} (q : Box) (k : Nat) (hi : i < d) :
    (clipMask d q k).testBit i = true ↔ ax d (clipKey d q k) i ≠ ax d k i := by
  rw [ax_clipKey q k hi]
  exact (testBit_foldl_mask _ _ _).trans (and_iff_right hi)

/-- The sum of the keys in lane i of two vectors, with its mask (R157). -/
def laneSum (d va vb i : Nat) : Nat × Nat := keyAdd d false (keyOf d (lane 64 va i)) (keyOf d (lane 64 vb i))

theorem laneSum_key_lt (d va vb i : Nat) : (laneSum d va vb i).1 < 2 ^ 64 :=
  Nat.lt_of_lt_of_le (mkKey_lt _ _) (Nat.pow_le_pow_right (by omega) (Nat.mul_div_le 64 d))

theorem laneSum_mask_lt {d : Nat} (hd : d ≤ 8) (va vb i : Nat) : (laneSum d va vb i).2 < 2 ^ 8 :=
  Nat.lt_of_lt_of_le (foldl_mask_lt _ _) (Nat.pow_le_pow_right (by omega) hd)

/-! Effects. -/

/-- Fields that name pairs and boxes, and a type that gives a dimension count, pass the field checks (R145). -/
theorem curveCheck_pairs {t : Nat} {pairs : List Nat} (ht : t ≤ 6) (hp : ∀ r ∈ pairs, r < 8) : curveCheck t pairs none false = none := by
  have hany : pairs.any (8 ≤ ·) = false := List.any_eq_false.2 fun r hr => by simpa using hp r hr
  have h7 : (t == 7) = false := beq_false_of_ne (by omega)
  simp [curveCheck, hany, h7]

theorem curveCheck_box {t b : Nat} {pairs : List Nat} (ht : t ≤ 6) (hb : b < 7) (hp : ∀ r ∈ pairs, r < 8) :
    curveCheck t pairs (some b) false = none := by
  have hany : pairs.any (8 ≤ ·) = false := List.any_eq_false.2 fun r hr => by simpa using hp r hr
  have h7 : (t == 7) = false := beq_false_of_ne (by omega)
  have hb8 : ¬ 8 ≤ b := by omega
  have hb7 : b ≠ 7 := by omega
  simp [curveCheck, hany, h7, hb8, hb7]

/-- A pair, then a word: local memory alone is written, in the bytes of the two. -/
theorem wrW_wrX_eq (c : Core) (d x m w : Nat) : wrW (wrX c d x) m w = { c with lm := (wrW (wrX c d x) m w).lm } :=
  (wrW_eq (wrX c d x) m w).trans (by rw [wrX_eq c d x])

theorem same_wrW_wrX (c : Core) (d x m w : Nat) : SameOutside [spanX c d, spanW c m] c.lm (wrW (wrX c d x) m w).lm := by
  have hspan : spanW (wrX c d x) m = spanW c m := by rw [wrX_eq c d x]; rfl
  have hw := same_wrW (wrX c d x) m w
  rw [hspan] at hw
  exact ((same_wrX c d x).mono (by simp)).trans (hw.mono (by simp))

theorem wrM_wrV_eq (c : Core) (d x m w : Nat) : wrM (wrV c d x) m w = { c with lm := (wrM (wrV c d x) m w).lm } := wrM_eq (wrV c d x) m w

theorem same_wrM_wrV (c : Core) (d x m w : Nat) : SameOutside [spanV c d, spanM c m] c.lm (wrM (wrV c d x) m w).lm :=
  ((same_wrV c d x).mono (by simp)).trans ((same_wrM (wrV c d x) m w).mono (by simp [spanM, wsBase, wrV, lmWrite]))

/-- A local instruction that writes a key and a word completes with both written (R146). -/
theorem completes_keyEff {i : Instr} {s : State} {use : GangUse} {len d x m w : Nat} {op : Local} (hi : exec i s = runLocal use len op s)
    (hs : Solo s) (hf : ∃ rd cost, op (self s) (insPc (self s)) = keyEff (self s) x d m w rd cost) :
    Completes i s (wrW (wrX (self s) d x) m w).lm [spanX (self s) d, spanW (self s) m] (pcAfter (self s) len) := by
  obtain ⟨rd, cost, hf⟩ := hf
  exact completes_of_runAt hi hs (wrW_wrX_eq _ _ _ _ _) ⟨_, _, _, hf⟩ (same_wrW_wrX _ _ _ _ _)

section
variable {m t b a d : Nat} (c : Core) (pc : Nat) (ht : t ≤ 6)
include ht

theorem ckMkOp_legal (hd : d < 8) : ckMkOp m t a d c pc =
    keyEff c (mkKey (t + 2) (lane 32 (rdV c a))) d m
      ((upTo (t + 2)).foldl (fun o i => o + if 2 ^ axisBits (t + 2) ≤ lane 32 (rdV c a) i then 2 ^ i else 0) 0) [rowV c a] 1 := by
  rw [ckMkOp, curveCheck_pairs ht (by simpa using hd)]

theorem ckAxOp_legal {ix : Nat} (ha : a < 8) (hix : ix < t + 2) :
    ckAxOp t ix a d c pc = eff (wrW c d (ax (t + 2) (rdX c a) ix)) [rowX c a] (rowsW c d) 1 := by
  rw [ckAxOp, decide_eq_false (by omega), curveCheck_pairs ht (by simpa using ha)]

theorem ckAddOp_legal (sub : Bool) (hb : b < 8) (ha : a < 8) (hd : d < 8) : ckAddOp sub m t b a d c pc =
    keyEff c (keyAdd (t + 2) sub (rdKey c t a) (rdKey c t b)).1 d m (keyAdd (t + 2) sub (rdKey c t a) (rdKey c t b)).2 [rowX c a, rowX c b] 1 := by
  rw [ckAddOp, curveCheck_pairs ht (by simp [hb, ha, hd])]

theorem ckTestOp_legal (f : Nat → Nat → Nat → Nat) (hb : b < 8) (ha : a < 8) :
    ckTestOp f t b a d c pc = eff (wrW c d (f (t + 2) (rdKey c t a) (rdKey c t b))) [rowX c a, rowX c b] (rowsW c d) 1 := by
  rw [ckTestOp, curveCheck_pairs ht (by simp [hb, ha])]

theorem ckInboxOp_legal (hb : b < 7) (ha : a < 8) :
    ckInboxOp t b a d c pc = eff (wrW c d (b2n (inBox (t + 2) (rdBox c t b) (rdKey c t a)))) (rowX c a :: boxRows c b) (rowsW c d) 1 := by
  rw [ckInboxOp, curveCheck_box ht hb (by simpa using ha)]

theorem ckStepOp_legal (f : Nat → Box → Nat → Option Nat) (hb : b < 7) (ha : a < 8) (hd : d < 8) : ckStepOp f m t b a d c pc =
    keyEff c ((f (t + 2) (rdBox c t b) (rdKey c t a)).getD (rdKey c t a)) d m (b2n (f (t + 2) (rdBox c t b) (rdKey c t a)).isSome)
      (rowX c a :: boxRows c b) 2 := by
  rw [ckStepOp, curveCheck_box ht hb (by simp [ha, hd])]
  cases h : f (t + 2) (rdBox c t b) (rdKey c t a) <;> rfl

theorem ckClipOp_legal (hb : b < 7) (ha : a < 8) (hd : d < 8) : ckClipOp m t b a d c pc =
    keyEff c (clipKey (t + 2) (rdBox c t b) (rdKey c t a)) d m (clipMask (t + 2) (rdBox c t b) (rdKey c t a)) (rowX c a :: boxRows c b) 1 := by
  rw [ckClipOp, curveCheck_box ht hb (by simp [ha, hd])]
  simp only [clipMask, ite_not]
  rfl

theorem ckChkOp_legal (ha : a < 8) :
    ckChkOp t a d c pc = eff (wrW c d (rdX c a / 2 ^ ((t + 2) * axisBits (t + 2)))) [rowX c a] (rowsW c d) 1 := by
  rw [ckChkOp, curveCheck_pairs ht (by simpa using ha)]

theorem vckAddOp_legal : vckAddOp m t b a d c pc =
    eff (wrM (wrV c d (joinLanes 64 ((upTo 4).map fun i => (laneSum (t + 2) (rdV c a) (rdV c b) i).1))) m
      (joinLanes 8 ((upTo 4).map fun i => (laneSum (t + 2) (rdV c a) (rdV c b) i).2))) [rowV c a, rowV c b] (rowV c d :: rowsM c m) 1 := by
  rw [vckAddOp, curveCheck_pairs ht (by simp)]
  rfl

end

/-- An instruction that adds or subtracts keys completes with sum and mask. -/
theorem completes_ckAddOp {sub : Bool} {f : Nat → Nat → Nat → Nat → Nat → Instr}
    (hf : ∀ m t b a d s, exec (f m t b a d) s = runLocal .members 4 (ckAddOp sub m t b a d) s) (m t b a d : Nat) (s : State) (hs : Solo s)
    (ht : t ≤ 6) (hb : b < 8) (ha : a < 8) (hd : d < 8) :
    ∃ z w, IsKeySum (t + 2) sub (key s (t + 2) a) (key s (t + 2) b) z w ∧
      Completes (f m t b a d) s (wrW (wrX (self s) d z) m w).lm [spanX (self s) d, spanW (self s) m] (pcAfter (self s) 4) :=
  ⟨_, _, isKeySum_keyAdd _ _ _ _, completes_keyEff (hf m t b a d s) hs ⟨_, _, ckAddOp_legal _ _ ht sub hb ha hd⟩⟩

/-- Settles O21: each form passes its field checks, and its result is that of its rule on every axis. -/
theorem keyArithmetic : Obligations.KeyArithmetic := by
  unfold Obligations.KeyArithmetic
  refine ⟨fun m t a d s hs ht hd => ?mk, fun t ix a d s hs ht ha hix => ?ax, ?sum, fun t b a d s hs ht hb ha => ⟨?cmp, ?dom⟩,
    fun m t b a d s hs ht hb ha hd => ⟨?inbox, ?clip⟩, fun t a d s hs ht ha => ?chk, fun m t b a d s hs ht => ?vadd⟩
  case mk =>
    exact ⟨_, _, mkKey_lt _ _, foldl_mask_lt _ _, fun i hi => ⟨ax_mkKey _ hi, (testBit_foldl_mask _ _ _).trans (and_iff_right hi)⟩,
      completes_keyEff (op := ckMkOp m t a d) rfl hs ⟨_, _, ckMkOp_legal _ _ ht hd⟩⟩
  case ax => exact completes_wrW (op := ckAxOp t ix a d) rfl hs ⟨_, _, _, ckAxOp_legal _ _ ht ha hix⟩
  case sum =>
    exact List.forall_mem_cons.2 ⟨completes_ckAddOp fun _ _ _ _ _ _ => rfl, List.forall_mem_singleton.2 (completes_ckAddOp fun _ _ _ _ _ _ => rfl)⟩
  case cmp => exact completes_wrW (op := ckTestOp cmpKeys t b a d) rfl hs ⟨_, _, _, ckTestOp_legal _ _ ht _ hb ha⟩
  case dom => exact completes_wrW (op := ckTestOp domKeys t b a d) rfl hs ⟨_, _, _, ckTestOp_legal _ _ ht _ hb ha⟩
  case inbox =>
    simp only [Bool.decide_and]
    exact completes_wrW (op := ckInboxOp t b a d) rfl hs ⟨_, _, _, ckInboxOp_legal _ _ ht hb ha⟩
  case clip =>
    exact ⟨_, _, mkKey_lt _ _, foldl_mask_lt _ _, fun i hi => ⟨ax_clipKey _ _ hi, testBit_clipMask _ _ hi⟩,
      completes_keyEff (op := ckClipOp m t b a d) rfl hs ⟨_, _, ckClipOp_legal _ _ ht hb ha hd⟩⟩
  case chk => exact completes_wrW (op := ckChkOp t a d) rfl hs ⟨_, _, _, ckChkOp_legal _ _ ht ha⟩
  case vadd =>
    have hlegal := vckAddOp_legal (m := m) (b := b) (a := a) (d := d) (self s) (insPc (self s)) ht
    rw [joinLanes_four 64 _ (laneSum_key_lt _ _ _), joinLanes_four 8 _ (laneSum_mask_lt (by omega) _ _)] at hlegal
    exact ⟨_, _, fun i _ => isKeySum_keyAdd _ _ _ _,
      completes_of_runAt (f := fun _ => vckAddOp m t b a d) rfl hs (wrM_wrV_eq _ _ _ _ _) ⟨_, _, _, hlegal⟩ (same_wrM_wrV _ _ _ _ _)⟩

end Sys2Proof.Machine
end

section
/-!
SUPPORT. Nearest keys: the first and the last key of the common part of two boxes, and of a box above and below a key (R152).
-/

namespace Sys2Proof.Machine

/-- A key of a box (R145). -/
def Within (d : Nat) (b : Box) (x : Nat) : Prop := x < 2 ^ (d * axisBits d) ∧ ∀ i, i < d → ax d b.1 i ≤ ax d x i ∧ ax d x i ≤ ax d b.2 i

/-- The first of the numbers with a property in an order, none where no number has it. -/
def Nearest (P : Nat → Prop) (before : Nat → Nat → Prop) : Option Nat → Prop
  | some x => P x ∧ ∀ y, P y → before x y
  | none => ∀ y, ¬ P y

theorem Nearest.congr {P Q : Nat → Prop} {before : Nat → Nat → Prop} {o : Option Nat} (h : Nearest P before o) (hPQ : ∀ y, P y ↔ Q y) :
    Nearest Q before o := by
  have hfun : P = Q := funext fun y => propext (hPQ y)
  exact hfun ▸ h

/-- Where properties are tried in turn, and each number of one stands before those of the next, the first answer is the nearest of all. -/
theorem nearest_findSome {n : Nat} {f : Nat → Option Nat} {P : Nat → Nat → Prop} {before : Nat → Nat → Prop}
    (hf : ∀ p, p < n → Nearest (P p) before (f p)) (hord : ∀ p q x y, p < q → P p x → P q y → before x y) :
    Nearest (fun y => ∃ p, p < n ∧ P p y) before ((upTo n).findSome? f) := by
  induction n with
  | zero => exact fun y ⟨p, hp, _⟩ => absurd hp (Nat.not_lt_zero p)
  | succ n ih =>
    have h := ih fun p hp => hf p (Nat.lt_succ_of_lt hp)
    rw [upTo, List.range_succ, List.findSome?_append, List.findSome?_singleton]
    rw [upTo] at h
    cases ho : (List.range n).findSome? f with
    | none =>
      rw [ho] at h
      refine (hf n (Nat.lt_succ_self n)).congr fun y => ⟨fun hy => ⟨n, Nat.lt_succ_self n, hy⟩, ?_⟩
      rintro ⟨p, hp, hy⟩
      rcases Nat.lt_succ_iff_lt_or_eq.1 hp with hlt | rfl
      · exact absurd ⟨p, hlt, hy⟩ (h y)
      · exact hy
    | some x =>
      rw [ho] at h
      obtain ⟨⟨p, hp, hx⟩, hfirst⟩ := h
      refine ⟨⟨p, Nat.lt_succ_of_lt hp, hx⟩, ?_⟩
      rintro y ⟨q, hq, hy⟩
      rcases Nat.lt_succ_iff_lt_or_eq.1 hq with hlt | rfl
      · exact hfirst y ⟨q, hlt, hy⟩
      · exact hord p q x y hp hx hy

/-! The common part of two boxes. -/

/-- The coordinates of the low and the high corner of the common part. -/
def meetLow (d : Nat) (b c : Box) (i : Nat) : Nat := max (ax d b.1 i) (ax d c.1 i)
def meetHigh (d : Nat) (b c : Box) (i : Nat) : Nat := min (ax d b.2 i) (ax d c.2 i)

/-- A key lies in two boxes when each axis lies between the corners of the common part. -/
theorem within_both_iff (d : Nat) (b c : Box) (x : Nat) :
    Within d b x ∧ Within d c x ↔ x < 2 ^ (d * axisBits d) ∧ ∀ i, i < d → meetLow d b c i ≤ ax d x i ∧ ax d x i ≤ meetHigh d b c i := by
  simp only [Within, meetLow, meetHigh, Nat.max_le, Nat.le_min]
  constructor
  · rintro ⟨⟨hx, hb⟩, -, hc⟩
    exact ⟨hx, fun i hi => ⟨⟨(hb i hi).1, (hc i hi).1⟩, (hb i hi).2, (hc i hi).2⟩⟩
  · rintro ⟨hx, h⟩
    exact ⟨⟨hx, fun i hi => ⟨(h i hi).1.1, (h i hi).2.1⟩⟩, hx, fun i hi => ⟨(h i hi).1.2, (h i hi).2.2⟩⟩

theorem ax_meetLow {d i : Nat} (b c : Box) (hi : i < d) : ax d (mkKey d (meetLow d b c)) i = meetLow d b c i :=
  ax_mkKey_of_lt hi (Nat.max_lt.2 ⟨ax_lt _ _ _, ax_lt _ _ _⟩)

theorem ax_meetHigh {d i : Nat} (b c : Box) (hi : i < d) : ax d (mkKey d (meetHigh d b c)) i = meetHigh d b c i :=
  ax_mkKey_of_lt hi (Nat.lt_of_le_of_lt (Nat.min_le_left _ _) (ax_lt _ _ _))

theorem meet_eq (d : Nat) (b c : Box) : meet d b c =
    if ∀ i, i < d → meetLow d b c i ≤ meetHigh d b c i then some (mkKey d (meetLow d b c), mkKey d (meetHigh d b c)) else none := by
  have hall : ((upTo d).all fun i => decide (meetLow d b c i ≤ meetHigh d b c i)) = true ↔ ∀ i, i < d → meetLow d b c i ≤ meetHigh d b c i := by
    simp only [upTo, List.all_eq_true, List.mem_range, decide_eq_true_eq]
  by_cases h : ∀ i, i < d → meetLow d b c i ≤ meetHigh d b c i
  · exact (if_pos (hall.2 h)).trans (if_pos h).symm
  · exact (if_neg (mt hall.1 h)).trans (if_neg h).symm

/-- Its corners are its first and its last key. -/
theorem nearest_meet_fst (d : Nat) (b c : Box) : Nearest (fun x => Within d b x ∧ Within d c x) (· ≤ ·) ((meet d b c).map Prod.fst) := by
  rw [meet_eq]
  split
  case isTrue h =>
    refine ⟨(within_both_iff _ _ _ _).2 ⟨mkKey_lt _ _, fun i hi => ?_⟩, fun y hy => le_of_ax_le (mkKey_lt _ _) fun i hi => ?_⟩
    · rw [ax_meetLow b c hi]; exact ⟨Nat.le_refl _, h i hi⟩
    · rw [ax_meetLow b c hi]; exact (((within_both_iff _ _ _ _).1 hy).2 i hi).1
  case isFalse h =>
    refine fun y hy => h fun i hi => ?_
    obtain ⟨hlow, hhigh⟩ := ((within_both_iff _ _ _ _).1 hy).2 i hi
    exact Nat.le_trans hlow hhigh

theorem nearest_meet_snd (d : Nat) (b c : Box) : Nearest (fun x => Within d b x ∧ Within d c x) (· ≥ ·) ((meet d b c).map Prod.snd) := by
  rw [meet_eq]
  split
  case isTrue h =>
    refine ⟨(within_both_iff _ _ _ _).2 ⟨mkKey_lt _ _, fun i hi => ?_⟩, fun y hy => ?_⟩
    · rw [ax_meetHigh b c hi]; exact ⟨h i hi, Nat.le_refl _⟩
    · obtain ⟨hlt, hy⟩ := (within_both_iff _ _ _ _).1 hy
      refine le_of_ax_le hlt fun i hi => ?_
      rw [ax_meetHigh b c hi]; exact (hy i hi).2
  case isFalse h =>
    refine fun y hy => h fun i hi => ?_
    obtain ⟨hlow, hhigh⟩ := ((within_both_iff _ _ _ _).1 hy).2 i hi
    exact Nat.le_trans hlow hhigh

/-! Keys with given upper bits. -/

/-- The keys whose bits from p on are those of u form a box. -/
theorem within_block {d p u : Nat} (x : Nat) (hu : (u + 1) * 2 ^ p ≤ 2 ^ (d * axisBits d)) :
    Within d (u * 2 ^ p, u * 2 ^ p + 2 ^ p - 1) x ↔ x / 2 ^ p = u := by
  have hpos : 0 < 2 ^ p := Nat.two_pow_pos p
  rw [Nat.add_mul, Nat.one_mul] at hu
  constructor
  · rintro ⟨hx, hax⟩
    have hlow : u * 2 ^ p ≤ x := le_of_ax_le (d := d) (by omega) fun i hi => (hax i hi).1
    have hhigh : x ≤ u * 2 ^ p + 2 ^ p - 1 := le_of_ax_le hx fun i hi => (hax i hi).2
    exact Nat.div_eq_of_lt_le hlow (by rw [Nat.add_mul, Nat.one_mul]; omega)
  · intro hx
    have hmod := Nat.mod_lt x hpos
    have hdiv : u * 2 ^ p + x % 2 ^ p = x := hx ▸ Nat.div_add_mod' x (2 ^ p)
    have hbit {m : Nat} (hm : p ≤ m) : u.testBit (m - p) = x.testBit m := by
      rw [← hx, Nat.testBit_div_two_pow, Nat.sub_add_cancel hm]
    refine ⟨by omega, fun i _ => ⟨ax_le_of_bits (fun m hm => ?low) i, ax_le_of_bits (fun m hm => ?high) i⟩⟩
    case low =>
      obtain ⟨hp, hm⟩ : p ≤ m ∧ u.testBit (m - p) = true := by simpa [Nat.testBit_mul_two_pow] using hm
      rwa [← hbit hp]
    case high =>
      have htop : u * 2 ^ p + 2 ^ p - 1 = 2 ^ p * u + (2 ^ p - 1) := by rw [Nat.mul_comm]; omega
      show (u * 2 ^ p + 2 ^ p - 1).testBit m = true
      rw [htop, Nat.testBit_two_pow_mul_add _ (by omega)]
      split
      case isTrue hlt => rw [Nat.testBit_two_pow_sub_one, decide_eq_true hlt]
      case isFalse hge => rwa [hbit (by omega)]

theorem within_pfxBox {d k p v : Nat} (x : Nat) (hk : k < 2 ^ (d * axisBits d)) (hp : p < d * axisBits d) (hv : v ≤ 1) :
    Within d (pfxBox k p v) x ↔ x / 2 ^ p = k / 2 ^ p / 2 * 2 + v := by
  have hbase : k / 2 ^ (p + 1) * 2 ^ (p + 1) + v * 2 ^ p = (k / 2 ^ p / 2 * 2 + v) * 2 ^ p := by
    rw [Nat.pow_succ, ← Nat.div_div_eq_div_mul, Nat.add_mul, Nat.mul_assoc, Nat.mul_comm 2 (2 ^ p)]
  have hbox : pfxBox k p v = ((k / 2 ^ p / 2 * 2 + v) * 2 ^ p, (k / 2 ^ p / 2 * 2 + v) * 2 ^ p + 2 ^ p - 1) := by rw [pfxBox, hbase]
  rw [hbox]
  refine within_block x ?_
  obtain ⟨q, hq⟩ : ∃ q, d * axisBits d = q + 1 + p := ⟨d * axisBits d - p - 1, by omega⟩
  rw [hq, Nat.pow_add] at hk ⊢
  have hlt : k / 2 ^ p < 2 ^ (q + 1) := Nat.div_lt_of_lt_mul (by rwa [Nat.mul_comm])
  rw [Nat.pow_succ] at hlt ⊢
  exact Nat.mul_le_mul_right _ (by omega)

/-! The bit at which two keys part. -/

theorem PartAt.div_eq {p q lo hi : Nat} (h : PartAt p lo hi) (hq : p < q) : lo / 2 ^ q = hi / 2 ^ q := by
  obtain ⟨r, rfl⟩ : ∃ r, q = p + (1 + r) := ⟨q - p - 1, by omega⟩
  obtain ⟨hlo, hhi⟩ := h
  rw [Nat.pow_add, Nat.pow_add, ← Nat.div_div_eq_div_mul, ← Nat.div_div_eq_div_mul, ← Nat.div_div_eq_div_mul, ← Nat.div_div_eq_div_mul, hhi,
    show (lo / 2 ^ p + 1) / 2 ^ 1 = lo / 2 ^ p / 2 ^ 1 by omega]

theorem PartAt.bit_low {p lo hi : Nat} (h : PartAt p lo hi) : bit lo p = false := (bit_eq_testBit _ _).trans h.bits.1
theorem PartAt.bit_high {p lo hi : Nat} (h : PartAt p lo hi) : bit hi p = true := (bit_eq_testBit _ _).trans h.bits.2.1

/-- Of two numbers above k, the one that parts from it at the lower bit is below. -/
theorem PartAt.lt_of_above {p q k x y : Nat} (hx : PartAt p k x) (hy : PartAt q k y) (hpq : p < q) : x < y :=
  Nat.lt_of_div_lt_div (c := 2 ^ q) (by rw [← hx.div_eq hpq, hy.2]; exact Nat.lt_succ_self _)

/-- Of two numbers below k, the one that parts from it at the lower bit is above. -/
theorem PartAt.lt_of_below {p q k x y : Nat} (hx : PartAt p x k) (hy : PartAt q y k) (hpq : p < q) : y < x :=
  Nat.lt_of_div_lt_div (c := 2 ^ q) (by rw [hx.div_eq hpq, hy.2]; exact Nat.lt_succ_self _)

/-- A number above another parts from it at some bit, and only such a number does. -/
theorem exists_partAt_iff {P : Prop} {n lo hi : Nat} (hn : P → hi < 2 ^ n) : (∃ p, p < n ∧ P ∧ PartAt p lo hi) ↔ P ∧ lo < hi := by
  constructor
  · rintro ⟨p, -, hP, hpart⟩
    exact ⟨hP, hpart.lt⟩
  · rintro ⟨hP, hlt⟩
    obtain ⟨p, hpart⟩ := exists_partAt hlt
    exact ⟨p, hpart.bit_lt (hn hP), hP, hpart⟩

section
variable {d k : Nat} (b : Box) (hk : k < 2 ^ (d * axisBits d))
include hk

theorem within_pfxBox_above {p : Nat} (x : Nat) (hp : p < d * axisBits d) (hbit : bit k p = false) :
    Within d (pfxBox k p 1) x ↔ PartAt p k x := by
  have hclear : k / 2 ^ p % 2 = 0 := by simpa [bit] using hbit
  rw [within_pfxBox x hk hp (Nat.le_refl 1), PartAt]
  omega

theorem within_pfxBox_below {p : Nat} (x : Nat) (hp : p < d * axisBits d) (hbit : bit k p = true) :
    Within d (pfxBox k p 0) x ↔ PartAt p x k := by
  have hset : k / 2 ^ p % 2 = 1 := (bit_iff k p).1 hbit
  rw [within_pfxBox x hk hp (Nat.zero_le 1), PartAt]
  omega

/-- The next key is the first one of the box above k (R152). -/
theorem nearest_nextKey : Nearest (fun y => Within d b y ∧ k < y) (· ≤ ·) (nextKey d b k) := by
  have hbits : ∀ p, p < d * axisBits d → Nearest (fun y => Within d b y ∧ PartAt p k y) (· ≤ ·)
      (if bit k p then none else (meet d b (pfxBox k p 1)).map Prod.fst) := by
    intro p hp
    cases hbit : bit k p
    · exact (nearest_meet_fst d b (pfxBox k p 1)).congr fun y => and_congr_right fun _ => within_pfxBox_above hk y hp hbit
    · exact fun y hy => by simp [hy.2.bit_low] at hbit
  exact (nearest_findSome hbits fun p q x y hpq hx hy => Nat.le_of_lt (hx.2.lt_of_above hy.2 hpq)).congr fun y =>
    exists_partAt_iff fun hy => hy.1

/-- The previous key is the last one of the box below k (R152). -/
theorem nearest_prevKey : Nearest (fun y => Within d b y ∧ y < k) (· ≥ ·) (prevKey d b k) := by
  have hbits : ∀ p, p < d * axisBits d → Nearest (fun y => Within d b y ∧ PartAt p y k) (· ≥ ·)
      (if bit k p then (meet d b (pfxBox k p 0)).map Prod.snd else none) := by
    intro p hp
    cases hbit : bit k p
    · exact fun y hy => by simp [hy.2.bit_high] at hbit
    · exact (nearest_meet_snd d b (pfxBox k p 0)).congr fun y => and_congr_right fun _ => within_pfxBox_below hk y hp hbit
  exact (nearest_findSome hbits fun p q x y hpq hx hy => Nat.le_of_lt (hx.2.lt_of_below hy.2 hpq)).congr fun y =>
    exists_partAt_iff fun _ => hk

end

theorem rdKey_lt (c : Core) (t n : Nat) : rdKey c t n < 2 ^ ((t + 2) * axisBits (t + 2)) := Nat.mod_lt _ (Nat.two_pow_pos _)

/-- A nearest number with a 1, or, where there is none, a given one with a 0. -/
theorem Nearest.getD {P : Nat → Prop} {before : Nat → Nat → Prop} {o : Option Nat} (h : Nearest P before o) (k : Nat) :
    (P (o.getD k) ∧ (∀ y, P y → before (o.getD k) y) ∧ b2n o.isSome = 1) ∨ ((∀ y, ¬ P y) ∧ o.getD k = k ∧ b2n o.isSome = 0) := by
  cases o with
  | none => exact .inr ⟨h, rfl, rfl⟩
  | some x => exact .inl ⟨h.1, h.2, rfl⟩

/-- Settles O22: among the keys that part from k at a bit, those of the lowest such bit are nearest, and they form a box. -/
theorem nextAndPreviousKey : Obligations.NextAndPreviousKey := by
  unfold Obligations.NextAndPreviousKey
  intro m t b a d s hs ht hb ha hd
  refine ⟨⟨_, _, ?next, completes_keyEff (op := ckStepOp nextKey m t b a d) rfl hs ⟨_, _, ckStepOp_legal _ _ ht _ hb ha hd⟩⟩,
    ⟨_, _, ?prev, completes_keyEff (op := ckStepOp prevKey m t b a d) rfl hs ⟨_, _, ckStepOp_legal _ _ ht _ hb ha hd⟩⟩⟩
  case next =>
    refine ((nearest_nextKey (rdBox (self s) t b) (rdKey_lt (self s) t a)).getD (rdKey (self s) t a)).imp ?_ (And.imp_left fun h y hy => ?_)
    · rintro ⟨⟨hin, hlt⟩, hfirst, hw⟩
      exact ⟨hin, hlt, fun y hy hy' => hfirst y ⟨hy, hy'⟩, hw⟩
    · exact Nat.le_of_not_lt fun hlt => h y ⟨hy, hlt⟩
  case prev =>
    refine ((nearest_prevKey (rdBox (self s) t b) (rdKey_lt (self s) t a)).getD (rdKey (self s) t a)).imp ?_ (And.imp_left fun h y hy => ?_)
    · rintro ⟨⟨hin, hlt⟩, hlast, hw⟩
      exact ⟨hin, hlt, fun y hy hy' => hlast y ⟨hy, hy'⟩, hw⟩
    · exact Nat.le_of_not_lt fun hlt => h y ⟨hy, hlt⟩

end Sys2Proof.Machine
end

section
/-!
SUPPORT. Runs of keys: the keys outside a box as boxes, the last key of a run, the runs of a split and the memory that holds them (R155, R156).
-/

namespace Sys2Proof.Machine

open Sys2Proof.Claims

/-! The keys outside a box. -/

/-- The keys of which axis i is below the box, and those of which it is above. -/
def belowBox (d : Nat) (b : Box) (i : Nat) : Box := (0, mkKey d fun j => if j = i then ax d b.1 i - 1 else 2 ^ axisBits d - 1)
def aboveBox (d : Nat) (b : Box) (i : Nat) : Box :=
  (mkKey d fun j => if j = i then ax d b.2 i + 1 else 0, mkKey d fun _ => 2 ^ axisBits d - 1)

theorem mem_outside (d : Nat) (b o : Box) : o ∈ outside d b ↔
    ∃ i, i < d ∧ ((0 < ax d b.1 i ∧ o = belowBox d b i) ∨ (ax d b.2 i < 2 ^ axisBits d - 1 ∧ o = aboveBox d b i)) := by
  have hlist : outside d b = (List.range d).flatMap fun i => (if 0 < ax d b.1 i then [belowBox d b i] else []) ++
      if ax d b.2 i < 2 ^ axisBits d - 1 then [aboveBox d b i] else [] := by
    rw [List.flatMap_def]
    refine Eq.trans ?_ (List.foldr_append_eq_append.trans (List.append_nil _))
    simp only [outside, upTo, belowBox, aboveBox]
  simp only [hlist, List.mem_flatMap, List.mem_range, List.mem_append, List.mem_ite_nil_right,
    List.mem_singleton]

theorem ax_zero (d i : Nat) : ax d 0 i = 0 := Nat.eq_zero_of_le_zero (le_of_bits fun j hj => by simp [testBit_ax] at hj)

theorem ax_le_top (d k i : Nat) : ax d k i ≤ 2 ^ axisBits d - 1 := Nat.le_sub_one_of_lt (ax_lt d k i)

theorem within_belowBox {d i : Nat} {b : Box} (x : Nat) (hi : i < d) (h : 0 < ax d b.1 i) :
    Within d (belowBox d b i) x ↔ x < 2 ^ (d * axisBits d) ∧ ax d x i < ax d b.1 i := by
  have hhigh (j : Nat) (hj : j < d) : ax d (belowBox d b i).2 j = if j = i then ax d b.1 i - 1 else 2 ^ axisBits d - 1 := by
    refine ax_mkKey_of_lt hj ?_
    have := ax_le_top d b.1 i
    have := Nat.two_pow_pos (axisBits d)
    split <;> omega
  refine and_congr_right fun _ => ⟨fun hx => ?_, fun hx j hj => ⟨?_, ?_⟩⟩
  · have hxi := (hx i hi).2
    rw [hhigh i hi, if_pos rfl] at hxi
    omega
  · exact Nat.le_trans (Nat.le_of_eq (ax_zero d j)) (Nat.zero_le _)
  · rw [hhigh j hj]
    split
    case isTrue he => subst he; omega
    case isFalse => exact ax_le_top d x j

theorem within_aboveBox {d i : Nat} {b : Box} (x : Nat) (hi : i < d) (h : ax d b.2 i < 2 ^ axisBits d - 1) :
    Within d (aboveBox d b i) x ↔ x < 2 ^ (d * axisBits d) ∧ ax d b.2 i < ax d x i := by
  have hpos := Nat.two_pow_pos (axisBits d)
  have hlow (j : Nat) (hj : j < d) : ax d (aboveBox d b i).1 j = if j = i then ax d b.2 i + 1 else 0 :=
    ax_mkKey_of_lt hj (by split <;> omega)
  have hhigh (j : Nat) (hj : j < d) : ax d (aboveBox d b i).2 j = 2 ^ axisBits d - 1 := ax_mkKey_of_lt hj (by omega)
  refine and_congr_right fun _ => ⟨fun hx => ?_, fun hx j hj => ⟨?_, ?_⟩⟩
  · have hxi := (hx i hi).1
    rw [hlow i hi, if_pos rfl] at hxi
    exact hxi
  · rw [hlow j hj]
    split
    case isTrue he => subst he; exact hx
    case isFalse => exact Nat.zero_le _
  · exact (hhigh j hj).symm ▸ ax_le_top d x j

/-- These boxes hold the keys that the box does not. -/
theorem exists_outside_iff (d : Nat) (b : Box) (x : Nat) :
    (∃ o ∈ outside d b, Within d o x) ↔ x < 2 ^ (d * axisBits d) ∧ ¬ Within d b x := by
  constructor
  · rintro ⟨o, ho, hx⟩
    obtain ⟨i, hi, ⟨hpos, rfl⟩ | ⟨hlt, rfl⟩⟩ := (mem_outside d b o).1 ho
    · obtain ⟨hx, hax⟩ := (within_belowBox x hi hpos).1 hx
      exact ⟨hx, fun hin => absurd (hin.2 i hi).1 (Nat.not_le.2 hax)⟩
    · obtain ⟨hx, hax⟩ := (within_aboveBox x hi hlt).1 hx
      exact ⟨hx, fun hin => absurd (hin.2 i hi).2 (Nat.not_le.2 hax)⟩
  · rintro ⟨hx, hout⟩
    obtain ⟨i, hi, hax⟩ : ∃ i, i < d ∧ ¬ (ax d b.1 i ≤ ax d x i ∧ ax d x i ≤ ax d b.2 i) := by
      refine Decidable.byContradiction fun hall => hout ⟨hx, fun i hi => Decidable.byContradiction fun hax => hall ⟨i, hi, hax⟩⟩
    have htop := ax_le_top d x i
    rcases Nat.lt_or_ge (ax d x i) (ax d b.1 i) with hlt | hge
    · have hpos : 0 < ax d b.1 i := by omega
      exact ⟨_, (mem_outside d b _).2 ⟨i, hi, .inl ⟨hpos, rfl⟩⟩, (within_belowBox x hi hpos).2 ⟨hx, hlt⟩⟩
    · have hlt : ax d b.2 i < 2 ^ axisBits d - 1 := by omega
      exact ⟨_, (mem_outside d b _).2 ⟨i, hi, .inr ⟨hlt, rfl⟩⟩, (within_aboveBox x hi hlt).2 ⟨hx, by omega⟩⟩

/-! The end of a run. -/

/-- The least of the first numbers of several properties is the first number that has one of them. -/
theorem nearest_min {α : Type} {l : List α} {f : α → Option Nat} {P : α → Nat → Prop} (hf : ∀ a ∈ l, Nearest (P a) (· ≤ ·) (f a)) :
    Nearest (fun y => ∃ a ∈ l, P a y) (· ≤ ·) (l.filterMap f).min? := by
  have hfound {a : α} (ha : a ∈ l) {y : Nat} (hy : P a y) : ∃ x ∈ l.filterMap f, x ≤ y := by
    have h := hf a ha
    cases hx : f a with
    | none => rw [hx] at h; exact absurd hy (h y)
    | some x => rw [hx] at h; exact ⟨x, List.mem_filterMap.2 ⟨a, ha, hx⟩, h.2 y hy⟩
  cases hmin : (l.filterMap f).min? with
  | none =>
    rintro y ⟨a, ha, hy⟩
    obtain ⟨x, hx, -⟩ := hfound ha hy
    rw [List.min?_eq_none_iff.1 hmin] at hx
    cases hx
  | some x =>
    obtain ⟨hx, hleast⟩ := List.min?_eq_some_iff.1 hmin
    obtain ⟨a, ha, hfa⟩ := List.mem_filterMap.1 hx
    have h := hf a ha
    rw [hfa] at h
    refine ⟨⟨a, ha, h.1⟩, ?_⟩
    rintro y ⟨a', ha', hy⟩
    obtain ⟨z, hz, hzy⟩ := hfound ha' hy
    exact Nat.le_trans (hleast z hz) hzy

/-- The first key above k that lies outside the box. -/
def firstOutside (d : Nat) (b : Box) (k : Nat) : Option Nat := ((outside d b).filterMap fun o => nextKey d o k).min?

theorem nearest_firstOutside {d k : Nat} (b : Box) (hk : k < 2 ^ (d * axisBits d)) :
    Nearest (fun y => (y < 2 ^ (d * axisBits d) ∧ ¬ Within d b y) ∧ k < y) (· ≤ ·) (firstOutside d b k) := by
  refine (nearest_min fun o _ => nearest_nextKey o hk).congr fun y => ?_
  rw [← exists_outside_iff]
  exact ⟨fun ⟨o, ho, hy, hlt⟩ => ⟨⟨o, ho, hy⟩, hlt⟩, fun ⟨⟨o, ho, hy⟩, hlt⟩ => ⟨o, ho, hy, hlt⟩⟩

theorem runEnd_eq (d : Nat) (b : Box) (k : Nat) : runEnd d b k = (firstOutside d b k).getD (2 ^ (d * axisBits d)) - 1 := by
  unfold runEnd firstOutside
  cases (outside d b).filterMap fun o => nextKey d o k <;> rfl

/-- From a key of the box on, all keys up to the end of its run lie in the box, and the next number does not. -/
theorem runEnd_spec {d k : Nat} {b : Box} (hk : Within d b k) :
    k ≤ runEnd d b k ∧ runEnd d b k < 2 ^ (d * axisBits d) ∧ (∀ y, k ≤ y → y ≤ runEnd d b k → Within d b y) ∧ ¬ Within d b (runEnd d b k + 1) := by
  have h := nearest_firstOutside b hk.1
  have hlt := hk.1
  have hin {x : Nat} (hfirst : ∀ y, (y < 2 ^ (d * axisBits d) ∧ ¬ Within d b y) ∧ k < y → x ≤ y) (y : Nat) (hky : k ≤ y) (hyx : y < x)
      (hy : y < 2 ^ (d * axisBits d)) : Within d b y := by
    rcases Nat.eq_or_lt_of_le hky with rfl | hky
    · exact hk
    · exact Classical.byContradiction fun hout => absurd (hfirst y ⟨⟨hy, hout⟩, hky⟩) (Nat.not_le.2 hyx)
  rw [runEnd_eq]
  cases ho : firstOutside d b k with
  | none =>
    rw [ho] at h
    rw [Option.getD_none, Nat.sub_add_cancel (by omega)]
    exact ⟨by omega, by omega, fun y hky hy => hin (fun y hy => absurd hy (h y)) y hky (x := y + 1) (by omega) (by omega),
      fun hout => absurd hout.1 (Nat.lt_irrefl _)⟩
  | some x =>
    rw [ho] at h
    obtain ⟨⟨⟨hx, hout⟩, hkx⟩, hfirst⟩ := h
    rw [Option.getD_some, Nat.sub_add_cancel (by omega)]
    exact ⟨by omega, by omega, fun y hky hy => hin hfirst y hky (by omega) (by omega), hout⟩

/-! The runs. -/

theorem nearest_nextRun {d e : Nat} (b : Box) (he : e < 2 ^ (d * axisBits d)) : Nearest (InRuns d b (e + 1)) (· ≤ ·) (nextKey d b e) :=
  (nearest_nextKey b he).congr fun _ => And.comm

theorem nearest_firstKey {d k : Nat} (b : Box) (hk : k < 2 ^ (d * axisBits d)) : Nearest (InRuns d b k) (· ≤ ·) (firstKey d b k) := by
  unfold firstKey
  split
  case isTrue hin => exact ⟨⟨Nat.le_refl k, hk, (inBox_iff d b k).1 hin⟩, fun y hy => hy.1⟩
  case isFalse hout =>
    refine (nearest_nextRun b hk).congr fun y => and_congr_left fun hy => ⟨Nat.le_of_lt, fun hle => ?_⟩
    rcases Nat.eq_or_lt_of_le hle with rfl | hlt
    · exact absurd ((inBox_iff d b k).2 hy.2) hout
    · exact hlt

/-- The number below the first one lacks the property. -/
theorem Nearest.pred {P : Nat → Prop} {x : Nat} (h : Nearest P (· ≤ ·) (some x)) : x = 0 ∨ ¬ P (x - 1) := by
  rcases Nat.eq_zero_or_pos x with h0 | hpos
  · exact .inl h0
  · exact .inr fun hin => absurd (h.2 _ hin) (by omega)

/-- Where no key is left there is no run. -/
theorem runsOf_none {n : Nat} {b : Box} {k : Nat} (most : Nat) (h : ∀ y, ¬ InRuns n b k y) : RunsOf n b k most [] none :=
  ⟨Nat.zero_le _, nofun, nofun, .nil, nofun, fun y hy => absurd hy (h y)⟩

/-- Where none may be written, the first key left begins a further run. -/
theorem runsOf_more {n : Nat} {b : Box} {k x : Nat} (h : Nearest (InRuns n b k) (· ≤ ·) (some x)) : RunsOf n b k 0 [] (some x) := by
  refine ⟨Nat.le_refl _, fun _ => rfl, nofun, .nil, ?_, fun y hy => .inr ⟨x, rfl, h.2 y hy⟩⟩
  rintro _ ⟨⟩
  exact ⟨h.1, h.pred, nofun⟩

/-- The run from the first key on, before the runs behind its end. -/
theorem runsOf_cons {n : Nat} {b : Box} {k x most : Nat} {rs : List (Nat × Nat)} {more : Option Nat}
    (h : Nearest (InRuns n b k) (· ≤ ·) (some x)) (hrest : RunsOf n b (runEnd n b x + 1) most rs more) :
    RunsOf n b k (most + 1) ((x, runEnd n b x) :: rs) more := by
  obtain ⟨hxe, -, hin, hout⟩ := runEnd_spec h.1.2
  have hkx : k ≤ x := h.1.1
  generalize runEnd n b x = e at hxe hin hout hrest
  obtain ⟨hlen, hfull, hruns, hpairs, hmore, hall⟩ := hrest
  have hbehind {y : Nat} (hy : InRuns n b (e + 1) y) : e < y ∧ InRuns n b k y := ⟨hy.1, by have := hy.1; omega, hy.2⟩
  have hgap {z : Nat} (hz : InRuns n b (e + 1) z) (hpred : z = 0 ∨ ¬ InRuns n b (e + 1) (z - 1)) : z = 0 ∨ ¬ InRuns n b k (z - 1) := by
    refine .inr fun hy => ?_
    have hez := hz.1
    rcases Nat.eq_or_lt_of_le hez with rfl | hlt
    · exact hout hz.2
    · exact hpred.elim (by omega) fun hno => hno ⟨by omega, hy.2⟩
  have hrest : ∀ r ∈ rs, e < r.1 := fun r hr => ((hruns r hr).2.1 r.1 (Nat.le_refl _) (hruns r hr).1).1
  refine ⟨by simpa using hlen, fun hm => by simp [hfull hm], ?runs, List.pairwise_cons.2 ⟨hrest, hpairs⟩, ?more, ?all⟩
  case runs =>
    refine List.forall_mem_cons.2 ⟨⟨hxe, fun y hxy hye => ⟨Nat.le_trans hkx hxy, hin y hxy hye⟩, fun hy => hout hy.2, h.pred⟩, fun r hr => ?_⟩
    obtain ⟨hle, hmem, hend, hpred⟩ := hruns r hr
    exact ⟨hle, fun y hry hyr => (hbehind (hmem y hry hyr)).2, fun hy => hend ⟨by have := hrest r hr; omega, hy.2⟩,
      hgap (hmem r.1 (Nat.le_refl _) hle) hpred⟩
  case more =>
    intro y hy
    obtain ⟨hmem, hpred, hlast⟩ := hmore y hy
    exact ⟨(hbehind hmem).2, hgap hmem hpred, List.forall_mem_cons.2 ⟨(hbehind hmem).1, hlast⟩⟩
  case all =>
    intro y hy
    rcases Nat.lt_or_ge e y with hlt | hge
    · exact (hall y ⟨hlt, hy.2⟩).imp_left fun ⟨r, hr, hy⟩ => ⟨r, .tail _ hr, hy⟩
    · exact .inl ⟨_, .head _, h.2 y hy, hge⟩

/-- The model's runs are the runs from the first key on. -/
theorem runsOf_runsFrom {n : Nat} {b : Box} (most : Nat) {k : Nat} {o : Option Nat} (h : Nearest (InRuns n b k) (· ≤ ·) o) :
    RunsOf n b k most (runsFrom n b most o).1 (runsFrom n b most o).2 := by
  induction most generalizing k o with
  | zero =>
    cases o with
    | none => exact runsOf_none 0 h
    | some x => exact runsOf_more h
  | succ most ih =>
    cases o with
    | none => exact runsOf_none _ h
    | some x => exact runsOf_cons h (ih (nearest_nextRun b (runEnd_spec h.1.2).2.1))

/-! Memory. -/

/-- The pairs of a split are written in their bytes alone. -/
theorem same_writeRuns (rs : List (Nat × Nat)) (m : Mem) (at_ : Nat) : SameOutside [(at_, 16 * rs.length)] m (writeRuns m at_ rs) := by
  induction rs generalizing m at_ with
  | nil => exact .rfl
  | cons r rs ih =>
    intro x hx
    have hout : x < at_ ∨ at_ + 16 * (rs.length + 1) ≤ x := hx _ (.head _)
    rw [writeRuns, ih _ _ x (List.forall_mem_singleton.2 (by dsimp only; omega)), Memory.get_write_out _ _ _ _ _ (by omega),
      Memory.get_write_out _ _ _ _ _ (by omega)]

/-- The model writes them one behind the other. -/
theorem foldl_lmWrite_runs (rs : List (Nat × Nat)) (c : Core) (at_ : Nat) :
    (rs.foldl (fun (x : Core × Nat) r => (lmWrite (lmWrite x.1 x.2 8 r.1) (x.2 + 8) 8 r.2, x.2 + 16)) (c, at_)).1 =
      { c with lm := writeRuns c.lm at_ rs } := by
  induction rs generalizing c at_ with
  | nil => rfl
  | cons r rs ih => exact ih _ _

theorem rdW_lt (c : Core) (n : Nat) : rdW c n < 2 ^ 32 := by
  unfold rdW
  split
  · exact Nat.two_pow_pos 32
  · exact Memory.read_lt _ _ 4

theorem regionTrap_store {c : Core} {ea n : Nat} (h : Storable c ea n) : regionTrap c ea n true = none := by
  have htrap := localTrap_store h
  rwa [localTrap, if_neg fun hne => hne h.1.1] at htrap

/-- A destination of which every pair may be stored passes the checks of R156. -/
theorem splitTrap_none {c : Core} {at_ most : Nat} (hbar : c.bar = false) (halign : at_ % 16 = 0) (hend : most = 0 ∨ at_ + 16 * most ≤ 0x6000)
    (hstore : ∀ i, i < most → Storable c (at_ + 16 * i) 16) : splitTrap c at_ most = none := by
  rw [splitTrap, if_neg fun h => h halign]
  split
  case isTrue => rfl
  case isFalse hmost =>
    rw [hbar, if_neg (by simp only [Bool.false_eq_true, if_false]; omega)]
    exact List.findSome?_eq_none_iff.2 fun i hi => regionTrap_store (hstore i (List.mem_range.1 hi))

/-- The runs of a split and the first key of a further run. -/
def splitRuns (c : Core) (t b a most : Nat) : List (Nat × Nat) × Option Nat :=
  runsFrom (t + 2) (rdBox c t b) most (firstKey (t + 2) (rdBox c t b) (rdKey c t a))

/-- The core after a split: pairs in memory, the resume key in xa, MORE and the count in wd. -/
def splitCore (c : Core) (at_ a d k : Nat) (q : List (Nat × Nat) × Option Nat) : Core :=
  wrW (wrX { c with lm := writeRuns c.lm at_ q.1 } a (q.2.getD k)) d (b2n q.2.isSome * 2 ^ 31 + q.1.length)

theorem splitCore_eq (c : Core) (at_ a d k : Nat) (q : List (Nat × Nat) × Option Nat) :
    splitCore c at_ a d k q = { c with lm := (splitCore c at_ a d k q).lm } := wrW_wrX_eq { c with lm := writeRuns c.lm at_ q.1 } _ _ _ _

theorem same_splitCore (c : Core) (at_ a d k : Nat) (q : List (Nat × Nat) × Option Nat) :
    SameOutside [(at_, 16 * q.1.length), spanX c a, spanW c d] c.lm (splitCore c at_ a d k q).lm :=
  ((same_writeRuns q.1 c.lm at_).mono (by simp)).trans
    ((same_wrW_wrX { c with lm := writeRuns c.lm at_ q.1 } a (q.2.getD k) d (b2n q.2.isSome * 2 ^ 31 + q.1.length)).mono
      fun _ hr => .tail _ hr)

theorem ckSplitOp_legal {m t b a d : Nat} {c : Core} (pc : Nat) (ht : t ≤ 6) (hb : b < 7) (ha : a < 8) (hbar : c.bar = false)
    (hcheck : splitTrap c (rdW c m % 2 ^ 15) (rdW c m / 2 ^ 16) = none) : ∃ rd wr bank cost, ckSplitOp m t b a d c pc =
      .ok { core := splitCore c (rdW c m % 2 ^ 15) a d (rdKey c t a) (splitRuns c t b a (rdW c m / 2 ^ 16)), rd := rd, wr := wr, bank := bank
            cost := cost } := by
  have hmost : fld (rdW c m) 16 16 = rdW c m / 2 ^ 16 := Nat.mod_eq_of_lt (Nat.div_lt_of_lt_mul (rdW_lt c m))
  rw [ckSplitOp, curveCheck_box ht hb (by simpa using ha)]
  simp only [hbar, Bool.false_eq_true, if_false, hmost, hcheck, foldl_lmWrite_runs, splitCore, splitRuns]
  exact ⟨_, _, _, _, rfl⟩

/-- An access whose effect changes local memory alone completes, and orders the loads behind it, whatever rows it meets. -/
theorem accesses_of_effect {i : Instr} {s : State} {use : GangUse} {len : Nat} {op : Local} (hi : exec i s = runLocal use len (ordering op) s)
    (hs : Solo s) {x : Core} (hx : x = { self s with lm := x.lm })
    (hf : ∃ rd wr bank cost, op (self s) (insPc (self s)) = .ok { core := x, rd := rd, wr := wr, bank := bank, cost := cost })
    {l : List (Nat × Nat)} (hl : SameOutside l (self s).lm x.lm) : Accesses i s x.lm l (pcAfter (self s) len) := by
  refine ⟨hl, ?_⟩
  obtain ⟨rd, wr, bank, cost, hf⟩ := hf
  have hord : ordering op (self s) (insPc (self s)) = .ok { core := l1Order x, rd := rd, wr := wr, bank := bank, cost := cost } := by
    rw [ordering, hf]; rfl
  have h := completesAs_of_runAt hi hs hord rfl rfl
  dsimp only at h
  rwa [hx] at h

/-- Settles O23: each run is ended by the first key outside the box, and the next begins at the first key of the box behind it. -/
theorem keyRuns : Obligations.KeyRuns := by
  unfold Obligations.KeyRuns
  intro m t b a d s hs ht hb ha hbar n k at_ most halign hend hstore
  refine ⟨(splitRuns (self s) t b a most).1, (splitRuns (self s) t b a most).2, ?runs, ?access⟩
  case runs => exact runsOf_runsFrom most (nearest_firstKey _ (rdKey_lt _ _ _))
  case access =>
    have hcheck := splitTrap_none hbar halign hend hstore
    exact accesses_of_effect (op := ckSplitOp m t b a d) rfl hs (splitCore_eq _ _ _ _ _ _) (ckSplitOp_legal _ ht hb ha hbar hcheck)
      (same_splitCore _ _ _ _ _ _)

end Sys2Proof.Machine
end
